-- ==== Sys2Proof/Word.lean ====
section
/-! DEFINITION. The word types of the Gyvioth GS5: a CSR word is 32 bits (spec/14_control_protocol.md R497), a byte 8. -/
namespace Sys2Proof

/-- A CSR word. -/
abbrev Word := BitVec 32

/-- A byte of a packet, a frame or a table entry. -/
abbrev Byte := BitVec 8

end Sys2Proof
end

