-- ==== Sys2Proof/Config.lean ====
section
/-! DEFINITION. What one device, its firmware image or an algorithm named but not written out in the spec fixes, and the free
values. Nothing here has a body that a proof could evaluate, but for the two silicon revisions of spec/00_scope.md R4, R5. -/
namespace Sys2Proof

/-- Production part (revision C0) or engineering sample (B0), spec/00_scope.md R4. -/
opaque Config.isProduction : Bool

/-- The revision code of R5. -/
def Config.revision : BitVec 8 := if Config.isProduction then 0xC0 else 0xB0

/-- Fixed at manufacture, with no value in the spec (R664). -/
opaque Config.macAddress : BitVec 48
/-- The 16 bytes of the device serial (R664). -/
opaque Config.serial : List Byte
/-- Certificates 0 to 2 of the certificate block (R596, R664). -/
opaque Config.certificates : Nat → List Byte

/-- A fresh value that the spec leaves open: applied to the counter `free` of the state, which the user advances. -/
opaque Config.free : Nat → BitVec 64

/-- What the fixed stages of both ends take out of the round trip of an echo, in ns (spec/11_optical_links.md R393): not in the spec. -/
opaque Config.fixedStagesNs : Nat

/-- The contents of the read-only region of the vat instruction memory (spec/09_vat_programming.md R311): not in the spec. -/
opaque Config.romWord : Nat → BitVec 64

/-- What the encoding of an ORDKEY operand adds to the order of spec/09_vat_programming.md R325, for a format: the distance between neighbours and
the place of zero. The spec gives the order of the keys and not their values. -/
opaque Config.keyScale : Nat → Nat
opaque Config.keyShift : Nat → Nat

/-- What OUT in mode FP32 makes of an fp32 word in a format for which the spec states no rounding of it, and of a BS8 block that holds an infinity or a NaN
(spec/09_vat_programming.md R327): the words and the place of the byte. -/
opaque Config.fp32Into : Nat → Nat → Nat
opaque Config.fp32Bs8 : List Nat → Nat → Nat

/-- The lanes that a wire group of an optical engine's bridge carries (spec/15_faults_sparing.md R529): port within the engine, wavelength, whether receive. The
spec does not say which. -/
opaque Config.groupLanes : Nat → List (Nat × Nat × Bool)

/-- The Reed-Solomon code of an LPDDR6 burst (spec/19_lpddr6.md R624), of which the spec gives the field's size and the number of symbols: the low 8
bits of the field's polynomial, the element whose powers are the roots, the first of the four consecutive powers, and what the fold of a channel byte
address adds to each check symbol. -/
opaque Config.burstPoly : Nat
opaque Config.burstRoot : Nat
opaque Config.burstFirst : Nat
opaque Config.burstFold : Nat → Nat → Nat

/-- What OUTSTANDING of LK_RESV reads when the outstanding reserve needs more than its 21 bits (spec/05_lake.md R174): not in the spec. -/
opaque Config.wideReserve : Nat → Nat

/-- The bursts in error that the copy of a retiring channel's segment meets (spec/19_lpddr6.md R628, R625), by the local count at which it completes and the logical
segment: the burst's place in the segment and whether it is uncorrectable. Not in the spec. -/
opaque Config.copyErrs : Nat → Nat → List (Nat × Bool)

/-- Whether boot storage is read at an address in quad-I/O mode (spec/20_package_electrical.md R650): it is read in single- and quad-I/O modes, and the spec does not say
which read takes which. -/
opaque Config.spiQuad : Nat → Bool

/-- In how many core cycles from a local count on a request queue of an LPDDR6 channel is full (QUEUE_FULL, spec/18_telemetry.md R606): not in the spec. -/
opaque Config.ddrQueueFull : Nat → Nat

/-- Whether LPDDR6 is busy at a local count, so that a record of a ring cannot be written (spec/18_telemetry.md R612): not in the spec. -/
opaque Config.ddrBusy : Nat → Nat → Bool

/-- How many vat cycles of the sequencer a handler of a built-in recipe takes (SEQ_BUSY, spec/18_telemetry.md R606), by the recipe and the handler (0 INIT, 1 STEP,
2 FINAL): not in the spec. -/
opaque Config.builtinCycles : Nat → Nat → Nat

/-- The boot image that boot storage holds in each slot when the device leaves manufacture, and the two copies of the boot selector (slot, trial flag, sequence
number, whether its CRC passes): not in the spec (R577, R664). -/
opaque Config.factoryImage : Nat → List Byte
opaque Config.factorySelector : Nat → Nat × Bool × Nat × Bool

/-- The 12 bytes of a boot selector copy before its CRC-32C: slot, trial flag, sequence number. The spec does not say where each stands (R577). -/
opaque Config.selectorFields : Nat → Bool → Nat → List Byte

/-- AES-256-GCM seal: key, nonce, associated data, plain text; the answer is cipher text then the 16-byte tag. -/
opaque Config.gcmSeal : List Byte → List Byte → List Byte → List Byte → List Byte
/-- AES-256-GCM open: key, nonce, associated data, cipher text with tag; none when the tag does not match. -/
opaque Config.gcmOpen : List Byte → List Byte → List Byte → List Byte → Option (List Byte)
/-- SHA-384. -/
opaque Config.sha384 : List Byte → List Byte
/-- ECDSA P-384 verification: public key, digest, signature. -/
opaque Config.ecdsaVerify : List Byte → List Byte → List Byte → Bool
/-- The unique device secret, fused at manufacture (R590); nothing reads it but the derivation of the two keys (R592). -/
opaque Config.deviceSecret : BitVec 256
/-- ECDSA P-384 signature of a digest by the device identity key, which is derived from the unique device secret, and by the alias key, derived from it and the
measurement of the image started (R592); the counter stands for the signer's random value. -/
opaque Config.deviceSign : BitVec 256 → Nat → List Byte → List Byte
opaque Config.aliasSign : BitVec 256 → Nat → List Byte → List Byte → List Byte
/-- The alias certificate of an image, by the unique device secret, its measurement, firmware version and security version (R596). -/
opaque Config.aliasCert : BitVec 256 → List Byte → Nat → Nat → List Byte
/-- The public half of the device identity key, derived from the unique device secret (R592), and the subject key of a certificate (R596). -/
opaque Config.deviceKey : BitVec 256 → List Byte
opaque Config.certKey : List Byte → List Byte
/-- The firmware keys 0 to 3 and the recipe keys 0 and 1 fused at manufacture (R590). -/
opaque Config.firmwareKey : Nat → Option (List Byte)
opaque Config.recipeKey : Nat → Option (List Byte)
/-- A fresh ephemeral P-384 key pair: secret and public point; the counter stands for the random value. -/
opaque Config.ephemeral : Nat → List Byte × List Byte
/-- The ECDH shared secret of a secret and a public point. -/
opaque Config.ecdh : List Byte → List Byte → List Byte
/-- HKDF with SHA-384: salt, key material, information, length. -/
opaque Config.hkdf : List Byte → List Byte → List Byte → Nat → List Byte
/-- The y-coordinate of the P-384 point whose compressed form these 49 bytes are. -/
opaque Config.p384Y : List Byte → List Byte
/-- Whether 97 bytes are an uncompressed point of P-384, or 49 bytes a compressed one. -/
opaque Config.onP384 : List Byte → Bool

end Sys2Proof
end

