-- ==== Sys2Proof/Machine/Bits.lean ====
section
/-! DEFINITION. Bit fields (spec/00_scope.md R9), byte orders (R10, R11), signed readings, and sparse tables: a list of pairs
with rising keys, in which no listed value equals what an unlisted key reads as. -/
namespace Sys2Proof.Machine

/-- Bits [hi:lo] of a number (R9). -/
def bits (n hi lo : Nat) : Nat := n / 2 ^ lo % 2 ^ (hi + 1 - lo)

/-- Bit k of a number. -/
def bit (n k : Nat) : Bool := n / 2 ^ k % 2 = 1

/-- `n` with bits [hi:lo] replaced by the low bits of `v`. -/
def putBits (n hi lo v : Nat) : Nat :=
  n - bits n hi lo * 2 ^ lo + v % 2 ^ (hi + 1 - lo) * 2 ^ lo

/-- One as a bit. -/
def b2n (b : Bool) : Nat := if b then 1 else 0

/-- Ceiling of a quotient. -/
def ceilDiv (a b : Nat) : Nat := (a + b - 1) / b

/-- The signed value of the low `w` bits of `n`, two's complement. -/
def sgn (w n : Nat) : Int :=
  let m := n % 2 ^ w
  if m < 2 ^ (w - 1) then (m : Int) else (m : Int) - (2 ^ w : Nat)

/-- The low `w` bits of an integer, two's complement. -/
def unsgn (w : Nat) (z : Int) : Nat := (z % (2 ^ w : Nat)).toNat

/-- An integer held within two bounds. -/
def clampI (lo hi z : Int) : Int := if z < lo then lo else if hi < z then hi else z

/-- The number that bytes carry, most significant first (R10). -/
def beNat (l : List Byte) : Nat := l.foldl (fun a b => a * 256 + b.toNat) 0

/-- The number that bytes store, least significant first (R11). -/
def leNat : List Byte → Nat
  | [] => 0
  | b :: r => b.toNat + 256 * leNat r

/-- `k` bytes of a number, least significant first (R11). -/
def leBytes : Nat → Nat → List Byte
  | _, 0 => []
  | n, k + 1 => BitVec.ofNat 8 n :: leBytes (n / 256) k

/-- `k` bytes of a number, most significant first (R10). -/
def beBytes (n k : Nat) : List Byte := (leBytes n k).reverse

/-- `k` bytes from offset `o`, zero beyond the end. -/
def slice (l : List Byte) (o k : Nat) : List Byte :=
  let s := (l.drop o).take k
  s ++ List.replicate (k - s.length) 0

/-- `l` with the bytes from offset `o` replaced by `v`. -/
def splice (l : List Byte) (o : Nat) (v : List Byte) : List Byte :=
  l.take o ++ v ++ l.drop (o + v.length)

/-- The byte at an offset, zero beyond the end. -/
def byteAt (l : List Byte) (o : Nat) : Nat := (l.getD o 0).toNat

/-- The value a sparse table lists under a key. -/
def Sparse.find {α : Type} : List (Nat × α) → Nat → Option α
  | [], _ => none
  | (k, v) :: r, a => if k = a then some v else Sparse.find r a

/-- A sparse table without a key. -/
def Sparse.del {α : Type} : List (Nat × α) → Nat → List (Nat × α)
  | [], _ => []
  | (k, v) :: r, a => if k = a then Sparse.del r a else (k, v) :: Sparse.del r a

/-- A sparse table with a key set, the keys kept rising. -/
def Sparse.ins {α : Type} : List (Nat × α) → Nat → α → List (Nat × α)
  | [], a, x => [(a, x)]
  | (k, v) :: r, a, x =>
    if a < k then (a, x) :: (k, v) :: r
    else if k = a then (a, x) :: r
    else (k, v) :: Sparse.ins r a x

/-- Set a key of a table whose unlisted keys read as `dflt`. -/
def Sparse.put {α : Type} [DecidableEq α] (dflt : α) (l : List (Nat × α)) (a : Nat) (x : α) : List (Nat × α) :=
  if x = dflt then Sparse.del l a else Sparse.ins l a x

/-- Read a key of a table whose unlisted keys read as `dflt`. -/
def Sparse.get {α : Type} (dflt : α) (l : List (Nat × α)) (a : Nat) : α := (Sparse.find l a).getD dflt

/-- The canonical form of a table from key `n` on: keys strictly rising, no listed value equal to what an unlisted key reads as. -/
def Sparse.Rising {α : Type} (dflt : α) : Nat → List (Nat × α) → Prop
  | _, [] => True
  | n, (k, v) :: r => n ≤ k ∧ v ≠ dflt ∧ Sparse.Rising dflt (k + 1) r

/-- The canonical form of a table. -/
abbrev Sparse.wf {α : Type} (dflt : α) (l : List (Nat × α)) : Prop := Sparse.Rising dflt 0 l

/-- Replace the k-th element of a list. -/
def setAt {α : Type} (l : List α) (k : Nat) (x : α) : List α := l.set k x

/-- The first element that passes a test, with its place. -/
def findIdxOpt {α : Type} (p : α → Bool) : List α → Nat → Option Nat
  | [], _ => none
  | x :: r, n => if p x then some n else findIdxOpt p r (n + 1)

/-- The elements 0 to n - 1 rotated so that `s` stands first: the round-robin orders of the spec. -/
def rotate (n s : Nat) : List Nat := (List.range n).map fun k => (s + k) % n

end Sys2Proof.Machine
end

