-- ==== Sys2Proof/Machine/Checks.lean ====
section
/-! DEFINITION. The checks that the spec writes out: the header CRC and the payload check (spec/02_fabric_protocol.md R80, R81,
R83, R84), bit by bit. The checks of the link layer stand in Machine/Fec.lean. -/
namespace Sys2Proof.Machine

/-- One bit of a CRC that shifts towards the most significant bit: `w` wide, polynomial `poly`. -/
def crcBitMsb (w poly crc : Nat) (bitIn : Bool) : Nat :=
  let top := Nat.testBit crc (w - 1)
  let c := crc * 2 % 2 ^ w
  if top ≠ bitIn then Nat.xor c poly else c

/-- The low `k` bits of a byte or word, most significant first, into a CRC. -/
def crcBitsMsb (w poly : Nat) : Nat → Nat → Nat → Nat
  | 0, crc, _ => crc
  | k + 1, crc, v => crcBitsMsb w poly k (crcBitMsb w poly crc (Nat.testBit v k)) v

/-- The header CRC of R80: CRC-16, polynomial 0x1021, initial value 0xFFFF. -/
def crc16 (l : List Byte) : Nat := l.foldl (fun c b => crcBitsMsb 16 0x1021 8 c b.toNat) 0xFFFF

/-- One reflected step of CRC-32C: the polynomial 0x1EDC6F41 reversed is 0x82F63B78. -/
def crc32cStep (c : Nat) : Nat := if c % 2 = 1 then Nat.xor (c / 2) 0x82F63B78 else c / 2

/-- One byte into a CRC-32C. -/
def crc32cByte (c : Nat) (b : Byte) : Nat :=
  let c := Nat.xor c b.toNat
  crc32cStep (crc32cStep (crc32cStep (crc32cStep (crc32cStep (crc32cStep (crc32cStep (crc32cStep c)))))))

/-- The payload check of R81. -/
def crc32c (l : List Byte) : Nat := Nat.xor (l.foldl crc32cByte 0xFFFFFFFF) 0xFFFFFFFF

/-- The mask of a stomped check (R83, R84). -/
def stompMask : Nat := 0xA5A5A5A5

end Sys2Proof.Machine
end

