-- ==== Sys2Proof/Machine/Fec.lean ====
section
/-! DEFINITION. The lane coding of spec/11_optical_links.md: RS(272,256) over GF(2^10) (R366), the scrambler (R367), the data stream (R373) and the
CRC of a link control symbol (R376). -/
namespace Sys2Proof.Machine

/-! The field GF(2^10) of R366: polynomial x^10 + x^3 + 1, its root 2. -/

/-- Multiply by the root. -/
def gfTwice (a : Nat) : Nat := if a < 512 then 2 * a else Nat.xor (2 * a - 1024) 9

/-- Product, over the low `k` bits of `b` from the most significant. -/
def gfMulBits (a b : Nat) : Nat → Nat → Nat
  | 0, acc => acc
  | k + 1, acc => gfMulBits a b k (Nat.xor (gfTwice acc) (if Nat.testBit b k then a else 0))

/-- Product in the field. -/
def gfMul (a b : Nat) : Nat := gfMulBits a b 10 0

/-- Power in the field. -/
def gfPow (a : Nat) : Nat → Nat
  | 0 => 1
  | n + 1 => gfMul a (gfPow a n)

/-- Inverse of a nonzero element: a^1022 = ((a^2)^511), by squares. -/
def gfInv (a : Nat) : Nat :=
  ((List.range 9).foldl (fun (x : Nat × Nat) _ => let s := gfMul x.1 x.1; (s, gfMul x.2 s)) (a, 1)).2

/-- Value of a polynomial, highest degree first. -/
def gfEval (p : List Nat) (x : Nat) : Nat := p.foldl (fun a c => Nat.xor (gfMul a x) c) 0

/-- The generator of R366, the product of (x - α^i) for i from 0 to 15, lowest degree first. -/
def rsGen : List Nat :=
  (List.range 16).foldl (fun g i =>
    let r := gfPow 2 i
    List.zipWith Nat.xor (0 :: g) (g.map (gfMul r) ++ [0])) [1]

/-- The sixteen check symbols of a message, highest degree first: the remainder by the generator. -/
def rsCheck (msg : List Nat) : List Nat :=
  let g := (rsGen.take 16).reverse
  msg.foldl (fun rem m =>
    let f := Nat.xor m (rem.getD 0 0)
    List.zipWith Nat.xor (rem.drop 1 ++ [0]) (g.map (gfMul f))) (List.replicate 16 0)

/-- A codeword: 256 message symbols, then 16 check symbols. -/
def rsEncode (msg : List Nat) : List Nat := msg ++ rsCheck msg

/-- The syndromes; symbol k of a codeword is the coefficient of x^(271 - k). -/
def rsSyn (cw : List Nat) : List Nat := (List.range 16).map fun i => gfEval cw (gfPow 2 i)

/-- Sum of products at distance, for the discrepancy. -/
def rsDisc (syn loc : List Nat) (n : Nat) : Nat :=
  (List.range loc.length).foldl (fun a i => if i ≤ n then Nat.xor a (gfMul (loc.getD i 0) (syn.getD (n - i) 0)) else a) 0

/-- Add two polynomials, lowest degree first. -/
def gfAdd : List Nat → List Nat → List Nat
  | [], q => q
  | p, [] => p
  | a :: p, b :: q => Nat.xor a b :: gfAdd p q

/-- The error locator by the Berlekamp-Massey method: (locator, its length). -/
def rsLocator (syn : List Nat) : List Nat × Nat :=
  let r := (List.range 16).foldl (fun (st : List Nat × List Nat × Nat × Nat × Nat) n =>
    let (c, b, l, m, bb) := st
    let dd := rsDisc syn c n
    if dd = 0 then (c, b, l, m + 1, bb)
    else
      let k := gfMul dd (gfInv bb)
      let c' := gfAdd c (List.replicate m 0 ++ b.map (gfMul k))
      if 2 * l ≤ n then (c', c, n + 1 - l, 1, dd) else (c', b, l, m + 1, bb)) ([1], [1], 0, 1, 1)
  (r.1, r.2.2.1)

/-- The error at the position of degree `e` (locator lowest degree first), zero where the locator has no root there. -/
def rsError (loc omega : List Nat) (e : Nat) : Nat :=
  let x := gfPow 2 e
  let xi := gfInv x
  if gfEval loc.reverse xi ≠ 0 then 0
  else
    let dl := (List.range loc.length).foldl (fun a i => if i % 2 = 1 then Nat.xor a (gfMul (loc.getD i 0) (gfPow xi (i - 1))) else a) 0
    gfMul x (gfMul (gfEval omega.reverse xi) (gfInv dl))

/-- Decode a received codeword (R366): the corrected codeword and the number of symbols corrected, or none when it has more errors than the code
corrects, up to 8. -/
def rsDecode (cw : List Nat) : Option (List Nat × Nat) :=
  let syn := rsSyn cw
  if syn.all (· = 0) then some (cw, 0)
  else
    let (loc, l) := rsLocator syn
    if 8 < l then none
    else
      let omega := (List.range 16).map fun n => rsDisc syn loc n
      let err := (List.range 272).map fun k => rsError loc (omega.take l) (271 - k)
      let out := List.zipWith Nat.xor cw err
      let n := err.countP (· ≠ 0)
      if n ≤ 8 ∧ (rsSyn out).all (· = 0) then some (out, n) else none

/-! The code of an LPDDR6 burst over GF(2^8) (spec/19_lpddr6.md R624): 32 data symbols and 4 check symbols, each the 8 bits of one data pin over 8
consecutive beats. The spec gives neither the field's polynomial, nor the roots, nor how the address is folded in: they are Config's. -/

/-- Multiply by x. -/
def gf8Twice (a : Nat) : Nat := if a < 128 then 2 * a else Nat.xor (2 * a - 256) (Config.burstPoly % 256)

/-- Product in GF(2^8), over the low `k` bits of `b` from the most significant. -/
def gf8MulBits (a b : Nat) : Nat → Nat → Nat
  | 0, acc => acc
  | k + 1, acc => gf8MulBits a b k (Nat.xor (gf8Twice acc) (if Nat.testBit b k then a else 0))

def gf8Mul (a b : Nat) : Nat := gf8MulBits a b 8 0
def gf8Pow (a : Nat) : Nat → Nat
  | 0 => 1
  | n + 1 => gf8Mul a (gf8Pow a n)

/-- The generator over the four roots, lowest degree first. -/
def burstGen : List Nat :=
  (List.range 4).foldl (fun g i => List.zipWith Nat.xor (0 :: g) (g.map (gf8Mul (gf8Pow Config.burstRoot (Config.burstFirst + i))) ++ [0])) [1]

/-- The four check symbols of 32 data bytes, before the address is folded in. -/
def burstCheck (data : List Nat) : List Nat :=
  let g := (burstGen.take 4).reverse
  data.foldl (fun rem m =>
    let f := Nat.xor m (rem.getD 0 0)
    List.zipWith Nat.xor (rem.drop 1 ++ [0]) (g.map (gf8Mul f))) (List.replicate 4 0)

/-- A burst as written: the data, then the check symbols with the channel byte address folded in. -/
def burstEncode (addr : Nat) (data : List Nat) : List Nat :=
  data ++ List.zipWith Nat.xor (burstCheck data) ((List.range 4).map (Config.burstFold addr · % 256))

/-- The four syndromes of a codeword, highest degree first. -/
def burstSyn (cw : List Nat) : List Nat :=
  (List.range 4).map fun i => cw.foldl (fun a c => Nat.xor (gf8Mul a (gf8Pow Config.burstRoot (Config.burstFirst + i))) c) 0

/-- The place of the one symbol in error that the syndromes are those of, and its value. -/
def burstError (syn : List Nat) : Option (Nat × Nat) :=
  (List.range 36).findSome? fun k =>
    let x := gf8Pow Config.burstRoot (35 - k)
    let s (i : Nat) := syn.getD i 0
    if s 1 = gf8Mul (s 0) x ∧ s 2 = gf8Mul (s 1) x ∧ s 3 = gf8Mul (s 2) x then
      ((List.range 256).find? fun e => gf8Mul e (gf8Pow x Config.burstFirst) = s 0).map fun e => (k, e)
    else none

/-- Check a burst read at a channel byte address (R625): its data and whether a symbol was corrected; none when it is uncorrectable. -/
def burstDecode (addr : Nat) (burst : List Nat) : Option (List Nat × Bool) :=
  let cw := burst.take 32 ++ List.zipWith Nat.xor ((burst.drop 32).take 4) ((List.range 4).map (Config.burstFold addr · % 256))
  let syn := burstSyn cw
  if syn.all (· = 0) then some (cw.take 32, false)
  else (burstError syn).map fun (x : Nat × Nat) => ((cw.mapIdx fun i c => if i = x.1 then Nat.xor c x.2 else c).take 32, true)

/-! The self-synchronising scrambler of R367, x^58 + x^39 + 1. The state holds the last 58 scrambled bits, the newest lowest. -/

/-- The feedback bit of a state. -/
def scrTap (s : Nat) : Bool := Nat.testBit s 38 ≠ Nat.testBit s 57

/-- A state with one scrambled bit shifted in. -/
def scrPush (s : Nat) (b : Bool) : Nat := (2 * s + b2n b) % 2 ^ 58

/-- One symbol scrambled or descrambled, bits `k` - 1 to 0, most significant first: (state, result). -/
def scrSym (descr : Bool) (v : Nat) : Nat → Nat → Nat → Nat × Nat
  | 0, s, r => (s, r)
  | k + 1, s, r =>
    let b := Nat.testBit v k
    let o := b ≠ scrTap s
    scrSym descr v k (scrPush s (if descr then b else o)) (2 * r + b2n o)

/-- A message scrambled or descrambled, symbol by symbol: (state, message). -/
def scrMsg (descr : Bool) (msg : List Nat) (s : Nat) : Nat × List Nat :=
  let r := msg.foldl (fun (x : Nat × List Nat) v => let y := scrSym descr v 10 x.1 0; (y.1, y.2 :: x.2)) (s, [])
  (r.1, r.2.reverse)

/-- The last 58 bits of a message: the state it leaves. -/
def scrState (msg : List Nat) : Nat := msg.foldl (fun s v => (s * 1024 + v) % 2 ^ 58) 0

/-! The data stream (R373). -/

/-- Bits of a symbol, most significant first; a lost symbol gives lost bits. -/
def symBits : Option Nat → List (Option Bool)
  | none => List.replicate 10 none
  | some v => (List.range 10).map fun k => some (Nat.testBit v (9 - k))

/-- A byte of eight bits; a byte with a lost bit is lost. -/
def bitsByte (l : List (Option Bool)) : Option Byte :=
  if l.any Option.isNone then none else some (BitVec.ofNat 8 (l.foldl (fun a b => 2 * a + b2n (b.getD false)) 0))

/-- Whole bytes of a bit stream, `n` at most, and what is left. -/
def takeBytes : Nat → List (Option Bool) → List (Option Byte) × List (Option Bool)
  | 0, l => ([], l)
  | n + 1, l =>
    if l.length < 8 then ([], l)
    else
      let r := takeBytes n (l.drop 8)
      (bitsByte (l.take 8) :: r.1, r.2)

/-- The data symbols of a row in stream order: position by position, ascending logical lanes. `rows` holds each lane's 255 data symbols. -/
def rowSymbols (rows : List (Option (List Nat))) : List (Option Nat) :=
  (List.range 255).flatMap fun q => rows.map fun r => r.map fun l => l.getD q 0

/-- The data symbols of each of `n` lanes for one row, out of a bit stream (count and value `b`) filled up with bytes of `data`, and the bits left
over. -/
def fillRow (n : Nat) (b : Nat × Nat) (data : List Byte) : List (List Nat) × (Nat × Nat) :=
  let need := n * 2550
  let k := ceilDiv (need - b.1) 8
  let tot := b.1 + 8 * k
  let v := b.2 * 2 ^ (8 * k) + beNat (slice data 0 k)
  let top := v / 2 ^ (tot - need)
  let sym (m : Nat) := top / 2 ^ (need - 10 * (m + 1)) % 1024
  ((List.range n).map fun i => (List.range 255).map fun q => sym (q * n + i), (tot - need, v % 2 ^ (tot - need)))

/-! Link control symbols (R376). -/

/-- CRC-8 over bits [39:8]: polynomial x^8 + x^2 + x + 1. -/
def crc8 (v : Nat) : Nat := crcBitsMsb 8 0x07 32 0 v

/-- An LCS of its fields. -/
def lcsWord (typ xoff first body : Nat) : Nat :=
  let v := typ % 16 * 2 ^ 28 + xoff % 256 * 2 ^ 20 + first % 4096 * 2 ^ 8 + body % 256
  v * 256 + crc8 v

/-- Whether the CRC of an LCS agrees. -/
def lcsOk (w : Nat) : Bool := w % 256 = crc8 (w / 256)

end Sys2Proof.Machine
end

