-- ==== Sys2Proof/Machine/RegMap.lean ====
section
/-! DEFINITION. The CSR space (spec/14_control_protocol.md R497 to R499): the block map, the address of every register, the
place of every field, and for every register its field types (R15) and reset values, transcribed from the register tables of
the chapters. A word that no family names is an offset that no register occupies (R498). -/
namespace Sys2Proof.Machine

/-- A field of a register: its bit range (R9). -/
structure FR where
  hi : Nat
  lo : Nat
deriving DecidableEq, Repr

/-- The field types of R15. -/
inductive FTy where
  | ro | rw | rws | rwb | w1c | wo
deriving DecidableEq, Repr

/-- One field as a register table gives it: bit range, type, reset value. -/
structure Fld where
  hi : Nat
  lo : Nat
  ty : FTy
  rst : Nat
deriving DecidableEq, Repr

/-- How a family's reset value depends on the register's index: not at all; VB_MAP, whose PVAT resets to its index
(15_faults_sparing.md); DD_REMAP, whose CH and SEG reset to slot and segment (R622); the values fixed at manufacture (R664). -/
inductive RstKind where
  | const | vbMap | ddRemap | devRev | macHi | macLo
deriving DecidableEq, Repr

/-- A family of registers inside a block: the word at `base + i * s1 + j * s2` for i below n1 and j below n2. -/
structure RegFam where
  base : Nat
  n1 : Nat
  s1 : Nat
  n2 : Nat
  s2 : Nat
  kind : RstKind
  flds : List Fld
deriving DecidableEq, Repr

/-- A family of 64-bit counters (R94): the low register's place, as for `RegFam`. -/
structure CtrFam where
  base : Nat
  n1 : Nat
  s1 : Nat
  n2 : Nat
  s2 : Nat
deriving DecidableEq, Repr


/-! Registers of spec/01_architecture.md. -/

def R.QCTRL_PORT (i : Nat) : Nat := 0x05000000 + 0x100 * i
def R.QSTAT_PORT (i : Nat) : Nat := 0x05000004 + 0x100 * i
def R.QCTRL_OE (i : Nat) : Nat := 0x050E0000 + 0x100 * i
def R.QSTAT_OE (i : Nat) : Nat := 0x050E0004 + 0x100 * i
def R.QCTRL_PL (p : Nat) : Nat := 0x10000000 + 0x1000000 * p
def R.QSTAT_PL (p : Nat) : Nat := 0x10000004 + 0x1000000 * p
def R.QCTRL_VB (b : Nat) : Nat := 0x20000000 + 0x1000000 * b
def R.QSTAT_VB (b : Nat) : Nat := 0x20000004 + 0x1000000 * b
def R.QCTRL_XS (i : Nat) : Nat := 0x02008000 + 0x100 * i
def R.QSTAT_XS (i : Nat) : Nat := 0x02008004 + 0x100 * i
def R.QCTRL_LAKE : Nat := 0x03000000
def R.QSTAT_LAKE : Nat := 0x03000004
def R.QCTRL_TU : Nat := 0x06000000
def R.QSTAT_TU : Nat := 0x06000004
def R.QCTRL_CH (i : Nat) : Nat := 0x07000000 + 0x1000 * i
def R.QSTAT_CH (i : Nat) : Nat := 0x07000004 + 0x1000 * i
def R.QCTRL_MP : Nat := 0x08000000
def R.QSTAT_MP : Nat := 0x08000004
def R.MRD_CTRL (i : Nat) : Nat := 0x01004000 + 0x4000 * i
def F.MRD_CTRL_COUNT : FR := ⟨25, 16⟩
def F.MRD_CTRL_CLEAR : FR := ⟨2, 2⟩
def F.MRD_CTRL_CANCEL : FR := ⟨1, 1⟩
def F.MRD_CTRL_ARM : FR := ⟨0, 0⟩
def R.MRD_TARGET_LO (i : Nat) : Nat := 0x01004004 + 0x4000 * i
def F.MRD_TARGET_LO_BEAT_LO : FR := ⟨31, 0⟩
def R.MRD_TARGET_HI (i : Nat) : Nat := 0x01004008 + 0x4000 * i
def F.MRD_TARGET_HI_BEAT_HI : FR := ⟨15, 0⟩
def R.MRD_STATUS (i : Nat) : Nat := 0x0100400C + 0x4000 * i
def F.MRD_STATUS_DONE_EVT : FR := ⟨8, 8⟩
def F.MRD_STATUS_CANCEL_LATE : FR := ⟨7, 7⟩
def F.MRD_STATUS_ECC : FR := ⟨6, 6⟩
def F.MRD_STATUS_TYPE : FR := ⟨5, 5⟩
def F.MRD_STATUS_CONFLICT : FR := ⟨4, 4⟩
def F.MRD_STATUS_LATE : FR := ⟨3, 3⟩
def F.MRD_STATUS_STATE : FR := ⟨1, 0⟩
def R.MRD_APPLIED_BEAT_LO (i : Nat) : Nat := 0x01004010 + 0x4000 * i
def R.MRD_APPLIED_BEAT_HI (i : Nat) : Nat := 0x01004014 + 0x4000 * i
def R.MRD_ITEM_ADDR (i j : Nat) : Nat := 0x01004100 + 0x4000 * i + 0x10 * j
def R.MRD_ITEM_VALUE (i j : Nat) : Nat := 0x01004104 + 0x4000 * i + 0x10 * j
def R.MRD_ITEM_MASK (i j : Nat) : Nat := 0x01004108 + 0x4000 * i + 0x10 * j

/-! Registers of spec/02_fabric_protocol.md. -/

def R.FP_IDENT (p : Nat) : Nat := 0x10000100 + 0x1000000 * p
def F.FP_IDENT_ID_VALID : FR := ⟨31, 31⟩
def F.FP_IDENT_CHIP_ID : FR := ⟨17, 0⟩
def R.FP_CTRL (p : Nat) : Nat := 0x10000104 + 0x1000000 * p
def F.FP_CTRL_HOP_LIMIT : FR := ⟨19, 16⟩
def R.FP_MGMT_EN (p : Nat) : Nat := 0x10000108 + 0x1000000 * p
def F.FP_MGMT_EN_PORT_EN : FR := ⟨31, 0⟩
def R.PL_HDR_CRC (p : Nat) : Nat := 0x10000400 + 0x1000000 * p
def R.PL_MALFORMED (p : Nat) : Nat := 0x10000408 + 0x1000000 * p
def R.PL_HOP_LIMIT (p : Nat) : Nat := 0x10000410 + 0x1000000 * p
def R.PL_FOREIGN_PART (p : Nat) : Nat := 0x10000418 + 0x1000000 * p
def R.PL_STALE_EPOCH (p : Nat) : Nat := 0x10000420 + 0x1000000 * p
def R.PL_UNCLAIMED (p : Nat) : Nat := 0x10000428 + 0x1000000 * p
def R.PL_PAYLOAD_BAD (p : Nat) : Nat := 0x10000430 + 0x1000000 * p
def R.PL_PAYLOAD_STOMPED (p : Nat) : Nat := 0x10000438 + 0x1000000 * p

/-! Registers of spec/03_forwarding.md. -/

def R.FW_EPOCH (p : Nat) : Nat := 0x10001000 + 0x1000000 * p
def F.FW_EPOCH_RETIRE_NOW : FR := ⟨16, 16⟩
def F.FW_EPOCH_EPOCH_REFUSED : FR := ⟨9, 9⟩
def F.FW_EPOCH_PREV_HELD : FR := ⟨8, 8⟩
def F.FW_EPOCH_CUR_EPOCH : FR := ⟨1, 0⟩
def R.FW_RETIRE_LO (p : Nat) : Nat := 0x10001004 + 0x1000000 * p
def F.FW_RETIRE_LO_BEAT_LO : FR := ⟨31, 0⟩
def R.FW_RETIRE_HI (p : Nat) : Nat := 0x10001008 + 0x1000000 * p
def F.FW_RETIRE_HI_BEAT_HI : FR := ⟨15, 0⟩
def R.EM_CTRL (p : Nat) : Nat := 0x10001020 + 0x1000000 * p
def F.EM_CTRL_AGE : FR := ⟨31, 16⟩
def F.EM_CTRL_AGE_EN : FR := ⟨2, 2⟩
def F.EM_CTRL_MOVE_EN : FR := ⟨1, 1⟩
def F.EM_CTRL_LEARN_EN : FR := ⟨0, 0⟩
def R.EM_STAT (p : Nat) : Nat := 0x10001024 + 0x1000000 * p
def F.EM_STAT_ONDIE_COUNT : FR := ⟨16, 0⟩
def R.EM_OVF_STAT (p : Nat) : Nat := 0x10001028 + 0x1000000 * p
def F.EM_OVF_STAT_OVF_COUNT : FR := ⟨20, 0⟩
def R.TW_INDEX (p : Nat) : Nat := 0x10001100 + 0x1000000 * p
def F.TW_INDEX_INDEX : FR := ⟨17, 0⟩
def R.TW_CMD (p : Nat) : Nat := 0x10001104 + 0x1000000 * p
def F.TW_CMD_OP : FR := ⟨11, 8⟩
def F.TW_CMD_BANK : FR := ⟨4, 4⟩
def F.TW_CMD_TABLE : FR := ⟨3, 0⟩
def R.TW_STAT (p : Nat) : Nat := 0x10001108 + 0x1000000 * p
def F.TW_STAT_RESULT : FR := ⟨11, 8⟩
def F.TW_STAT_OVERRUN : FR := ⟨1, 1⟩
def F.TW_STAT_BUSY : FR := ⟨0, 0⟩
def R.TW_DATA (p i : Nat) : Nat := 0x10001140 + 0x1000000 * p + 0x4 * i
def R.FW_NO_ROUTE (p : Nat) : Nat := 0x10000440 + 0x1000000 * p
def R.FW_PORT_DOWN (p : Nat) : Nat := 0x10000448 + 0x1000000 * p
def R.FW_PREV_ROUTED (p : Nat) : Nat := 0x10000450 + 0x1000000 * p
def R.EM_HIT (p : Nat) : Nat := 0x10000458 + 0x1000000 * p
def R.EM_MISS (p : Nat) : Nat := 0x10000460 + 0x1000000 * p
def R.EM_FILTERED (p : Nat) : Nat := 0x10000468 + 0x1000000 * p
def R.EM_OVF_SKIP (p : Nat) : Nat := 0x10000470 + 0x1000000 * p
def R.EM_LEARN (p : Nat) : Nat := 0x10000478 + 0x1000000 * p
def R.EM_MOVE (p : Nat) : Nat := 0x10000480 + 0x1000000 * p
def R.EM_MOVE_BLOCKED (p : Nat) : Nat := 0x10000488 + 0x1000000 * p
def R.EM_STATIC_CONFLICT (p : Nat) : Nat := 0x10000490 + 0x1000000 * p
def R.EM_LEARN_DROP (p : Nat) : Nat := 0x10000498 + 0x1000000 * p
def R.EM_AGED (p : Nat) : Nat := 0x100004A0 + 0x1000000 * p

/-! Registers of spec/04_switch_core.md. -/

def R.SC_AGE_LO (i : Nat) : Nat := 0x02000100 + 0x4 * i
def F.SC_AGE_LO_AGE_US : FR := ⟨15, 0⟩
def R.SC_AGE_BE (i : Nat) : Nat := 0x02000114 + 0x4 * i
def F.SC_AGE_BE_AGE_US : FR := ⟨15, 0⟩
def R.SC_AGE_7 : Nat := 0x0200011C
def F.SC_AGE_7_AGE_US : FR := ⟨15, 0⟩
def R.SC_HR_POOL : Nat := 0x02000200
def F.SC_HR_POOL_HR_DENY : FR := ⟨31, 31⟩
def F.SC_HR_POOL_HR_RESERVED : FR := ⟨18, 0⟩
def R.SC_SLICE : Nat := 0x02000204
def F.SC_SLICE_SPARE : FR := ⟨4, 0⟩
def R.SC_FENCE_USE (i : Nat) : Nat := 0x02000300 + 0x4 * i
def F.SC_FENCE_USE_IN_USE : FR := ⟨10, 0⟩
def R.SC_PORT_FC (i : Nat) : Nat := 0x02001000 + 0x4 * i
def F.SC_PORT_FC_CABLE_M1 : FR := ⟨25, 18⟩
def F.SC_PORT_FC_HEADROOM : FR := ⟨17, 8⟩
def F.SC_PORT_FC_CABLE_M : FR := ⟨7, 0⟩
def R.SC_XOFF (i : Nat) : Nat := 0x02002000 + 0x4 * i
def F.SC_XOFF_HR_STOP : FR := ⟨16, 16⟩
def F.SC_XOFF_XOFF_RCVD : FR := ⟨15, 8⟩
def F.SC_XOFF_XOFF_SENT : FR := ⟨7, 0⟩
def R.SC_AGE_DROP : Nat := 0x02000400
def R.SC_AGE_NACK : Nat := 0x02000408
def R.SC_FENCE_HELD : Nat := 0x02000410
def R.SC_FENCE_STALL : Nat := 0x02000418
def R.SC_SF_PACKETS : Nat := 0x02000420
def R.SC_SLICE_CORR : Nat := 0x02000428
def R.SC_SLICE_UNCORR : Nat := 0x02000430
def R.SC_HR_STOP : Nat := 0x02000438

/-! Registers of spec/05_lake.md. -/

def R.LK_POOL : Nat := 0x03000100
def F.LK_POOL_POOL_WARN : FR := ⟨31, 31⟩
def F.LK_POOL_MAIN_FREE : FR := ⟨20, 0⟩
def R.LK_RESV : Nat := 0x03000104
def F.LK_RESV_OUTSTANDING : FR := ⟨20, 0⟩
def R.LK_WARN : Nat := 0x03000108
def F.LK_WARN_WARN_LEVEL : FR := ⟨20, 0⟩
def R.LK_PGMIN_LO (i : Nat) : Nat := 0x03000120 + 0x4 * i
def F.LK_PGMIN_LO_MIN : FR := ⟨15, 0⟩
def R.LK_PGMIN_BE (i : Nat) : Nat := 0x03000134 + 0x4 * i
def F.LK_PGMIN_BE_MIN : FR := ⟨15, 0⟩
def R.LK_PGMIN_7 : Nat := 0x0300013C
def F.LK_PGMIN_7_MIN : FR := ⟨15, 0⟩
def R.LK_ITH_LO (i : Nat) : Nat := 0x03000140 + 0x4 * i
def F.LK_ITH_LO_ALPHA : FR := ⟨31, 28⟩
def F.LK_ITH_LO_STOP_MAX : FR := ⟨20, 0⟩
def R.LK_ITH_BE (i : Nat) : Nat := 0x03000154 + 0x4 * i
def F.LK_ITH_BE_ALPHA : FR := ⟨31, 28⟩
def F.LK_ITH_BE_STOP_MAX : FR := ⟨20, 0⟩
def R.LK_ITH_7 : Nat := 0x0300015C
def F.LK_ITH_7_ALPHA : FR := ⟨31, 28⟩
def F.LK_ITH_7_STOP_MAX : FR := ⟨20, 0⟩
def R.LK_IRES (i : Nat) : Nat := 0x03000160 + 0x4 * i
def F.LK_IRES_RESUME_GAP : FR := ⟨15, 0⟩
def R.LK_ETH (i : Nat) : Nat := 0x03000180 + 0x4 * i
def F.LK_ETH_EGR_LIMIT : FR := ⟨31, 16⟩
def F.LK_ETH_MARK : FR := ⟨15, 0⟩
def R.LK_PUSH : Nat := 0x030001A0
def F.LK_PUSH_PUSH_EN : FR := ⟨8, 8⟩
def F.LK_PUSH_PUSH_MAX : FR := ⟨2, 0⟩
def R.LK_CLASSMIN : Nat := 0x030001A4
def F.LK_CLASSMIN_CLASS3 : FR := ⟨31, 24⟩
def F.LK_CLASSMIN_CLASS2 : FR := ⟨23, 16⟩
def F.LK_CLASSMIN_CLASS1 : FR := ⟨15, 8⟩
def F.LK_CLASSMIN_CLASS0 : FR := ⟨7, 0⟩
def R.LK_VBRES : Nat := 0x030001A8
def F.LK_VBRES_RESULT_MIN : FR := ⟨15, 0⟩
def R.LK_PART_A (i : Nat) : Nat := 0x03000200 + 0x8 * i
def F.LK_PART_A_VALID : FR := ⟨31, 31⟩
def F.LK_PART_A_PARTITION : FR := ⟨11, 0⟩
def R.LK_PART_B (i : Nat) : Nat := 0x03000204 + 0x8 * i
def F.LK_PART_B_GRAN_MIN : FR := ⟨31, 24⟩
def F.LK_PART_B_CELL_MIN : FR := ⟨20, 0⟩
def R.LK_PTR_LAST : Nat := 0x03000300
def F.LK_PTR_LAST_CHECK : FR := ⟨31, 30⟩
def F.LK_PTR_LAST_GRANULE : FR := ⟨29, 29⟩
def F.LK_PTR_LAST_ADDR : FR := ⟨28, 0⟩
def R.LK_PTR_UNIT : Nat := 0x03000304
def F.LK_PTR_UNIT_UNIT : FR := ⟨4, 0⟩
def R.LK_ADMIT_MAIN : Nat := 0x03000400
def R.LK_ADMIT_HR : Nat := 0x03000408
def R.LK_BE_DROP : Nat := 0x03000410
def R.LK_PUSHOUT : Nat := 0x03000418
def R.LK_GRAN_ALLOC : Nat := 0x03000420
def R.LK_GRAN_DENY : Nat := 0x03000428
def R.LK_PTR_BAD : Nat := 0x03000430
def R.LK_ABORT_FREED : Nat := 0x03000438

/-! Registers of spec/06_scheduling_shaping.md. -/

def R.GCL_ENTRY (p i j : Nat) : Nat := 0x10020000 + 0x1000000 * p + 0x200 * i + 0x4 * j
def F.GCL_ENTRY_GATES : FR := ⟨23, 16⟩
def F.GCL_ENTRY_INTERVAL : FR := ⟨15, 0⟩
def R.GCL_CTRL (p i : Nat) : Nat := 0x10030000 + 0x1000000 * p + 0x20 * i
def F.GCL_CTRL_GO : FR := ⟨31, 31⟩
def F.GCL_CTRL_CANCEL : FR := ⟨30, 30⟩
def F.GCL_CTRL_LEN : FR := ⟨22, 16⟩
def F.GCL_CTRL_CYCLE_BEATS : FR := ⟨12, 0⟩
def R.GCL_STAT (p i : Nat) : Nat := 0x10030004 + 0x1000000 * p + 0x20 * i
def F.GCL_STAT_CANCEL_LATE : FR := ⟨10, 10⟩
def F.GCL_STAT_GO_REFUSED : FR := ⟨9, 9⟩
def F.GCL_STAT_WR_REFUSED : FR := ⟨8, 8⟩
def F.GCL_STAT_PENDING : FR := ⟨1, 1⟩
def F.GCL_STAT_OPER_BANK : FR := ⟨0, 0⟩
def R.GCL_BASE_LO (p i : Nat) : Nat := 0x10030008 + 0x1000000 * p + 0x20 * i
def R.GCL_BASE_HI (p i : Nat) : Nat := 0x1003000C + 0x1000000 * p + 0x20 * i
def R.GCL_OPER_LO (p i : Nat) : Nat := 0x10030010 + 0x1000000 * p + 0x20 * i
def R.GCL_OPER_HI (p i : Nat) : Nat := 0x10030014 + 0x1000000 * p + 0x20 * i
def R.GCL_OPER_CFG (p i : Nat) : Nat := 0x10030018 + 0x1000000 * p + 0x20 * i
def F.GCL_OPER_CFG_LEN : FR := ⟨22, 16⟩
def F.GCL_OPER_CFG_CYCLE_BEATS : FR := ⟨12, 0⟩
def R.EG_WEIGHT_A (p : Nat) : Nat := 0x10000500 + 0x1000000 * p
def F.EG_WEIGHT_A_W4 : FR := ⟨31, 24⟩
def F.EG_WEIGHT_A_W3 : FR := ⟨23, 16⟩
def F.EG_WEIGHT_A_W2 : FR := ⟨15, 8⟩
def F.EG_WEIGHT_A_W1 : FR := ⟨7, 0⟩
def R.EG_WEIGHT_B (p : Nat) : Nat := 0x10000504 + 0x1000000 * p
def F.EG_WEIGHT_B_W6 : FR := ⟨15, 8⟩
def F.EG_WEIGHT_B_W5 : FR := ⟨7, 0⟩
def R.EG_LAUNCH (p : Nat) : Nat := 0x10000508 + 0x1000000 * p
def F.EG_LAUNCH_LATE_DROP : FR := ⟨31, 31⟩
def F.EG_LAUNCH_LAUNCH_MAX : FR := ⟨13, 0⟩
def R.EG_LATE_TOL (p : Nat) : Nat := 0x1000050C + 0x1000000 * p
def F.EG_LATE_TOL_LATE_TOL : FR := ⟨23, 0⟩
def R.EG_GUARD (p : Nat) : Nat := 0x10000510 + 0x1000000 * p
def F.EG_GUARD_GUARD : FR := ⟨13, 0⟩
def R.EG_LAUNCH_STAT (p : Nat) : Nat := 0x10000514 + 0x1000000 * p
def F.EG_LAUNCH_STAT_HELD : FR := ⟨13, 0⟩
def R.SH_CFG (p i : Nat) : Nat := 0x10010000 + 0x1000000 * p + 0x8 * i
def F.SH_CFG_EN : FR := ⟨31, 31⟩
def F.SH_CFG_BURST : FR := ⟨23, 16⟩
def F.SH_CFG_RATE : FR := ⟨15, 0⟩
def R.SH_LEVEL (p i : Nat) : Nat := 0x10010004 + 0x1000000 * p + 0x8 * i
def F.SH_LEVEL_LEVEL : FR := ⟨31, 0⟩
def R.EG_SAMPLE_A (p i : Nat) : Nat := 0x10040000 + 0x1000000 * p + 0x8 * i
def F.EG_SAMPLE_A_DEPTH_MAX : FR := ⟨31, 16⟩
def F.EG_SAMPLE_A_DEPTH_END : FR := ⟨15, 0⟩
def R.EG_SAMPLE_B (p i : Nat) : Nat := 0x10040004 + 0x1000000 * p + 0x8 * i
def F.EG_SAMPLE_B_XOFF_SEEN : FR := ⟨31, 31⟩
def F.EG_SAMPLE_B_GATE_SEEN : FR := ⟨30, 30⟩
def F.EG_SAMPLE_B_SHAPED_SEEN : FR := ⟨29, 29⟩
def F.EG_SAMPLE_B_DELAY_MAX : FR := ⟨23, 0⟩
def R.EG_LAUNCHED (p : Nat) : Nat := 0x100004C0 + 0x1000000 * p
def R.EG_LAUNCH_LATE (p : Nat) : Nat := 0x100004C8 + 0x1000000 * p
def R.EG_LAUNCH_DROP (p : Nat) : Nat := 0x100004D0 + 0x1000000 * p
def R.EG_LAUNCH_LIMIT (p : Nat) : Nat := 0x100004D8 + 0x1000000 * p
def R.EG_GATE_DEFER (p : Nat) : Nat := 0x100004E0 + 0x1000000 * p
def R.EG_GCL_SWAP (p : Nat) : Nat := 0x100004E8 + 0x1000000 * p
def R.EG_SHAPED (p : Nat) : Nat := 0x100004F0 + 0x1000000 * p

/-! Registers of spec/07_collectives.md. -/

def R.CE_DEFAULTS : Nat := 0x04000100
def F.CE_DEFAULTS_LAUNCH_US : FR := ⟨31, 16⟩
def F.CE_DEFAULTS_CHUNK_US : FR := ⟨15, 0⟩
def R.CE_ABORT : Nat := 0x04000104
def F.CE_ABORT_GO : FR := ⟨31, 31⟩
def F.CE_ABORT_BUSY : FR := ⟨30, 30⟩
def F.CE_ABORT_REFUSED : FR := ⟨29, 29⟩
def F.CE_ABORT_PARTITION : FR := ⟨11, 0⟩
def R.CE_STAT : Nat := 0x04000108
def F.CE_STAT_CTX_OPEN : FR := ⟨16, 0⟩
def R.CE_STAT2 : Nat := 0x0400010C
def F.CE_STAT2_LAUNCH_OPEN : FR := ⟨12, 0⟩
def R.CE_TW_INDEX : Nat := 0x04000200
def F.CE_TW_INDEX_INDEX : FR := ⟨17, 0⟩
def R.CE_TW_CMD : Nat := 0x04000204
def F.CE_TW_CMD_OP : FR := ⟨11, 8⟩
def F.CE_TW_CMD_TABLE : FR := ⟨3, 0⟩
def R.CE_TW_STAT : Nat := 0x04000208
def F.CE_TW_STAT_RESULT : FR := ⟨11, 8⟩
def F.CE_TW_STAT_OVERRUN : FR := ⟨1, 1⟩
def F.CE_TW_STAT_BUSY : FR := ⟨0, 0⟩
def R.CE_TW_DATA (i : Nat) : Nat := 0x04000240 + 0x4 * i
def R.CE_WATCH (i : Nat) : Nat := 0x04000400 + 0x4 * i
def F.CE_WATCH_VALID : FR := ⟨31, 31⟩
def F.CE_WATCH_GROUP : FR := ⟨11, 0⟩
def R.CE_W_CHUNKS (i : Nat) : Nat := 0x04000480 + 0x10 * i
def R.CE_W_SPREAD (i : Nat) : Nat := 0x04000488 + 0x10 * i
def R.CE_CONTRIB : Nat := 0x04000800
def R.CE_RESULTS : Nat := 0x04000808
def R.CE_NO_STREAM : Nat := 0x04000810
def R.CE_PART_MISMATCH : Nat := 0x04000818
def R.CE_DEFL_RCVD : Nat := 0x04000820
def R.CE_BAD_PORT : Nat := 0x04000828
def R.CE_BAD_SHAPE : Nat := 0x04000830
def R.CE_LATE : Nat := 0x04000838
def R.CE_EXCESS : Nat := 0x04000840
def R.CE_DEFLECT : Nat := 0x04000848
def R.CE_DEFL_CHUNKS : Nat := 0x04000850
def R.CE_TIMEOUT : Nat := 0x04000858
def R.CE_FLUSHED : Nat := 0x04000860
def R.CE_REC_EVICT : Nat := 0x04000868
def R.CE_LAUNCH_COMB : Nat := 0x04000870
def R.CE_LAUNCH_INC : Nat := 0x04000878
def R.CE_LAUNCH_NOSLOT : Nat := 0x04000880
def R.CE_ABORTS : Nat := 0x04000888
def R.CE_ABORT_DISCARD : Nat := 0x04000890

/-! Registers of spec/09_vat_programming.md. -/

def R.VB_SEQ_FAULT (b : Nat) : Nat := 0x20000100 + 0x1000000 * b
def F.VB_SEQ_FAULT_CAUSE : FR := ⟨31, 28⟩
def F.VB_SEQ_FAULT_SLOT : FR := ⟨27, 22⟩
def F.VB_SEQ_FAULT_LVAT : FR := ⟨10, 0⟩
def R.VB_SEQ_PC (b : Nat) : Nat := 0x20000104 + 0x1000000 * b
def F.VB_SEQ_PC_PC : FR := ⟨11, 0⟩
def R.VB_RCP_STAT (b : Nat) : Nat := 0x20000108 + 0x1000000 * b
def F.VB_RCP_STAT_LOADED : FR := ⟨31, 31⟩
def F.VB_RCP_STAT_COUNT : FR := ⟨7, 0⟩
def R.VB_RCP_SVN (b : Nat) : Nat := 0x2000010C + 0x1000000 * b
def F.VB_RCP_SVN_SVN : FR := ⟨31, 0⟩
def R.VB_MSG_CTRL (b : Nat) : Nat := 0x20000110 + 0x1000000 * b
def F.VB_MSG_CTRL_MSG_LIFE_US : FR := ⟨15, 0⟩
def R.VB_RECIPE_FAULT (b : Nat) : Nat := 0x20000430 + 0x1000000 * b
def R.VB_MSG_SENT (b : Nat) : Nat := 0x20000438 + 0x1000000 * b
def R.VB_MSG_FULL (b : Nat) : Nat := 0x20000440 + 0x1000000 * b
def R.VB_MSG_DROP (b : Nat) : Nat := 0x20000448 + 0x1000000 * b

/-! Registers of spec/10_memory_semantics.md. -/

def R.MS_HOT_A (p : Nat) : Nat := 0x10000600 + 0x1000000 * p
def F.MS_HOT_A_VALID : FR := ⟨31, 31⟩
def F.MS_HOT_A_PORT_CODE : FR := ⟨25, 16⟩
def F.MS_HOT_A_DEPTH : FR := ⟨15, 0⟩
def R.MS_HOT_B (p : Nat) : Nat := 0x10000604 + 0x1000000 * p
def F.MS_HOT_B_MCAST : FR := ⟨18, 18⟩
def F.MS_HOT_B_DEST : FR := ⟨17, 0⟩
def R.MS_CTRL (p : Nat) : Nat := 0x10000608 + 0x1000000 * p
def F.MS_CTRL_HOT_MIN : FR := ⟨15, 0⟩
def R.MS_REQ (p : Nat) : Nat := 0x10000580 + 0x1000000 * p
def R.MS_MCAST_REQ (p : Nat) : Nat := 0x10000588 + 0x1000000 * p
def R.MS_RESP (p : Nat) : Nat := 0x10000590 + 0x1000000 * p
def R.MS_NO_TARGET (p : Nat) : Nat := 0x10000598 + 0x1000000 * p
def R.MS_HOT_BEATS (p : Nat) : Nat := 0x100005A0 + 0x1000000 * p

/-! Registers of spec/11_optical_links.md. -/

def R.YZ_CTRL (i : Nat) : Nat := 0x05000010 + 0x100 * i
def F.YZ_CTRL_EN : FR := ⟨31, 31⟩
def F.YZ_CTRL_AUTO_RETRAIN : FR := ⟨30, 30⟩
def F.YZ_CTRL_SPLIT : FR := ⟨29, 29⟩
def F.YZ_CTRL_NARROW_OK : FR := ⟨28, 28⟩
def F.YZ_CTRL_FEAT_MAX : FR := ⟨23, 20⟩
def R.YZ_STAT (i : Nat) : Nat := 0x05000014 + 0x100 * i
def F.YZ_STAT_STATE : FR := ⟨31, 28⟩
def F.YZ_STAT_LANE_STATE : FR := ⟨27, 24⟩
def F.YZ_STAT_FEAT : FR := ⟨23, 20⟩
def F.YZ_STAT_DOWN_CAUSE : FR := ⟨19, 16⟩
def F.YZ_STAT_LEN_WARN : FR := ⟨9, 9⟩
def F.YZ_STAT_LANES_OK : FR := ⟨8, 0⟩
def R.YZ_STAT1 (i : Nat) : Nat := 0x05000028 + 0x100 * i
def F.YZ_STAT1_STATE : FR := ⟨31, 28⟩
def F.YZ_STAT1_LANE_STATE : FR := ⟨27, 24⟩
def F.YZ_STAT1_FEAT : FR := ⟨23, 20⟩
def F.YZ_STAT1_DOWN_CAUSE : FR := ⟨19, 16⟩
def F.YZ_STAT1_LEN_WARN : FR := ⟨9, 9⟩
def F.YZ_STAT1_LANES_OK : FR := ⟨8, 0⟩
def R.YZ_LANEMAP (i : Nat) : Nat := 0x05000018 + 0x100 * i
def R.YZ_NEIGH (i : Nat) : Nat := 0x0500001C + 0x100 * i
def F.YZ_NEIGH_VALID : FR := ⟨31, 31⟩
def F.YZ_NEIGH_NEIGH_PORT : FR := ⟨27, 18⟩
def F.YZ_NEIGH_NEIGH_CHIP : FR := ⟨17, 0⟩
def R.YZ_NEIGH1 (i : Nat) : Nat := 0x05000024 + 0x100 * i
def F.YZ_NEIGH1_VALID : FR := ⟨31, 31⟩
def F.YZ_NEIGH1_NEIGH_PORT : FR := ⟨27, 18⟩
def F.YZ_NEIGH1_NEIGH_CHIP : FR := ⟨17, 0⟩
def R.YZ_RTT (i : Nat) : Nat := 0x05000020 + 0x100 * i
def F.YZ_RTT_LEN_M : FR := ⟨31, 16⟩
def F.YZ_RTT_LOOP_NS : FR := ⟨15, 0⟩
def R.YZ_RTT1 (i : Nat) : Nat := 0x0500002C + 0x100 * i
def F.YZ_RTT1_LEN_M : FR := ⟨31, 16⟩
def F.YZ_RTT1_LOOP_NS : FR := ⟨15, 0⟩
def R.IND_PAIR (i : Nat) : Nat := 0x05040000 + 0x4 * i
def F.IND_PAIR_EN : FR := ⟨31, 31⟩
def F.IND_PAIR_ACTIVE : FR := ⟨30, 30⟩
def F.IND_PAIR_REFUSED : FR := ⟨29, 29⟩
def F.IND_PAIR_PORT_B : FR := ⟨17, 9⟩
def F.IND_PAIR_PORT_A : FR := ⟨8, 0⟩
def R.IND_STAT (i : Nat) : Nat := 0x05041000 + 0x40 * i
def F.IND_STAT_LOS_BA : FR := ⟨25, 17⟩
def F.IND_STAT_LOS_AB : FR := ⟨8, 0⟩
def R.YZ_SYM_CORR (i : Nat) : Nat := 0x05000040 + 0x100 * i
def R.YZ_CW_UNCORR (i : Nat) : Nat := 0x05000048 + 0x100 * i
def R.YZ_PARITY_FIX (i : Nat) : Nat := 0x05000050 + 0x100 * i
def R.YZ_ROW_LOST (i : Nat) : Nat := 0x05000058 + 0x100 * i
def R.YZ_LCS_BAD (i : Nat) : Nat := 0x05000060 + 0x100 * i
def R.YZ_FRAME_RESYNC (i : Nat) : Nat := 0x05000068 + 0x100 * i
def R.YZ_LINK_DOWN (i : Nat) : Nat := 0x05000070 + 0x100 * i
def R.YZ_TRAIN_FAIL (i : Nat) : Nat := 0x05000078 + 0x100 * i
def R.YZ_TX_TRUNC (i : Nat) : Nat := 0x05000080 + 0x100 * i
def R.IND_AB_CW (i : Nat) : Nat := 0x05041008 + 0x40 * i
def R.IND_AB_CORR (i : Nat) : Nat := 0x05041010 + 0x40 * i
def R.IND_AB_UNCORR (i : Nat) : Nat := 0x05041018 + 0x40 * i
def R.IND_BA_CW (i : Nat) : Nat := 0x05041020 + 0x40 * i
def R.IND_BA_CORR (i : Nat) : Nat := 0x05041028 + 0x40 * i
def R.IND_BA_UNCORR (i : Nat) : Nat := 0x05041030 + 0x40 * i

/-! Registers of spec/12_optical_health.md. -/

def R.OH_RING (i j : Nat) : Nat := 0x05080000 + 0x200 * i + 0x20 * j
def F.OH_RING_TX_STATE : FR := ⟨31, 28⟩
def F.OH_RING_RX_STATE : FR := ⟨27, 24⟩
def F.OH_RING_TX_ID : FR := ⟨23, 20⟩
def F.OH_RING_RX_ID : FR := ⟨19, 16⟩
def F.OH_RING_RELOCKS : FR := ⟨15, 12⟩
def F.OH_RING_RX_LOS : FR := ⟨0, 0⟩
def R.OH_MARGIN (i j : Nat) : Nat := 0x05080004 + 0x200 * i + 0x20 * j
def F.OH_MARGIN_MT : FR := ⟨23, 16⟩
def F.OH_MARGIN_MR : FR := ⟨15, 8⟩
def F.OH_MARGIN_ME : FR := ⟨7, 0⟩
def R.OH_POWER (i j : Nat) : Nat := 0x05080008 + 0x200 * i + 0x20 * j
def F.OH_POWER_TX_POWER : FR := ⟨31, 16⟩
def F.OH_POWER_RX_POWER : FR := ⟨15, 0⟩
def R.OH_PORT (i : Nat) : Nat := 0x05080180 + 0x200 * i
def F.OH_PORT_TX_LSTATE : FR := ⟨31, 28⟩
def F.OH_PORT_RX_LSTATE : FR := ⟨27, 24⟩
def F.OH_PORT_CMD_PENDING : FR := ⟨23, 23⟩
def F.OH_PORT_CAL_ACTIVE : FR := ⟨22, 22⟩
def F.OH_PORT_DEGRADED : FR := ⟨21, 21⟩
def F.OH_PORT_CAL_LANE : FR := ⟨20, 17⟩
def F.OH_PORT_VACATED : FR := ⟨8, 0⟩
def R.OH_SLOT_CTRL (i : Nat) : Nat := 0x050C0000 + 0x10 * i
def F.OH_SLOT_CTRL_EN : FR := ⟨0, 0⟩
def R.OH_SLOT_STAT (i : Nat) : Nat := 0x050C0004 + 0x10 * i
def F.OH_SLOT_STAT_PRESENT : FR := ⟨31, 31⟩
def F.OH_SLOT_STAT_READY : FR := ⟨30, 30⟩
def F.OH_SLOT_STAT_BIAS_LIMIT : FR := ⟨8, 0⟩
def R.OH_LINE (i : Nat) : Nat := 0x050C1000 + 0x4 * i
def F.OH_LINE_MARGIN : FR := ⟨23, 16⟩
def F.OH_LINE_LEVEL : FR := ⟨1, 0⟩
def R.OH_THRESH : Nat := 0x050D0000
def F.OH_THRESH_T1 : FR := ⟨23, 16⟩
def F.OH_THRESH_T2 : FR := ⟨15, 8⟩
def F.OH_THRESH_T3 : FR := ⟨7, 0⟩
def R.OH_LEVELS : Nat := 0x050D0004
def F.OH_LEVELS_RX_SENS : FR := ⟨31, 16⟩
def F.OH_LEVELS_TX_MIN : FR := ⟨15, 0⟩
def R.OH_LOCK : Nat := 0x050D0008
def F.OH_LOCK_MAX_RELOCK : FR := ⟨27, 24⟩
def F.OH_LOCK_MIS_STEP : FR := ⟨15, 0⟩
def R.OH_CAL : Nat := 0x050D000C
def F.OH_CAL_EN : FR := ⟨31, 31⟩
def F.OH_CAL_DWELL : FR := ⟨27, 16⟩
def F.OH_CAL_PERIOD_S : FR := ⟨15, 0⟩
def R.OH_SPARE : Nat := 0x050D0010
def F.OH_SPARE_RESTORE_EN : FR := ⟨31, 31⟩
def F.OH_SPARE_EFF_ROWS : FR := ⟨30, 24⟩
def F.OH_SPARE_ACK_WAIT_US : FR := ⟨23, 16⟩
def F.OH_SPARE_RESTORE_EVALS : FR := ⟨15, 8⟩
def F.OH_SPARE_BIAS_STEP : FR := ⟨7, 0⟩
def R.OH_SYMERR (i j : Nat) : Nat := 0x05080010 + 0x200 * i + 0x20 * j
def R.OH_MISLOCK (i j : Nat) : Nat := 0x05080018 + 0x200 * i + 0x20 * j
def R.OH_T1_REQ : Nat := 0x050D0400
def R.OH_T2_MOVE : Nat := 0x050D0408
def R.OH_T3_NARROW : Nat := 0x050D0410
def R.OH_LOSS_MOVE : Nat := 0x050D0418
def R.OH_RESTORE : Nat := 0x050D0420
def R.OH_REFUSED : Nat := 0x050D0428
def R.OH_ACK_TIMEOUT : Nat := 0x050D0430
def R.OH_CAL_DONE : Nat := 0x050D0438
def R.OH_CAL_SKIP : Nat := 0x050D0440
def R.OH_CAL_PART : Nat := 0x050D0448
def R.OH_OOS : Nat := 0x050D0450

/-! Registers of spec/13_time.md. -/

def R.TU_CTRL : Nat := 0x06000100
def F.TU_CTRL_STEP_EN : FR := ⟨31, 31⟩
def F.TU_CTRL_ANN_EN : FR := ⟨30, 30⟩
def F.TU_CTRL_SRC : FR := ⟨1, 0⟩
def R.TU_STAT : Nat := 0x06000104
def F.TU_STAT_STATE : FR := ⟨31, 29⟩
def F.TU_STAT_REF_LOST : FR := ⟨28, 28⟩
def F.TU_STAT_ON_SECONDARY : FR := ⟨27, 27⟩
def F.TU_STAT_TIME_SET : FR := ⟨26, 26⟩
def F.TU_STAT_DISTANCE : FR := ⟨25, 18⟩
def F.TU_STAT_GM_CHIP : FR := ⟨17, 0⟩
def R.TU_PARENT : Nat := 0x06000108
def F.TU_PARENT_PRI_VALID : FR := ⟨31, 31⟩
def F.TU_PARENT_PRI_CODE : FR := ⟨25, 16⟩
def F.TU_PARENT_SEC_VALID : FR := ⟨15, 15⟩
def F.TU_PARENT_SEC_CODE : FR := ⟨9, 0⟩
def R.TU_SERVO : Nat := 0x0600010C
def F.TU_SERVO_KP_SHIFT : FR := ⟨31, 24⟩
def F.TU_SERVO_KI_SHIFT : FR := ⟨23, 16⟩
def F.TU_SERVO_STEP_NS : FR := ⟨15, 0⟩
def R.TU_LIMITS : Nat := 0x06000110
def F.TU_LIMITS_DELAY_MAX_NS : FR := ⟨31, 16⟩
def F.TU_LIMITS_RATE_MAX : FR := ⟨15, 8⟩
def F.TU_LIMITS_HOLD_BEATS : FR := ⟨7, 0⟩
def R.TU_RATE_LO : Nat := 0x06000114
def R.TU_RATE_HI : Nat := 0x06000118
def R.TU_THETA : Nat := 0x0600011C
def R.TU_NOW_SEC_LO : Nat := 0x06000120
def R.TU_NOW_SEC_HI : Nat := 0x06000124
def R.TU_NOW_NS : Nat := 0x06000128
def R.TU_NOW_FRAC : Nat := 0x0600012C
def R.TU_BEAT_LO : Nat := 0x06000130
def R.TU_BEAT_HI : Nat := 0x06000134
def R.TU_SET_SEC_LO : Nat := 0x06000140
def R.TU_SET_SEC_HI : Nat := 0x06000144
def R.TU_SET_NS : Nat := 0x06000148
def R.TU_SET_CMD : Nat := 0x0600014C
def F.TU_SET_CMD_SET_PENDING : FR := ⟨9, 9⟩
def F.TU_SET_CMD_SET_REFUSED : FR := ⟨8, 8⟩
def F.TU_SET_CMD_CMD : FR := ⟨1, 0⟩
def R.TU_PPS_NS : Nat := 0x06000150
def R.TU_PPS_FRAC : Nat := 0x06000154
def R.TU_LINK (i : Nat) : Nat := 0x06001000 + 0x4 * i
def F.TU_LINK_DELAY : FR := ⟨31, 16⟩
def F.TU_LINK_ASYM : FR := ⟨15, 0⟩
def R.PTP_CTRL : Nat := 0x06000200
def F.PTP_CTRL_EN : FR := ⟨31, 31⟩
def F.PTP_CTRL_ROLE : FR := ⟨30, 29⟩
def F.PTP_CTRL_TWO_STEP : FR := ⟨28, 28⟩
def F.PTP_CTRL_IPV6 : FR := ⟨27, 27⟩
def F.PTP_CTRL_DOMAIN : FR := ⟨23, 16⟩
def F.PTP_CTRL_PRIO1 : FR := ⟨15, 8⟩
def F.PTP_CTRL_PRIO2 : FR := ⟨7, 0⟩
def R.PTP_INTV : Nat := 0x06000204
def F.PTP_INTV_LOG_SYNC : FR := ⟨31, 24⟩
def F.PTP_INTV_LOG_DELAY_REQ : FR := ⟨23, 16⟩
def F.PTP_INTV_LOG_ANNOUNCE : FR := ⟨15, 8⟩
def F.PTP_INTV_ANN_TIMEOUT : FR := ⟨7, 0⟩
def R.PTP_STAT : Nat := 0x06000208
def F.PTP_STAT_STATE : FR := ⟨3, 0⟩
def R.TPO_CTRL (i : Nat) : Nat := 0x06000300 + 0x20 * i
def F.TPO_CTRL_GO : FR := ⟨31, 31⟩
def F.TPO_CTRL_CANCEL : FR := ⟨30, 30⟩
def F.TPO_CTRL_GO_REFUSED : FR := ⟨10, 10⟩
def F.TPO_CTRL_ARMED : FR := ⟨9, 9⟩
def F.TPO_CTRL_POL : FR := ⟨1, 1⟩
def F.TPO_CTRL_MODE : FR := ⟨0, 0⟩
def R.TPO_START_SEC (i : Nat) : Nat := 0x06000304 + 0x20 * i
def R.TPO_START_NS (i : Nat) : Nat := 0x06000308 + 0x20 * i
def R.TPO_PERIOD_NS (i : Nat) : Nat := 0x0600030C + 0x20 * i
def R.TPO_WIDTH_NS (i : Nat) : Nat := 0x06000310 + 0x20 * i
def R.TU_MEAS : Nat := 0x06000400
def R.TU_MEAS_REJ : Nat := 0x06000408
def R.TU_STEP : Nat := 0x06000410
def R.TU_BEAT_CATCH : Nat := 0x06000418
def R.TU_HOLDOVER : Nat := 0x06000420
def R.TU_PARENT_SW : Nat := 0x06000428
def R.TU_ANN_RX : Nat := 0x06000430
def R.TPO_SKIP : Nat := 0x06000438

/-! Registers of spec/14_control_protocol.md. -/

def R.DEV_REV : Nat := 0x00000100
def F.DEV_REV_REV : FR := ⟨7, 0⟩
def R.UCP_CTRL : Nat := 0x00000200
def F.UCP_CTRL_IDLE_S : FR := ⟨31, 16⟩
def F.UCP_CTRL_VC0_EN : FR := ⟨2, 2⟩
def F.UCP_CTRL_UDP_EN : FR := ⟨1, 1⟩
def F.UCP_CTRL_ETH_EN : FR := ⟨0, 0⟩
def R.UCP_SESS (i : Nat) : Nat := 0x00000210 + 0x4 * i
def F.UCP_SESS_STATE : FR := ⟨31, 30⟩
def F.UCP_SESS_PRIV : FR := ⟨29, 28⟩
def F.UCP_SESS_TRANSPORT : FR := ⟨27, 26⟩
def F.UCP_SESS_CRED : FR := ⟨25, 22⟩
def F.UCP_SESS_OUTSTANDING : FR := ⟨6, 0⟩
def R.MP_CTRL : Nat := 0x08000100
def F.MP_CTRL_MODE : FR := ⟨0, 0⟩
def R.MP_MAC_HI : Nat := 0x08000104
def R.MP_MAC_LO : Nat := 0x08000108
def R.MP_IPV6 (i : Nat) : Nat := 0x08000110 + 0x4 * i
def R.MP_UDP : Nat := 0x08000120
def F.MP_UDP_UDP_PORT : FR := ⟨15, 0⟩
def R.UCP_FRAMES_RX : Nat := 0x00000400
def R.UCP_BAD_FRAME : Nat := 0x00000408
def R.UCP_TAG_FAIL : Nat := 0x00000410
def R.UCP_WRONG_EP : Nat := 0x00000418
def R.UCP_WINDOW_DROP : Nat := 0x00000420
def R.UCP_HELLO_FAIL : Nat := 0x00000428
def R.UCP_EVT_LOST : Nat := 0x00000430
def R.MP_RX_DISCARD : Nat := 0x00000438

/-! Registers of spec/15_faults_sparing.md. -/

def R.ER_STAT : Nat := 0x09000100
def F.ER_STAT_OVF : FR := ⟨31, 31⟩
def F.ER_STAT_FATAL : FR := ⟨30, 30⟩
def F.ER_STAT_UNACKED : FR := ⟨6, 0⟩
def R.ER_CTRL : Nat := 0x09000104
def F.ER_CTRL_ESC_THRESH : FR := ⟨15, 0⟩
def R.ER_NEXT : Nat := 0x09000108
def F.ER_NEXT_RSEQ : FR := ⟨31, 0⟩
def R.ER_ACK : Nat := 0x0900010C
def F.ER_ACK_SLOT : FR := ⟨5, 0⟩
def R.ER_FATAL_SRC : Nat := 0x09000110
def F.ER_FATAL_SRC_SOURCE : FR := ⟨31, 0⟩
def R.ER_REC (i j : Nat) : Nat := 0x09001000 + 0x40 * i + 0x4 * j
def R.HS_CTRL : Nat := 0x09000200
def F.HS_CTRL_QUAR_EN : FR := ⟨31, 31⟩
def F.HS_CTRL_QUAR_SCORE : FR := ⟨15, 0⟩
def R.HS_BUDGET : Nat := 0x09000204
def F.HS_BUDGET_VAT_BUDGET : FR := ⟨15, 8⟩
def F.HS_BUDGET_PORT_BUDGET : FR := ⟨7, 0⟩
def R.HS_RELEASE : Nat := 0x09000208
def F.HS_RELEASE_KIND : FR := ⟨31, 24⟩
def F.HS_RELEASE_NUMBER : FR := ⟨10, 0⟩
def R.SR_STAT : Nat := 0x09000300
def F.SR_STAT_EXHAUSTED : FR := ⟨31, 31⟩
def F.SR_STAT_USED : FR := ⟨9, 0⟩
def R.HS_PORT (i : Nat) : Nat := 0x09002000 + 0x4 * i
def F.HS_PORT_QUARANTINED : FR := ⟨31, 31⟩
def F.HS_PORT_WITHHELD : FR := ⟨30, 30⟩
def F.HS_PORT_SCORE : FR := ⟨15, 0⟩
def R.HS_VAT (i : Nat) : Nat := 0x09003000 + 0x4 * i
def F.HS_VAT_QUARANTINED : FR := ⟨31, 31⟩
def F.HS_VAT_WITHHELD : FR := ⟨30, 30⟩
def F.HS_VAT_SCORE : FR := ⟨15, 0⟩
def R.MT_ACT_A (i : Nat) : Nat := 0x09005000 + 0x8 * i
def F.MT_ACT_A_CODE : FR := ⟨31, 16⟩
def F.MT_ACT_A_AUTO : FR := ⟨15, 15⟩
def F.MT_ACT_A_STATE : FR := ⟨7, 0⟩
def R.MT_ACT_B (i : Nat) : Nat := 0x09005004 + 0x8 * i
def F.MT_ACT_B_HANDLE : FR := ⟨31, 0⟩
def R.VB_MAP (b i : Nat) : Nat := 0x20000200 + 0x1000000 * b + 0x4 * i
def F.VB_MAP_MAPPED : FR := ⟨31, 31⟩
def F.VB_MAP_DRAINING : FR := ⟨30, 30⟩
def F.VB_MAP_PVAT : FR := ⟨6, 0⟩
def R.ER_LOST : Nat := 0x09000400
def R.HS_QUAR_PORT : Nat := 0x09000408
def R.HS_QUAR_VAT : Nat := 0x09000410
def R.HS_WITHHELD : Nat := 0x09000418
def R.SR_REPAIRS : Nat := 0x09000420
def R.BR_WIRE_SPARED : Nat := 0x09000428
def R.MT_BUSY_MAINT : Nat := 0x09000430
def R.DF_DISCARD : Nat := 0x09000438

/-! Registers of spec/16_power_umber.md. -/

def R.PW_CTRL : Nat := 0x0B000100
def F.PW_CTRL_REQ : FR := ⟨0, 0⟩
def R.PW_STAT : Nat := 0x0B000104
def F.PW_STAT_STATE : FR := ⟨31, 30⟩
def F.PW_STAT_GRANT_PIN : FR := ⟨29, 29⟩
def F.PW_STAT_REQ_PIN : FR := ⟨28, 28⟩
def F.PW_STAT_WAKE_FAIL : FR := ⟨27, 27⟩
def F.PW_STAT_STEP : FR := ⟨5, 0⟩
def R.PW_GRANT_LO : Nat := 0x0B000108
def R.PW_GRANT_HI : Nat := 0x0B00010C
def R.PW_POWER : Nat := 0x0B000110
def F.PW_POWER_PKG_W : FR := ⟨31, 16⟩
def F.PW_POWER_DIE_W : FR := ⟨15, 0⟩
def R.PW_RAIL (i : Nat) : Nat := 0x0B000200 + 0x4 * i
def F.PW_RAIL_MV : FR := ⟨31, 16⟩
def F.PW_RAIL_CURRENT : FR := ⟨15, 0⟩
def R.TH_CTRL : Nat := 0x0B000300
def F.TH_CTRL_OE_WARN : FR := ⟨15, 8⟩
def F.TH_CTRL_DIE_WARN : FR := ⟨7, 0⟩
def R.TH_STAT : Nat := 0x0B000304
def F.TH_STAT_DIE_MAX : FR := ⟨31, 16⟩
def F.TH_STAT_OE_MAX : FR := ⟨15, 0⟩
def R.PW_UMBER_ENTRIES : Nat := 0x0B000400
def R.PW_WAKES : Nat := 0x0B000408
def R.PW_WAKE_FAIL : Nat := 0x0B000410
def R.TH_WARN_CNT : Nat := 0x0B000418
def R.PW_RAIL_WARN : Nat := 0x0B000420

/-! Registers of spec/17_boot_security.md. -/

def R.SB_STAT : Nat := 0x0C000100
def F.SB_STAT_LIFECYCLE : FR := ⟨31, 31⟩
def F.SB_STAT_TRIAL : FR := ⟨30, 30⟩
def F.SB_STAT_ACTIVE_SLOT : FR := ⟨29, 29⟩
def F.SB_STAT_BIST_DONE : FR := ⟨28, 28⟩
def F.SB_STAT_CERT_OK : FR := ⟨27, 27⟩
def F.SB_STAT_BOOT_CAUSE : FR := ⟨7, 0⟩
def R.SB_SVN : Nat := 0x0C000104
def F.SB_SVN_RCP_MIN : FR := ⟨22, 16⟩
def F.SB_SVN_FW_MIN : FR := ⟨6, 0⟩
def R.SB_KEYS : Nat := 0x0C000108
def F.SB_KEYS_RKEY_VALID : FR := ⟨15, 12⟩
def F.SB_KEYS_RKEY_REVOKED : FR := ⟨11, 8⟩
def F.SB_KEYS_FKEY_REVOKED : FR := ⟨3, 0⟩
def R.SB_RST : Nat := 0x0C000110
def F.SB_RST_MGMT : FR := ⟨1, 1⟩
def F.SB_RST_DATAPATH : FR := ⟨0, 0⟩
def R.SB_KEYPROG (i : Nat) : Nat := 0x0C000200 + 0x4 * i
def R.SB_FUSECMD : Nat := 0x0C000240
def F.SB_FUSECMD_GO : FR := ⟨31, 31⟩
def F.SB_FUSECMD_REFUSED : FR := ⟨30, 30⟩
def F.SB_FUSECMD_BUSY : FR := ⟨29, 29⟩
def F.SB_FUSECMD_INDEX : FR := ⟨7, 4⟩
def F.SB_FUSECMD_OP : FR := ⟨3, 0⟩

/-! Registers of spec/18_telemetry.md. -/

def R.PM_CTRL_PL (p : Nat) : Nat := 0x10F00000 + 0x1000000 * p
def R.PM_SEL_PL (p i : Nat) : Nat := 0x10F00020 + 0x1000000 * p + 0x4 * i
def R.PM_CTRL_VB (b : Nat) : Nat := 0x20F00000 + 0x1000000 * b
def R.PM_SEL_VB (b i : Nat) : Nat := 0x20F00020 + 0x1000000 * b + 0x4 * i
def R.PM_CTRL_SC : Nat := 0x02F00000
def R.PM_SEL_SC (i : Nat) : Nat := 0x02F00020 + 0x4 * i
def R.PM_CTRL_LAKE : Nat := 0x03F00000
def R.PM_SEL_LAKE (i : Nat) : Nat := 0x03F00020 + 0x4 * i
def R.PM_CTRL_CE : Nat := 0x04F00000
def R.PM_SEL_CE (i : Nat) : Nat := 0x04F00020 + 0x4 * i
def R.PM_CTRL_DDR : Nat := 0x07F00000
def R.PM_SEL_DDR (i : Nat) : Nat := 0x07F00020 + 0x4 * i
def R.TM_CTRL : Nat := 0x0A000100
def F.TM_CTRL_FREEZE : FR := ⟨31, 31⟩
def F.TM_CTRL_DUMP_BEATS : FR := ⟨15, 0⟩
def R.TM_CONG : Nat := 0x0A000104
def F.TM_CONG_CONG_MIN_NS : FR := ⟨23, 0⟩
def R.TM_RING_CTRL (i : Nat) : Nat := 0x0A000200 + 0x10 * i
def F.TM_RING_CTRL_EN : FR := ⟨31, 31⟩
def F.TM_RING_CTRL_SIZE_MIB : FR := ⟨15, 0⟩
def R.TM_RING_STAT (i : Nat) : Nat := 0x0A000204 + 0x10 * i
def F.TM_RING_STAT_WRITTEN : FR := ⟨31, 0⟩
def R.TM_RING_GAP (i : Nat) : Nat := 0x0A000208 + 0x10 * i
def F.TM_RING_GAP_GAP : FR := ⟨31, 0⟩
def R.TM_RWIN : Nat := 0x0A000240
def F.TM_RWIN_RING : FR := ⟨31, 30⟩
def F.TM_RWIN_PAGE : FR := ⟨29, 0⟩
def R.TM_FR_CTRL : Nat := 0x0A000300
def F.TM_FR_CTRL_EN : FR := ⟨31, 31⟩
def F.TM_FR_CTRL_FROZEN : FR := ⟨30, 30⟩
def F.TM_FR_CTRL_DISCARDS : FR := ⟨29, 29⟩
def F.TM_FR_CTRL_TRIG_EN : FR := ⟨28, 28⟩
def F.TM_FR_CTRL_TRIG_SEV : FR := ⟨27, 24⟩
def F.TM_FR_CTRL_SAMPLE_N : FR := ⟨15, 0⟩
def R.TM_FR_POST : Nat := 0x0A000304
def R.TM_FR_SEQ : Nat := 0x0A000308
def F.TM_FR_SEQ_NEXT : FR := ⟨31, 0⟩
def R.FR_RECORDS : Nat := 0x0A000400
def R.FR_MISSED : Nat := 0x0A000408
def R.TM_REPORTS : Nat := 0x0A000410
def R.RX_PKT (i j : Nat) : Nat := 0x0A100000 + 0x400 * i + 0x20 * j
def R.RX_BYTE (i j : Nat) : Nat := 0x0A100008 + 0x400 * i + 0x20 * j
def R.TX_PKT (i j : Nat) : Nat := 0x0A100010 + 0x400 * i + 0x20 * j
def R.TX_BYTE (i j : Nat) : Nat := 0x0A100018 + 0x400 * i + 0x20 * j
def R.P_HDR_CRC (i : Nat) : Nat := 0x0A100100 + 0x400 * i
def R.P_MALFORMED (i : Nat) : Nat := 0x0A100108 + 0x400 * i
def R.P_HOP_LIMIT (i : Nat) : Nat := 0x0A100110 + 0x400 * i
def R.P_FOREIGN_PART (i : Nat) : Nat := 0x0A100118 + 0x400 * i
def R.P_STALE_EPOCH (i : Nat) : Nat := 0x0A100120 + 0x400 * i
def R.P_UNCLAIMED (i : Nat) : Nat := 0x0A100128 + 0x400 * i
def R.P_PAYLOAD_BAD (i : Nat) : Nat := 0x0A100130 + 0x400 * i
def R.P_PAYLOAD_STOMPED (i : Nat) : Nat := 0x0A100138 + 0x400 * i
def R.XOFF_RX_CYC (i j : Nat) : Nat := 0x0A100140 + 0x400 * i + 0x8 * j
def R.XOFF_TX_CYC (i j : Nat) : Nat := 0x0A100180 + 0x400 * i + 0x8 * j
def R.PM_CYCLES_PL (p : Nat) : Nat := 0x10F00008 + 0x1000000 * p
def R.PM_CNT_PL (p i : Nat) : Nat := 0x10F00040 + 0x1000000 * p + 0x8 * i
def R.PM_CYCLES_VB (b : Nat) : Nat := 0x20F00008 + 0x1000000 * b
def R.PM_CNT_VB (b i : Nat) : Nat := 0x20F00040 + 0x1000000 * b + 0x8 * i
def R.PM_CYCLES_SC : Nat := 0x02F00008
def R.PM_CNT_SC (i : Nat) : Nat := 0x02F00040 + 0x8 * i
def R.PM_CYCLES_LAKE : Nat := 0x03F00008
def R.PM_CNT_LAKE (i : Nat) : Nat := 0x03F00040 + 0x8 * i
def R.PM_CYCLES_CE : Nat := 0x04F00008
def R.PM_CNT_CE (i : Nat) : Nat := 0x04F00040 + 0x8 * i
def R.PM_CYCLES_DDR : Nat := 0x07F00008
def R.PM_CNT_DDR (i : Nat) : Nat := 0x07F00040 + 0x8 * i

/-! Registers of spec/19_lpddr6.md. -/

def R.DD_CHSTAT (i : Nat) : Nat := 0x07000010 + 0x1000 * i
def F.DD_CHSTAT_STATE : FR := ⟨31, 30⟩
def F.DD_CHSTAT_TRAIN_FAIL : FR := ⟨29, 29⟩
def F.DD_CHSTAT_HOSTED : FR := ⟨15, 0⟩
def R.DD_CTRL : Nat := 0x07100000
def F.DD_CTRL_SCRUB_H : FR := ⟨15, 8⟩
def F.DD_CTRL_SPEED : FR := ⟨1, 0⟩
def R.DD_STAT : Nat := 0x07100004
def F.DD_STAT_SPARE_FREE : FR := ⟨6, 0⟩
def R.DD_REMAP (i j : Nat) : Nat := 0x07101000 + 0x40 * i + 0x4 * j
def F.DD_REMAP_UNMAPPED : FR := ⟨31, 31⟩
def F.DD_REMAP_CH : FR := ⟨13, 8⟩
def F.DD_REMAP_SEG : FR := ⟨3, 0⟩
def R.DD_CORR : Nat := 0x07100400
def R.DD_UNCORR : Nat := 0x07100408
def R.DD_SCRUB_FIX : Nat := 0x07100410
def R.DD_SEG_MOVED : Nat := 0x07100418

def F.QREQ : FR := ⟨0, 0⟩
def F.QACK : FR := ⟨0, 0⟩
def F.DRAINING : FR := ⟨1, 1⟩
def F.QFORCED : FR := ⟨2, 2⟩
def F.PM_SEL_EN : FR := ⟨31, 31⟩
def F.PM_SEL_QUAL : FR := ⟨27, 16⟩
def F.PM_SEL_EVENT : FR := ⟨15, 0⟩
def F.word : FR := ⟨31, 0⟩

/-- SC_AGEv (04_switch_core.md). -/
def R.SC_AGE (v : Nat) : Nat := 0x02000100 + 4 * v
def F.SC_AGE_US : FR := ⟨15, 0⟩
/-- LK_PGMINv, LK_ITHv (05_lake.md). -/
def R.LK_PGMIN (v : Nat) : Nat := 0x03000120 + 4 * v
def F.LK_PGMIN : FR := ⟨15, 0⟩
def R.LK_ITH (v : Nat) : Nat := 0x03000140 + 4 * v
def F.LK_ITH_ALPHA : FR := ⟨31, 28⟩
def F.LK_ITH_STOP_MAX : FR := ⟨20, 0⟩

/-- Registers of the block device identity and management complex. -/
def famsDEV : List RegFam :=
  [ ⟨0x100, 1, 0x1000000, 1, 0x4, .devRev, [⟨7, 0, .ro, 0⟩]⟩ /- DEV_REV -/,
    ⟨0x200, 1, 0x1000000, 1, 0x4, .const, [⟨31, 16, .rw, 0x3c⟩, ⟨2, 2, .rw, 1⟩, ⟨1, 1, .rw, 0⟩, ⟨0, 0, .rw, 1⟩]⟩ /- UCP_CTRL -/,
    ⟨0x210, 1, 0x1000000, 8, 0x4, .const, [⟨31, 30, .ro, 0⟩, ⟨29, 28, .ro, 0⟩, ⟨27, 26, .ro, 0⟩, ⟨25, 22, .ro, 0⟩, ⟨6, 0, .ro, 0⟩]⟩ /- UCP_SESS -/ ]

/-- 64-bit counters of the block device identity and management complex. -/
def ctrsDEV : List CtrFam :=
  [ ⟨0x400, 1, 0x1000000, 1, 0x8⟩ /- UCP_FRAMES_RX -/,
    ⟨0x408, 1, 0x1000000, 1, 0x8⟩ /- UCP_BAD_FRAME -/,
    ⟨0x410, 1, 0x1000000, 1, 0x8⟩ /- UCP_TAG_FAIL -/,
    ⟨0x418, 1, 0x1000000, 1, 0x8⟩ /- UCP_WRONG_EP -/,
    ⟨0x420, 1, 0x1000000, 1, 0x8⟩ /- UCP_WINDOW_DROP -/,
    ⟨0x428, 1, 0x1000000, 1, 0x8⟩ /- UCP_HELLO_FAIL -/,
    ⟨0x430, 1, 0x1000000, 1, 0x8⟩ /- UCP_EVT_LOST -/,
    ⟨0x438, 1, 0x1000000, 1, 0x8⟩ /- MP_RX_DISCARD -/ ]

/-- Registers of the block commit unit. -/
def famsCOMMIT : List RegFam :=
  [ ⟨0x4000, 1, 0x1000000, 4, 0x4000, .const, [⟨25, 16, .rw, 0⟩, ⟨2, 2, .wo, 0⟩, ⟨1, 1, .wo, 0⟩, ⟨0, 0, .wo, 0⟩]⟩ /- MRD_CTRL -/,
    ⟨0x4004, 1, 0x1000000, 4, 0x4000, .const, [⟨31, 0, .rw, 0⟩]⟩ /- MRD_TARGET_LO -/,
    ⟨0x4008, 1, 0x1000000, 4, 0x4000, .const, [⟨15, 0, .rw, 0⟩]⟩ /- MRD_TARGET_HI -/,
    ⟨0x400C, 1, 0x1000000, 4, 0x4000, .const, [⟨8, 8, .w1c, 0⟩, ⟨7, 7, .w1c, 0⟩, ⟨6, 6, .w1c, 0⟩, ⟨5, 5, .w1c, 0⟩, ⟨4, 4, .w1c, 0⟩, ⟨3, 3, .w1c, 0⟩, ⟨1, 0, .ro, 0⟩]⟩ /- MRD_STATUS -/,
    ⟨0x4010, 1, 0x1000000, 4, 0x4000, .const, [⟨31, 0, .ro, 0⟩]⟩ /- MRD_APPLIED_BEAT_LO -/,
    ⟨0x4014, 1, 0x1000000, 4, 0x4000, .const, [⟨15, 0, .ro, 0⟩]⟩ /- MRD_APPLIED_BEAT_HI -/,
    ⟨0x4100, 4, 0x4000, 512, 0x10, .const, [⟨31, 0, .rw, 0⟩]⟩ /- MRD_ITEM_ADDR -/,
    ⟨0x4104, 4, 0x4000, 512, 0x10, .const, [⟨31, 0, .rw, 0⟩]⟩ /- MRD_ITEM_VALUE -/,
    ⟨0x4108, 4, 0x4000, 512, 0x10, .const, [⟨31, 0, .rw, 0⟩]⟩ /- MRD_ITEM_MASK -/ ]

/-- 64-bit counters of the block commit unit. -/
def ctrsCOMMIT : List CtrFam :=
  [  ]

/-- Registers of the block switch core. -/
def famsSC : List RegFam :=
  [ ⟨0x8000, 1, 0x1000000, 17, 0x100, .const, [⟨0, 0, .rw, 1⟩]⟩ /- QCTRL_XS -/,
    ⟨0x8004, 1, 0x1000000, 17, 0x100, .const, [⟨2, 2, .w1c, 0⟩, ⟨1, 1, .ro, 0⟩, ⟨0, 0, .ro, 1⟩]⟩ /- QSTAT_XS -/,
    ⟨0x100, 1, 0x1000000, 5, 0x4, .const, [⟨15, 0, .rwb, 0x1f4⟩]⟩ /- SC_AGE_LO -/,
    ⟨0x114, 1, 0x1000000, 2, 0x4, .const, [⟨15, 0, .rwb, 0x7d0⟩]⟩ /- SC_AGE_BE -/,
    ⟨0x11C, 1, 0x1000000, 1, 0x4, .const, [⟨15, 0, .rwb, 0x1f4⟩]⟩ /- SC_AGE_7 -/,
    ⟨0x200, 1, 0x1000000, 1, 0x4, .const, [⟨31, 31, .w1c, 0⟩, ⟨18, 0, .ro, 0⟩]⟩ /- SC_HR_POOL -/,
    ⟨0x204, 1, 0x1000000, 1, 0x4, .const, [⟨4, 0, .ro, 0x10⟩]⟩ /- SC_SLICE -/,
    ⟨0x300, 1, 0x1000000, 16, 0x4, .const, [⟨10, 0, .ro, 0⟩]⟩ /- SC_FENCE_USE -/,
    ⟨0x1000, 1, 0x1000000, 512, 0x4, .const, [⟨25, 18, .rws, 0x64⟩, ⟨17, 8, .ro, 0⟩, ⟨7, 0, .rws, 0x64⟩]⟩ /- SC_PORT_FC -/,
    ⟨0x2000, 1, 0x1000000, 1024, 0x4, .const, [⟨16, 16, .ro, 0⟩, ⟨15, 8, .ro, 0⟩, ⟨7, 0, .ro, 0⟩]⟩ /- SC_XOFF -/,
    ⟨0xF00000, 1, 0x1000000, 1, 0x4, .const, [⟨0, 0, .wo, 0⟩]⟩ /- PM_CTRL_SC -/,
    ⟨0xF00020, 1, 0x1000000, 8, 0x4, .const, [⟨31, 31, .rwb, 0⟩, ⟨27, 16, .rwb, 0⟩, ⟨15, 0, .rwb, 0⟩]⟩ /- PM_SEL_SC -/ ]

/-- 64-bit counters of the block switch core. -/
def ctrsSC : List CtrFam :=
  [ ⟨0x400, 1, 0x1000000, 1, 0x8⟩ /- SC_AGE_DROP -/,
    ⟨0x408, 1, 0x1000000, 1, 0x8⟩ /- SC_AGE_NACK -/,
    ⟨0x410, 1, 0x1000000, 1, 0x8⟩ /- SC_FENCE_HELD -/,
    ⟨0x418, 1, 0x1000000, 1, 0x8⟩ /- SC_FENCE_STALL -/,
    ⟨0x420, 1, 0x1000000, 1, 0x8⟩ /- SC_SF_PACKETS -/,
    ⟨0x428, 1, 0x1000000, 1, 0x8⟩ /- SC_SLICE_CORR -/,
    ⟨0x430, 1, 0x1000000, 1, 0x8⟩ /- SC_SLICE_UNCORR -/,
    ⟨0x438, 1, 0x1000000, 1, 0x8⟩ /- SC_HR_STOP -/,
    ⟨0xF00008, 1, 0x1000000, 1, 0x8⟩ /- PM_CYCLES_SC -/,
    ⟨0xF00040, 1, 0x1000000, 8, 0x8⟩ /- PM_CNT_SC -/ ]

/-- Registers of the block Lake. -/
def famsLAKE : List RegFam :=
  [ ⟨0x0, 1, 0x1000000, 1, 0x4, .const, [⟨0, 0, .rw, 1⟩]⟩ /- QCTRL_LAKE -/,
    ⟨0x4, 1, 0x1000000, 1, 0x4, .const, [⟨2, 2, .w1c, 0⟩, ⟨1, 1, .ro, 0⟩, ⟨0, 0, .ro, 1⟩]⟩ /- QSTAT_LAKE -/,
    ⟨0x100, 1, 0x1000000, 1, 0x4, .const, [⟨31, 31, .ro, 0⟩, ⟨20, 0, .ro, 0xe0000⟩]⟩ /- LK_POOL -/,
    ⟨0x104, 1, 0x1000000, 1, 0x4, .const, [⟨20, 0, .ro, 0x3c000⟩]⟩ /- LK_RESV -/,
    ⟨0x108, 1, 0x1000000, 1, 0x4, .const, [⟨20, 0, .rw, 0x10000⟩]⟩ /- LK_WARN -/,
    ⟨0x120, 1, 0x1000000, 5, 0x4, .const, [⟨15, 0, .rwb, 0x200⟩]⟩ /- LK_PGMIN_LO -/,
    ⟨0x134, 1, 0x1000000, 2, 0x4, .const, [⟨15, 0, .rwb, 0x80⟩]⟩ /- LK_PGMIN_BE -/,
    ⟨0x13C, 1, 0x1000000, 1, 0x4, .const, [⟨15, 0, .rwb, 0x200⟩]⟩ /- LK_PGMIN_7 -/,
    ⟨0x140, 1, 0x1000000, 5, 0x4, .const, [⟨31, 28, .rwb, 2⟩, ⟨20, 0, .rwb, 0x10000⟩]⟩ /- LK_ITH_LO -/,
    ⟨0x154, 1, 0x1000000, 2, 0x4, .const, [⟨31, 28, .rwb, 1⟩, ⟨20, 0, .rwb, 0x10000⟩]⟩ /- LK_ITH_BE -/,
    ⟨0x15C, 1, 0x1000000, 1, 0x4, .const, [⟨31, 28, .rwb, 2⟩, ⟨20, 0, .rwb, 0x10000⟩]⟩ /- LK_ITH_7 -/,
    ⟨0x160, 1, 0x1000000, 8, 0x4, .const, [⟨15, 0, .rwb, 0x42⟩]⟩ /- LK_IRES -/ ] ++
  [ ⟨0x180, 1, 0x1000000, 8, 0x4, .const, [⟨31, 16, .rwb, 0x4000⟩, ⟨15, 0, .rwb, 0x400⟩]⟩ /- LK_ETH -/,
    ⟨0x1A0, 1, 0x1000000, 1, 0x4, .const, [⟨8, 8, .rw, 1⟩, ⟨2, 0, .rw, 4⟩]⟩ /- LK_PUSH -/,
    ⟨0x1A4, 1, 0x1000000, 1, 0x4, .const, [⟨31, 24, .rwb, 2⟩, ⟨23, 16, .rwb, 2⟩, ⟨15, 8, .rwb, 2⟩, ⟨7, 0, .rwb, 2⟩]⟩ /- LK_CLASSMIN -/,
    ⟨0x1A8, 1, 0x1000000, 1, 0x4, .const, [⟨15, 0, .rwb, 0x800⟩]⟩ /- LK_VBRES -/,
    ⟨0x200, 1, 0x1000000, 16, 0x8, .const, [⟨31, 31, .rwb, 0⟩, ⟨11, 0, .rwb, 0⟩]⟩ /- LK_PART_A -/,
    ⟨0x204, 1, 0x1000000, 16, 0x8, .const, [⟨31, 24, .rwb, 0⟩, ⟨20, 0, .rwb, 0⟩]⟩ /- LK_PART_B -/,
    ⟨0x300, 1, 0x1000000, 1, 0x4, .const, [⟨31, 30, .ro, 0⟩, ⟨29, 29, .ro, 0⟩, ⟨28, 0, .ro, 0⟩]⟩ /- LK_PTR_LAST -/,
    ⟨0x304, 1, 0x1000000, 1, 0x4, .const, [⟨4, 0, .ro, 0⟩]⟩ /- LK_PTR_UNIT -/,
    ⟨0xF00000, 1, 0x1000000, 1, 0x4, .const, [⟨0, 0, .wo, 0⟩]⟩ /- PM_CTRL_LAKE -/,
    ⟨0xF00020, 1, 0x1000000, 8, 0x4, .const, [⟨31, 31, .rwb, 0⟩, ⟨27, 16, .rwb, 0⟩, ⟨15, 0, .rwb, 0⟩]⟩ /- PM_SEL_LAKE -/ ]

/-- 64-bit counters of the block Lake. -/
def ctrsLAKE : List CtrFam :=
  [ ⟨0x400, 1, 0x1000000, 1, 0x8⟩ /- LK_ADMIT_MAIN -/,
    ⟨0x408, 1, 0x1000000, 1, 0x8⟩ /- LK_ADMIT_HR -/,
    ⟨0x410, 1, 0x1000000, 1, 0x8⟩ /- LK_BE_DROP -/,
    ⟨0x418, 1, 0x1000000, 1, 0x8⟩ /- LK_PUSHOUT -/,
    ⟨0x420, 1, 0x1000000, 1, 0x8⟩ /- LK_GRAN_ALLOC -/,
    ⟨0x428, 1, 0x1000000, 1, 0x8⟩ /- LK_GRAN_DENY -/,
    ⟨0x430, 1, 0x1000000, 1, 0x8⟩ /- LK_PTR_BAD -/,
    ⟨0x438, 1, 0x1000000, 1, 0x8⟩ /- LK_ABORT_FREED -/,
    ⟨0xF00008, 1, 0x1000000, 1, 0x8⟩ /- PM_CYCLES_LAKE -/,
    ⟨0xF00040, 1, 0x1000000, 8, 0x8⟩ /- PM_CNT_LAKE -/ ]

/-- Registers of the block collective engine. -/
def famsCE : List RegFam :=
  [ ⟨0x100, 1, 0x1000000, 1, 0x4, .const, [⟨31, 16, .rwb, 0x7d0⟩, ⟨15, 0, .rwb, 0xc8⟩]⟩ /- CE_DEFAULTS -/,
    ⟨0x104, 1, 0x1000000, 1, 0x4, .const, [⟨31, 31, .wo, 0⟩, ⟨30, 30, .ro, 0⟩, ⟨29, 29, .w1c, 0⟩, ⟨11, 0, .rw, 0⟩]⟩ /- CE_ABORT -/,
    ⟨0x108, 1, 0x1000000, 1, 0x4, .const, [⟨16, 0, .ro, 0⟩]⟩ /- CE_STAT -/,
    ⟨0x10C, 1, 0x1000000, 1, 0x4, .const, [⟨12, 0, .ro, 0⟩]⟩ /- CE_STAT2 -/,
    ⟨0x200, 1, 0x1000000, 1, 0x4, .const, [⟨17, 0, .rw, 0⟩]⟩ /- CE_TW_INDEX -/,
    ⟨0x204, 1, 0x1000000, 1, 0x4, .const, [⟨11, 8, .wo, 0⟩, ⟨3, 0, .wo, 0⟩]⟩ /- CE_TW_CMD -/,
    ⟨0x208, 1, 0x1000000, 1, 0x4, .const, [⟨11, 8, .ro, 0⟩, ⟨1, 1, .w1c, 0⟩, ⟨0, 0, .ro, 0⟩]⟩ /- CE_TW_STAT -/,
    ⟨0x240, 1, 0x1000000, 80, 0x4, .const, [⟨31, 0, .rw, 0⟩]⟩ /- CE_TW_DATA -/,
    ⟨0x400, 1, 0x1000000, 16, 0x4, .const, [⟨31, 31, .rwb, 0⟩, ⟨11, 0, .rwb, 0⟩]⟩ /- CE_WATCH -/,
    ⟨0xF00000, 1, 0x1000000, 1, 0x4, .const, [⟨0, 0, .wo, 0⟩]⟩ /- PM_CTRL_CE -/,
    ⟨0xF00020, 1, 0x1000000, 8, 0x4, .const, [⟨31, 31, .rwb, 0⟩, ⟨27, 16, .rwb, 0⟩, ⟨15, 0, .rwb, 0⟩]⟩ /- PM_SEL_CE -/ ]

/-- 64-bit counters of the block collective engine. -/
def ctrsCE : List CtrFam :=
  [ ⟨0x480, 1, 0x1000000, 16, 0x10⟩ /- CE_W_CHUNKS -/,
    ⟨0x488, 1, 0x1000000, 16, 0x10⟩ /- CE_W_SPREAD -/,
    ⟨0x800, 1, 0x1000000, 1, 0x8⟩ /- CE_CONTRIB -/,
    ⟨0x808, 1, 0x1000000, 1, 0x8⟩ /- CE_RESULTS -/,
    ⟨0x810, 1, 0x1000000, 1, 0x8⟩ /- CE_NO_STREAM -/,
    ⟨0x818, 1, 0x1000000, 1, 0x8⟩ /- CE_PART_MISMATCH -/,
    ⟨0x820, 1, 0x1000000, 1, 0x8⟩ /- CE_DEFL_RCVD -/,
    ⟨0x828, 1, 0x1000000, 1, 0x8⟩ /- CE_BAD_PORT -/,
    ⟨0x830, 1, 0x1000000, 1, 0x8⟩ /- CE_BAD_SHAPE -/,
    ⟨0x838, 1, 0x1000000, 1, 0x8⟩ /- CE_LATE -/,
    ⟨0x840, 1, 0x1000000, 1, 0x8⟩ /- CE_EXCESS -/,
    ⟨0x848, 1, 0x1000000, 1, 0x8⟩ /- CE_DEFLECT -/,
    ⟨0x850, 1, 0x1000000, 1, 0x8⟩ /- CE_DEFL_CHUNKS -/,
    ⟨0x858, 1, 0x1000000, 1, 0x8⟩ /- CE_TIMEOUT -/,
    ⟨0x860, 1, 0x1000000, 1, 0x8⟩ /- CE_FLUSHED -/,
    ⟨0x868, 1, 0x1000000, 1, 0x8⟩ /- CE_REC_EVICT -/ ] ++
  [ ⟨0x870, 1, 0x1000000, 1, 0x8⟩ /- CE_LAUNCH_COMB -/,
    ⟨0x878, 1, 0x1000000, 1, 0x8⟩ /- CE_LAUNCH_INC -/,
    ⟨0x880, 1, 0x1000000, 1, 0x8⟩ /- CE_LAUNCH_NOSLOT -/,
    ⟨0x888, 1, 0x1000000, 1, 0x8⟩ /- CE_ABORTS -/,
    ⟨0x890, 1, 0x1000000, 1, 0x8⟩ /- CE_ABORT_DISCARD -/,
    ⟨0xF00008, 1, 0x1000000, 1, 0x8⟩ /- PM_CYCLES_CE -/,
    ⟨0xF00040, 1, 0x1000000, 8, 0x8⟩ /- PM_CNT_CE -/ ]

/-- Registers of the block link block. -/
def famsLINK : List RegFam :=
  [ ⟨0x0, 1, 0x1000000, 512, 0x100, .const, [⟨0, 0, .rw, 1⟩]⟩ /- QCTRL_PORT -/,
    ⟨0x4, 1, 0x1000000, 512, 0x100, .const, [⟨2, 2, .w1c, 0⟩, ⟨1, 1, .ro, 0⟩, ⟨0, 0, .ro, 1⟩]⟩ /- QSTAT_PORT -/,
    ⟨0xE0000, 1, 0x1000000, 32, 0x100, .const, [⟨0, 0, .rw, 1⟩]⟩ /- QCTRL_OE -/,
    ⟨0xE0004, 1, 0x1000000, 32, 0x100, .const, [⟨2, 2, .w1c, 0⟩, ⟨1, 1, .ro, 0⟩, ⟨0, 0, .ro, 1⟩]⟩ /- QSTAT_OE -/,
    ⟨0x10, 1, 0x1000000, 512, 0x100, .const, [⟨31, 31, .rw, 0⟩, ⟨30, 30, .rw, 1⟩, ⟨29, 29, .rws, 0⟩, ⟨28, 28, .rw, 1⟩, ⟨23, 20, .rws, 2⟩]⟩ /- YZ_CTRL -/,
    ⟨0x14, 1, 0x1000000, 512, 0x100, .const, [⟨31, 28, .ro, 0⟩, ⟨27, 24, .ro, 0⟩, ⟨23, 20, .ro, 0⟩, ⟨19, 16, .ro, 0⟩, ⟨9, 9, .ro, 0⟩, ⟨8, 0, .ro, 0⟩]⟩ /- YZ_STAT -/,
    ⟨0x28, 1, 0x1000000, 512, 0x100, .const, [⟨31, 28, .ro, 0⟩, ⟨27, 24, .ro, 0⟩, ⟨23, 20, .ro, 0⟩, ⟨19, 16, .ro, 0⟩, ⟨9, 9, .ro, 0⟩, ⟨8, 0, .ro, 0⟩]⟩ /- YZ_STAT1 -/,
    ⟨0x18, 1, 0x1000000, 512, 0x100, .const, [⟨31, 0, .ro, 0x76543210⟩]⟩ /- YZ_LANEMAP -/,
    ⟨0x1C, 1, 0x1000000, 512, 0x100, .const, [⟨31, 31, .ro, 0⟩, ⟨27, 18, .ro, 0⟩, ⟨17, 0, .ro, 0⟩]⟩ /- YZ_NEIGH -/,
    ⟨0x24, 1, 0x1000000, 512, 0x100, .const, [⟨31, 31, .ro, 0⟩, ⟨27, 18, .ro, 0⟩, ⟨17, 0, .ro, 0⟩]⟩ /- YZ_NEIGH1 -/,
    ⟨0x20, 1, 0x1000000, 512, 0x100, .const, [⟨31, 16, .ro, 0⟩, ⟨15, 0, .ro, 0⟩]⟩ /- YZ_RTT -/,
    ⟨0x2C, 1, 0x1000000, 512, 0x100, .const, [⟨31, 16, .ro, 0⟩, ⟨15, 0, .ro, 0⟩]⟩ /- YZ_RTT1 -/ ] ++
  [ ⟨0x40000, 1, 0x1000000, 256, 0x4, .const, [⟨31, 31, .rw, 0⟩, ⟨30, 30, .ro, 0⟩, ⟨29, 29, .w1c, 0⟩, ⟨17, 9, .rw, 0⟩, ⟨8, 0, .rw, 0⟩]⟩ /- IND_PAIR -/,
    ⟨0x41000, 1, 0x1000000, 256, 0x40, .const, [⟨25, 17, .ro, 0⟩, ⟨8, 0, .ro, 0⟩]⟩ /- IND_STAT -/,
    ⟨0x80000, 512, 0x200, 9, 0x20, .const, [⟨31, 28, .ro, 0⟩, ⟨27, 24, .ro, 0⟩, ⟨23, 20, .ro, 0xf⟩, ⟨19, 16, .ro, 0xf⟩, ⟨15, 12, .ro, 0⟩, ⟨0, 0, .ro, 0⟩]⟩ /- OH_RING -/,
    ⟨0x80004, 512, 0x200, 9, 0x20, .const, [⟨23, 16, .ro, 0⟩, ⟨15, 8, .ro, 0⟩, ⟨7, 0, .ro, 0⟩]⟩ /- OH_MARGIN -/,
    ⟨0x80008, 512, 0x200, 9, 0x20, .const, [⟨31, 16, .ro, 0x8000⟩, ⟨15, 0, .ro, 0x8000⟩]⟩ /- OH_POWER -/,
    ⟨0x80180, 1, 0x1000000, 512, 0x200, .const, [⟨31, 28, .ro, 0⟩, ⟨27, 24, .ro, 0⟩, ⟨23, 23, .ro, 0⟩, ⟨22, 22, .ro, 0⟩, ⟨21, 21, .ro, 0⟩, ⟨20, 17, .ro, 0⟩, ⟨8, 0, .ro, 0⟩]⟩ /- OH_PORT -/,
    ⟨0xC0000, 1, 0x1000000, 16, 0x10, .const, [⟨0, 0, .rw, 0⟩]⟩ /- OH_SLOT_CTRL -/,
    ⟨0xC0004, 1, 0x1000000, 16, 0x10, .const, [⟨31, 31, .ro, 0⟩, ⟨30, 30, .ro, 0⟩, ⟨8, 0, .ro, 0⟩]⟩ /- OH_SLOT_STAT -/,
    ⟨0xC1000, 1, 0x1000000, 288, 0x4, .const, [⟨23, 16, .ro, 0⟩, ⟨1, 0, .ro, 0⟩]⟩ /- OH_LINE -/,
    ⟨0xD0000, 1, 0x1000000, 1, 0x4, .const, [⟨23, 16, .rwb, 0x1e⟩, ⟨15, 8, .rwb, 0xf⟩, ⟨7, 0, .rwb, 5⟩]⟩ /- OH_THRESH -/,
    ⟨0xD0004, 1, 0x1000000, 1, 0x4, .const, [⟨31, 16, .rwb, 0xfc18⟩, ⟨15, 0, .rwb, 0xfe0c⟩]⟩ /- OH_LEVELS -/,
    ⟨0xD0008, 1, 0x1000000, 1, 0x4, .const, [⟨27, 24, .rw, 3⟩, ⟨15, 0, .rw, 0x200⟩]⟩ /- OH_LOCK -/ ] ++
  [ ⟨0xD000C, 1, 0x1000000, 1, 0x4, .const, [⟨31, 31, .rwb, 1⟩, ⟨27, 16, .rwb, 0x1e⟩, ⟨15, 0, .rwb, 0x258⟩]⟩ /- OH_CAL -/,
    ⟨0xD0010, 1, 0x1000000, 1, 0x4, .const, [⟨31, 31, .rwb, 1⟩, ⟨30, 24, .rwb, 0x20⟩, ⟨23, 16, .rwb, 0x14⟩, ⟨15, 8, .rwb, 0x10⟩, ⟨7, 0, .rwb, 0x14⟩]⟩ /- OH_SPARE -/ ]

/-- 64-bit counters of the block link block. -/
def ctrsLINK : List CtrFam :=
  [ ⟨0x40, 1, 0x1000000, 512, 0x100⟩ /- YZ_SYM_CORR -/,
    ⟨0x48, 1, 0x1000000, 512, 0x100⟩ /- YZ_CW_UNCORR -/,
    ⟨0x50, 1, 0x1000000, 512, 0x100⟩ /- YZ_PARITY_FIX -/,
    ⟨0x58, 1, 0x1000000, 512, 0x100⟩ /- YZ_ROW_LOST -/,
    ⟨0x60, 1, 0x1000000, 512, 0x100⟩ /- YZ_LCS_BAD -/,
    ⟨0x68, 1, 0x1000000, 512, 0x100⟩ /- YZ_FRAME_RESYNC -/,
    ⟨0x70, 1, 0x1000000, 512, 0x100⟩ /- YZ_LINK_DOWN -/,
    ⟨0x78, 1, 0x1000000, 512, 0x100⟩ /- YZ_TRAIN_FAIL -/,
    ⟨0x80, 1, 0x1000000, 512, 0x100⟩ /- YZ_TX_TRUNC -/,
    ⟨0x41008, 1, 0x1000000, 256, 0x40⟩ /- IND_AB_CW -/,
    ⟨0x41010, 1, 0x1000000, 256, 0x40⟩ /- IND_AB_CORR -/,
    ⟨0x41018, 1, 0x1000000, 256, 0x40⟩ /- IND_AB_UNCORR -/,
    ⟨0x41020, 1, 0x1000000, 256, 0x40⟩ /- IND_BA_CW -/,
    ⟨0x41028, 1, 0x1000000, 256, 0x40⟩ /- IND_BA_CORR -/,
    ⟨0x41030, 1, 0x1000000, 256, 0x40⟩ /- IND_BA_UNCORR -/,
    ⟨0x80010, 512, 0x200, 9, 0x20⟩ /- OH_SYMERR -/ ] ++
  [ ⟨0x80018, 512, 0x200, 9, 0x20⟩ /- OH_MISLOCK -/,
    ⟨0xD0400, 1, 0x1000000, 1, 0x8⟩ /- OH_T1_REQ -/,
    ⟨0xD0408, 1, 0x1000000, 1, 0x8⟩ /- OH_T2_MOVE -/,
    ⟨0xD0410, 1, 0x1000000, 1, 0x8⟩ /- OH_T3_NARROW -/,
    ⟨0xD0418, 1, 0x1000000, 1, 0x8⟩ /- OH_LOSS_MOVE -/,
    ⟨0xD0420, 1, 0x1000000, 1, 0x8⟩ /- OH_RESTORE -/,
    ⟨0xD0428, 1, 0x1000000, 1, 0x8⟩ /- OH_REFUSED -/,
    ⟨0xD0430, 1, 0x1000000, 1, 0x8⟩ /- OH_ACK_TIMEOUT -/,
    ⟨0xD0438, 1, 0x1000000, 1, 0x8⟩ /- OH_CAL_DONE -/,
    ⟨0xD0440, 1, 0x1000000, 1, 0x8⟩ /- OH_CAL_SKIP -/,
    ⟨0xD0448, 1, 0x1000000, 1, 0x8⟩ /- OH_CAL_PART -/,
    ⟨0xD0450, 1, 0x1000000, 1, 0x8⟩ /- OH_OOS -/ ]

/-- Registers of the block time unit. -/
def famsTU : List RegFam :=
  [ ⟨0x0, 1, 0x1000000, 1, 0x4, .const, [⟨0, 0, .rw, 1⟩]⟩ /- QCTRL_TU -/,
    ⟨0x4, 1, 0x1000000, 1, 0x4, .const, [⟨2, 2, .w1c, 0⟩, ⟨1, 1, .ro, 0⟩, ⟨0, 0, .ro, 1⟩]⟩ /- QSTAT_TU -/,
    ⟨0x100, 1, 0x1000000, 1, 0x4, .const, [⟨31, 31, .rwb, 1⟩, ⟨30, 30, .rwb, 1⟩, ⟨1, 0, .rwb, 0⟩]⟩ /- TU_CTRL -/,
    ⟨0x104, 1, 0x1000000, 1, 0x4, .const, [⟨31, 29, .ro, 0⟩, ⟨28, 28, .ro, 0⟩, ⟨27, 27, .ro, 0⟩, ⟨26, 26, .ro, 0⟩, ⟨25, 18, .ro, 0⟩, ⟨17, 0, .ro, 0⟩]⟩ /- TU_STAT -/,
    ⟨0x108, 1, 0x1000000, 1, 0x4, .const, [⟨31, 31, .rwb, 0⟩, ⟨25, 16, .rwb, 0⟩, ⟨15, 15, .rwb, 0⟩, ⟨9, 0, .rwb, 0⟩]⟩ /- TU_PARENT -/,
    ⟨0x10C, 1, 0x1000000, 1, 0x4, .const, [⟨31, 24, .rwb, 6⟩, ⟨23, 16, .rwb, 0xc⟩, ⟨15, 0, .rwb, 0x3e8⟩]⟩ /- TU_SERVO -/,
    ⟨0x110, 1, 0x1000000, 1, 0x4, .const, [⟨31, 16, .rwb, 0xa28⟩, ⟨15, 8, .rwb, 0x64⟩, ⟨7, 0, .rwb, 0x10⟩]⟩ /- TU_LIMITS -/,
    ⟨0x114, 1, 0x1000000, 1, 0x4, .const, [⟨31, 0, .ro, 0⟩]⟩ /- TU_RATE_LO -/,
    ⟨0x118, 1, 0x1000000, 1, 0x4, .const, [⟨15, 0, .ro, 0⟩]⟩ /- TU_RATE_HI -/,
    ⟨0x11C, 1, 0x1000000, 1, 0x4, .const, [⟨31, 0, .ro, 0⟩]⟩ /- TU_THETA -/,
    ⟨0x120, 1, 0x1000000, 1, 0x4, .const, [⟨31, 0, .ro, 0⟩]⟩ /- TU_NOW_SEC_LO -/,
    ⟨0x124, 1, 0x1000000, 1, 0x4, .const, [⟨31, 0, .ro, 0⟩]⟩ /- TU_NOW_SEC_HI -/ ] ++
  [ ⟨0x128, 1, 0x1000000, 1, 0x4, .const, [⟨31, 0, .ro, 0⟩]⟩ /- TU_NOW_NS -/,
    ⟨0x12C, 1, 0x1000000, 1, 0x4, .const, [⟨15, 0, .ro, 0⟩]⟩ /- TU_NOW_FRAC -/,
    ⟨0x130, 1, 0x1000000, 1, 0x4, .const, [⟨31, 0, .ro, 0⟩]⟩ /- TU_BEAT_LO -/,
    ⟨0x134, 1, 0x1000000, 1, 0x4, .const, [⟨15, 0, .ro, 0⟩]⟩ /- TU_BEAT_HI -/,
    ⟨0x140, 1, 0x1000000, 1, 0x4, .const, [⟨31, 0, .rw, 0⟩]⟩ /- TU_SET_SEC_LO -/,
    ⟨0x144, 1, 0x1000000, 1, 0x4, .const, [⟨31, 0, .rw, 0⟩]⟩ /- TU_SET_SEC_HI -/,
    ⟨0x148, 1, 0x1000000, 1, 0x4, .const, [⟨31, 0, .rw, 0⟩]⟩ /- TU_SET_NS -/,
    ⟨0x14C, 1, 0x1000000, 1, 0x4, .const, [⟨9, 9, .ro, 0⟩, ⟨8, 8, .w1c, 0⟩, ⟨1, 0, .wo, 0⟩]⟩ /- TU_SET_CMD -/,
    ⟨0x150, 1, 0x1000000, 1, 0x4, .const, [⟨31, 0, .ro, 0⟩]⟩ /- TU_PPS_NS -/,
    ⟨0x154, 1, 0x1000000, 1, 0x4, .const, [⟨15, 0, .ro, 0⟩]⟩ /- TU_PPS_FRAC -/,
    ⟨0x1000, 1, 0x1000000, 1024, 0x4, .const, [⟨31, 16, .ro, 0⟩, ⟨15, 0, .rwb, 0⟩]⟩ /- TU_LINK -/,
    ⟨0x200, 1, 0x1000000, 1, 0x4, .const, [⟨31, 31, .rw, 0⟩, ⟨30, 29, .rws, 0⟩, ⟨28, 28, .rws, 0⟩, ⟨27, 27, .rws, 0⟩, ⟨23, 16, .rws, 0⟩, ⟨15, 8, .rw, 0x80⟩, ⟨7, 0, .rw, 0x80⟩]⟩ /- PTP_CTRL -/ ] ++
  [ ⟨0x204, 1, 0x1000000, 1, 0x4, .const, [⟨31, 24, .rws, 0xfd⟩, ⟨23, 16, .rws, 0xfd⟩, ⟨15, 8, .rws, 1⟩, ⟨7, 0, .rws, 3⟩]⟩ /- PTP_INTV -/,
    ⟨0x208, 1, 0x1000000, 1, 0x4, .const, [⟨3, 0, .ro, 3⟩]⟩ /- PTP_STAT -/,
    ⟨0x300, 1, 0x1000000, 4, 0x20, .const, [⟨31, 31, .wo, 0⟩, ⟨30, 30, .wo, 0⟩, ⟨10, 10, .w1c, 0⟩, ⟨9, 9, .ro, 0⟩, ⟨1, 1, .rw, 0⟩, ⟨0, 0, .rw, 0⟩]⟩ /- TPO_CTRL -/,
    ⟨0x304, 1, 0x1000000, 4, 0x20, .const, [⟨31, 0, .rw, 0⟩]⟩ /- TPO_START_SEC -/,
    ⟨0x308, 1, 0x1000000, 4, 0x20, .const, [⟨31, 0, .rw, 0⟩]⟩ /- TPO_START_NS -/,
    ⟨0x30C, 1, 0x1000000, 4, 0x20, .const, [⟨31, 0, .rw, 0⟩]⟩ /- TPO_PERIOD_NS -/,
    ⟨0x310, 1, 0x1000000, 4, 0x20, .const, [⟨31, 0, .rw, 0x64⟩]⟩ /- TPO_WIDTH_NS -/ ]

/-- 64-bit counters of the block time unit. -/
def ctrsTU : List CtrFam :=
  [ ⟨0x400, 1, 0x1000000, 1, 0x8⟩ /- TU_MEAS -/,
    ⟨0x408, 1, 0x1000000, 1, 0x8⟩ /- TU_MEAS_REJ -/,
    ⟨0x410, 1, 0x1000000, 1, 0x8⟩ /- TU_STEP -/,
    ⟨0x418, 1, 0x1000000, 1, 0x8⟩ /- TU_BEAT_CATCH -/,
    ⟨0x420, 1, 0x1000000, 1, 0x8⟩ /- TU_HOLDOVER -/,
    ⟨0x428, 1, 0x1000000, 1, 0x8⟩ /- TU_PARENT_SW -/,
    ⟨0x430, 1, 0x1000000, 1, 0x8⟩ /- TU_ANN_RX -/,
    ⟨0x438, 1, 0x1000000, 1, 0x8⟩ /- TPO_SKIP -/ ]

/-- Registers of the block LPDDR6 controller. -/
def famsDDR : List RegFam :=
  [ ⟨0x0, 1, 0x1000000, 64, 0x1000, .const, [⟨0, 0, .rw, 1⟩]⟩ /- QCTRL_CH -/,
    ⟨0x4, 1, 0x1000000, 64, 0x1000, .const, [⟨2, 2, .w1c, 0⟩, ⟨1, 1, .ro, 0⟩, ⟨0, 0, .ro, 1⟩]⟩ /- QSTAT_CH -/,
    ⟨0xF00000, 1, 0x1000000, 1, 0x4, .const, [⟨0, 0, .wo, 0⟩]⟩ /- PM_CTRL_DDR -/,
    ⟨0xF00020, 1, 0x1000000, 8, 0x4, .const, [⟨31, 31, .rwb, 0⟩, ⟨27, 16, .rwb, 0⟩, ⟨15, 0, .rwb, 0⟩]⟩ /- PM_SEL_DDR -/,
    ⟨0x10, 1, 0x1000000, 64, 0x1000, .const, [⟨31, 30, .ro, 1⟩, ⟨29, 29, .ro, 0⟩, ⟨15, 0, .ro, 0x7fff⟩]⟩ /- DD_CHSTAT -/,
    ⟨0x100000, 1, 0x1000000, 1, 0x4, .const, [⟨15, 8, .rw, 0x18⟩, ⟨1, 0, .rws, 0⟩]⟩ /- DD_CTRL -/,
    ⟨0x100004, 1, 0x1000000, 1, 0x4, .const, [⟨6, 0, .ro, 0x40⟩]⟩ /- DD_STAT -/,
    ⟨0x101000, 64, 0x40, 15, 0x4, .ddRemap, [⟨31, 31, .ro, 0⟩, ⟨13, 8, .ro, 0⟩, ⟨3, 0, .ro, 0⟩]⟩ /- DD_REMAP -/ ]

/-- 64-bit counters of the block LPDDR6 controller. -/
def ctrsDDR : List CtrFam :=
  [ ⟨0x100400, 1, 0x1000000, 1, 0x8⟩ /- DD_CORR -/,
    ⟨0x100408, 1, 0x1000000, 1, 0x8⟩ /- DD_UNCORR -/,
    ⟨0x100410, 1, 0x1000000, 1, 0x8⟩ /- DD_SCRUB_FIX -/,
    ⟨0x100418, 1, 0x1000000, 1, 0x8⟩ /- DD_SEG_MOVED -/,
    ⟨0xF00008, 1, 0x1000000, 1, 0x8⟩ /- PM_CYCLES_DDR -/,
    ⟨0xF00040, 1, 0x1000000, 8, 0x8⟩ /- PM_CNT_DDR -/ ]

/-- Registers of the block management port. -/
def famsMP : List RegFam :=
  [ ⟨0x0, 1, 0x1000000, 1, 0x4, .const, [⟨0, 0, .rw, 1⟩]⟩ /- QCTRL_MP -/,
    ⟨0x4, 1, 0x1000000, 1, 0x4, .const, [⟨2, 2, .w1c, 0⟩, ⟨1, 1, .ro, 0⟩, ⟨0, 0, .ro, 1⟩]⟩ /- QSTAT_MP -/,
    ⟨0x100, 1, 0x1000000, 1, 0x4, .const, [⟨0, 0, .rws, 0⟩]⟩ /- MP_CTRL -/,
    ⟨0x104, 1, 0x1000000, 1, 0x4, .macHi, [⟨15, 0, .rws, 0⟩]⟩ /- MP_MAC_HI -/,
    ⟨0x108, 1, 0x1000000, 1, 0x4, .macLo, [⟨31, 0, .rws, 0⟩]⟩ /- MP_MAC_LO -/,
    ⟨0x110, 1, 0x1000000, 4, 0x4, .const, [⟨31, 0, .rws, 0⟩]⟩ /- MP_IPV6 -/,
    ⟨0x120, 1, 0x1000000, 1, 0x4, .const, [⟨15, 0, .rws, 0x4449⟩]⟩ /- MP_UDP -/ ]

/-- 64-bit counters of the block management port. -/
def ctrsMP : List CtrFam :=
  [  ]

/-- Registers of the block error records and maintenance. -/
def famsER : List RegFam :=
  [ ⟨0x100, 1, 0x1000000, 1, 0x4, .const, [⟨31, 31, .w1c, 0⟩, ⟨30, 30, .ro, 0⟩, ⟨6, 0, .ro, 0⟩]⟩ /- ER_STAT -/,
    ⟨0x104, 1, 0x1000000, 1, 0x4, .const, [⟨15, 0, .rw, 0x10⟩]⟩ /- ER_CTRL -/,
    ⟨0x108, 1, 0x1000000, 1, 0x4, .const, [⟨31, 0, .ro, 1⟩]⟩ /- ER_NEXT -/,
    ⟨0x10C, 1, 0x1000000, 1, 0x4, .const, [⟨5, 0, .wo, 0⟩]⟩ /- ER_ACK -/,
    ⟨0x110, 1, 0x1000000, 1, 0x4, .const, [⟨31, 0, .ro, 0⟩]⟩ /- ER_FATAL_SRC -/,
    ⟨0x1000, 64, 0x40, 16, 0x4, .const, [⟨31, 0, .ro, 0⟩]⟩ /- ER_REC -/,
    ⟨0x200, 1, 0x1000000, 1, 0x4, .const, [⟨31, 31, .rw, 1⟩, ⟨15, 0, .rw, 0x400⟩]⟩ /- HS_CTRL -/,
    ⟨0x204, 1, 0x1000000, 1, 0x4, .const, [⟨15, 8, .rw, 8⟩, ⟨7, 0, .rw, 4⟩]⟩ /- HS_BUDGET -/,
    ⟨0x208, 1, 0x1000000, 1, 0x4, .const, [⟨31, 24, .wo, 0⟩, ⟨10, 0, .wo, 0⟩]⟩ /- HS_RELEASE -/,
    ⟨0x300, 1, 0x1000000, 1, 0x4, .const, [⟨31, 31, .ro, 0⟩, ⟨9, 0, .ro, 0⟩]⟩ /- SR_STAT -/,
    ⟨0x2000, 1, 0x1000000, 512, 0x4, .const, [⟨31, 31, .ro, 0⟩, ⟨30, 30, .ro, 0⟩, ⟨15, 0, .ro, 0⟩]⟩ /- HS_PORT -/,
    ⟨0x3000, 1, 0x1000000, 1600, 0x4, .const, [⟨31, 31, .ro, 0⟩, ⟨30, 30, .ro, 0⟩, ⟨15, 0, .ro, 0⟩]⟩ /- HS_VAT -/ ] ++
  [ ⟨0x5000, 1, 0x1000000, 16, 0x8, .const, [⟨31, 16, .ro, 0⟩, ⟨15, 15, .ro, 0⟩, ⟨7, 0, .ro, 0⟩]⟩ /- MT_ACT_A -/,
    ⟨0x5004, 1, 0x1000000, 16, 0x8, .const, [⟨31, 0, .ro, 0⟩]⟩ /- MT_ACT_B -/ ]

/-- 64-bit counters of the block error records and maintenance. -/
def ctrsER : List CtrFam :=
  [ ⟨0x400, 1, 0x1000000, 1, 0x8⟩ /- ER_LOST -/,
    ⟨0x408, 1, 0x1000000, 1, 0x8⟩ /- HS_QUAR_PORT -/,
    ⟨0x410, 1, 0x1000000, 1, 0x8⟩ /- HS_QUAR_VAT -/,
    ⟨0x418, 1, 0x1000000, 1, 0x8⟩ /- HS_WITHHELD -/,
    ⟨0x420, 1, 0x1000000, 1, 0x8⟩ /- SR_REPAIRS -/,
    ⟨0x428, 1, 0x1000000, 1, 0x8⟩ /- BR_WIRE_SPARED -/,
    ⟨0x430, 1, 0x1000000, 1, 0x8⟩ /- MT_BUSY_MAINT -/,
    ⟨0x438, 1, 0x1000000, 1, 0x8⟩ /- DF_DISCARD -/ ]

/-- Registers of the block telemetry. -/
def famsTM : List RegFam :=
  [ ⟨0x100, 1, 0x1000000, 1, 0x4, .const, [⟨31, 31, .rwb, 0⟩, ⟨15, 0, .rwb, 0x1e8⟩]⟩ /- TM_CTRL -/,
    ⟨0x104, 1, 0x1000000, 1, 0x4, .const, [⟨23, 0, .rw, 0x1000⟩]⟩ /- TM_CONG -/,
    ⟨0x200, 1, 0x1000000, 3, 0x10, .const, [⟨31, 31, .rw, 0⟩, ⟨15, 0, .rws, 0⟩]⟩ /- TM_RING_CTRL -/,
    ⟨0x204, 1, 0x1000000, 3, 0x10, .const, [⟨31, 0, .ro, 0⟩]⟩ /- TM_RING_STAT -/,
    ⟨0x208, 1, 0x1000000, 3, 0x10, .const, [⟨31, 0, .ro, 0⟩]⟩ /- TM_RING_GAP -/,
    ⟨0x240, 1, 0x1000000, 1, 0x4, .const, [⟨31, 30, .rw, 0⟩, ⟨29, 0, .rw, 0⟩]⟩ /- TM_RWIN -/,
    ⟨0x300, 1, 0x1000000, 1, 0x4, .const, [⟨31, 31, .rw, 1⟩, ⟨30, 30, .w1c, 0⟩, ⟨29, 29, .rw, 1⟩, ⟨28, 28, .rw, 0⟩, ⟨27, 24, .rw, 5⟩, ⟨15, 0, .rw, 0⟩]⟩ /- TM_FR_CTRL -/,
    ⟨0x304, 1, 0x1000000, 1, 0x4, .const, [⟨31, 0, .rw, 0x1000⟩]⟩ /- TM_FR_POST -/,
    ⟨0x308, 1, 0x1000000, 1, 0x4, .const, [⟨31, 0, .ro, 0⟩]⟩ /- TM_FR_SEQ -/ ]

/-- 64-bit counters of the block telemetry. -/
def ctrsTM : List CtrFam :=
  [ ⟨0x400, 1, 0x1000000, 1, 0x8⟩ /- FR_RECORDS -/,
    ⟨0x408, 1, 0x1000000, 1, 0x8⟩ /- FR_MISSED -/,
    ⟨0x410, 1, 0x1000000, 1, 0x8⟩ /- TM_REPORTS -/,
    ⟨0x100000, 1024, 0x400, 8, 0x20⟩ /- RX_PKT -/,
    ⟨0x100008, 1024, 0x400, 8, 0x20⟩ /- RX_BYTE -/,
    ⟨0x100010, 1024, 0x400, 8, 0x20⟩ /- TX_PKT -/,
    ⟨0x100018, 1024, 0x400, 8, 0x20⟩ /- TX_BYTE -/,
    ⟨0x100100, 1, 0x1000000, 1024, 0x400⟩ /- P_HDR_CRC -/,
    ⟨0x100108, 1, 0x1000000, 1024, 0x400⟩ /- P_MALFORMED -/,
    ⟨0x100110, 1, 0x1000000, 1024, 0x400⟩ /- P_HOP_LIMIT -/,
    ⟨0x100118, 1, 0x1000000, 1024, 0x400⟩ /- P_FOREIGN_PART -/,
    ⟨0x100120, 1, 0x1000000, 1024, 0x400⟩ /- P_STALE_EPOCH -/,
    ⟨0x100128, 1, 0x1000000, 1024, 0x400⟩ /- P_UNCLAIMED -/,
    ⟨0x100130, 1, 0x1000000, 1024, 0x400⟩ /- P_PAYLOAD_BAD -/,
    ⟨0x100138, 1, 0x1000000, 1024, 0x400⟩ /- P_PAYLOAD_STOMPED -/,
    ⟨0x100140, 1024, 0x400, 8, 0x8⟩ /- XOFF_RX_CYC -/ ] ++
  [ ⟨0x100180, 1024, 0x400, 8, 0x8⟩ /- XOFF_TX_CYC -/ ]

/-- Registers of the block power and thermal. -/
def famsPW : List RegFam :=
  [ ⟨0x100, 1, 0x1000000, 1, 0x4, .const, [⟨0, 0, .rw, 1⟩]⟩ /- PW_CTRL -/,
    ⟨0x104, 1, 0x1000000, 1, 0x4, .const, [⟨31, 30, .ro, 2⟩, ⟨29, 29, .ro, 0⟩, ⟨28, 28, .ro, 1⟩, ⟨27, 27, .w1c, 0⟩, ⟨5, 0, .ro, 0⟩]⟩ /- PW_STAT -/,
    ⟨0x108, 1, 0x1000000, 1, 0x4, .const, [⟨31, 0, .ro, 0⟩]⟩ /- PW_GRANT_LO -/,
    ⟨0x10C, 1, 0x1000000, 1, 0x4, .const, [⟨31, 0, .ro, 0⟩]⟩ /- PW_GRANT_HI -/,
    ⟨0x110, 1, 0x1000000, 1, 0x4, .const, [⟨31, 16, .ro, 0⟩, ⟨15, 0, .ro, 0⟩]⟩ /- PW_POWER -/,
    ⟨0x200, 1, 0x1000000, 8, 0x4, .const, [⟨31, 16, .ro, 0⟩, ⟨15, 0, .ro, 0⟩]⟩ /- PW_RAIL -/,
    ⟨0x300, 1, 0x1000000, 1, 0x4, .const, [⟨15, 8, .rw, 0x50⟩, ⟨7, 0, .rw, 0x64⟩]⟩ /- TH_CTRL -/,
    ⟨0x304, 1, 0x1000000, 1, 0x4, .const, [⟨31, 16, .ro, 0⟩, ⟨15, 0, .ro, 0⟩]⟩ /- TH_STAT -/ ]

/-- 64-bit counters of the block power and thermal. -/
def ctrsPW : List CtrFam :=
  [ ⟨0x400, 1, 0x1000000, 1, 0x8⟩ /- PW_UMBER_ENTRIES -/,
    ⟨0x408, 1, 0x1000000, 1, 0x8⟩ /- PW_WAKES -/,
    ⟨0x410, 1, 0x1000000, 1, 0x8⟩ /- PW_WAKE_FAIL -/,
    ⟨0x418, 1, 0x1000000, 1, 0x8⟩ /- TH_WARN_CNT -/,
    ⟨0x420, 1, 0x1000000, 1, 0x8⟩ /- PW_RAIL_WARN -/ ]

/-- Registers of the block security and boot. -/
def famsSB : List RegFam :=
  [ ⟨0x100, 1, 0x1000000, 1, 0x4, .const, [⟨31, 31, .ro, 0⟩, ⟨30, 30, .ro, 0⟩, ⟨29, 29, .ro, 0⟩, ⟨28, 28, .ro, 0⟩, ⟨27, 27, .ro, 0⟩, ⟨7, 0, .ro, 1⟩]⟩ /- SB_STAT -/,
    ⟨0x104, 1, 0x1000000, 1, 0x4, .const, [⟨22, 16, .ro, 0⟩, ⟨6, 0, .ro, 0⟩]⟩ /- SB_SVN -/,
    ⟨0x108, 1, 0x1000000, 1, 0x4, .const, [⟨15, 12, .ro, 0⟩, ⟨11, 8, .ro, 0⟩, ⟨3, 0, .ro, 0⟩]⟩ /- SB_KEYS -/,
    ⟨0x110, 1, 0x1000000, 1, 0x4, .const, [⟨1, 1, .wo, 0⟩, ⟨0, 0, .wo, 0⟩]⟩ /- SB_RST -/,
    ⟨0x200, 1, 0x1000000, 13, 0x4, .const, [⟨31, 0, .rw, 0⟩]⟩ /- SB_KEYPROG -/,
    ⟨0x240, 1, 0x1000000, 1, 0x4, .const, [⟨31, 31, .wo, 0⟩, ⟨30, 30, .w1c, 0⟩, ⟨29, 29, .ro, 0⟩, ⟨7, 4, .rw, 0⟩, ⟨3, 0, .rw, 0⟩]⟩ /- SB_FUSECMD -/ ]

/-- 64-bit counters of the block security and boot. -/
def ctrsSB : List CtrFam :=
  [  ]

/-- Registers of the block pipeline PLp. -/
def famsPL : List RegFam :=
  [ ⟨0x0, 1, 0x1000000, 1, 0x4, .const, [⟨0, 0, .rw, 1⟩]⟩ /- QCTRL_PL -/,
    ⟨0x4, 1, 0x1000000, 1, 0x4, .const, [⟨2, 2, .w1c, 0⟩, ⟨1, 1, .ro, 0⟩, ⟨0, 0, .ro, 1⟩]⟩ /- QSTAT_PL -/,
    ⟨0x100, 1, 0x1000000, 1, 0x4, .const, [⟨31, 31, .rws, 0⟩, ⟨17, 0, .rws, 0⟩]⟩ /- FP_IDENT -/,
    ⟨0x104, 1, 0x1000000, 1, 0x4, .const, [⟨19, 16, .rw, 8⟩]⟩ /- FP_CTRL -/,
    ⟨0x108, 1, 0x1000000, 1, 0x4, .const, [⟨31, 0, .rw, 0⟩]⟩ /- FP_MGMT_EN -/,
    ⟨0x1000, 1, 0x1000000, 1, 0x4, .const, [⟨16, 16, .wo, 0⟩, ⟨9, 9, .w1c, 0⟩, ⟨8, 8, .ro, 0⟩, ⟨1, 0, .rwb, 0⟩]⟩ /- FW_EPOCH -/,
    ⟨0x1004, 1, 0x1000000, 1, 0x4, .const, [⟨31, 0, .ro, 0⟩]⟩ /- FW_RETIRE_LO -/,
    ⟨0x1008, 1, 0x1000000, 1, 0x4, .const, [⟨15, 0, .ro, 0⟩]⟩ /- FW_RETIRE_HI -/,
    ⟨0x1020, 1, 0x1000000, 1, 0x4, .const, [⟨31, 16, .rw, 0x8bb⟩, ⟨2, 2, .rw, 1⟩, ⟨1, 1, .rw, 1⟩, ⟨0, 0, .rw, 1⟩]⟩ /- EM_CTRL -/,
    ⟨0x1024, 1, 0x1000000, 1, 0x4, .const, [⟨16, 0, .ro, 0⟩]⟩ /- EM_STAT -/,
    ⟨0x1028, 1, 0x1000000, 1, 0x4, .const, [⟨20, 0, .ro, 0⟩]⟩ /- EM_OVF_STAT -/,
    ⟨0x1100, 1, 0x1000000, 1, 0x4, .const, [⟨17, 0, .rw, 0⟩]⟩ /- TW_INDEX -/ ] ++
  [ ⟨0x1104, 1, 0x1000000, 1, 0x4, .const, [⟨11, 8, .wo, 0⟩, ⟨4, 4, .wo, 0⟩, ⟨3, 0, .wo, 0⟩]⟩ /- TW_CMD -/,
    ⟨0x1108, 1, 0x1000000, 1, 0x4, .const, [⟨11, 8, .ro, 0⟩, ⟨1, 1, .w1c, 0⟩, ⟨0, 0, .ro, 0⟩]⟩ /- TW_STAT -/,
    ⟨0x1140, 1, 0x1000000, 36, 0x4, .const, [⟨31, 0, .rw, 0⟩]⟩ /- TW_DATA -/,
    ⟨0x20000, 64, 0x200, 128, 0x4, .const, [⟨23, 16, .rw, 0xff⟩, ⟨15, 0, .rw, 0⟩]⟩ /- GCL_ENTRY -/,
    ⟨0x30000, 1, 0x1000000, 64, 0x20, .const, [⟨31, 31, .wo, 0⟩, ⟨30, 30, .wo, 0⟩, ⟨22, 16, .rw, 0⟩, ⟨12, 0, .rw, 1⟩]⟩ /- GCL_CTRL -/,
    ⟨0x30004, 1, 0x1000000, 64, 0x20, .const, [⟨10, 10, .w1c, 0⟩, ⟨9, 9, .w1c, 0⟩, ⟨8, 8, .w1c, 0⟩, ⟨1, 1, .ro, 0⟩, ⟨0, 0, .ro, 0⟩]⟩ /- GCL_STAT -/,
    ⟨0x30008, 1, 0x1000000, 64, 0x20, .const, [⟨31, 0, .rw, 0⟩]⟩ /- GCL_BASE_LO -/,
    ⟨0x3000C, 1, 0x1000000, 64, 0x20, .const, [⟨15, 0, .rw, 0⟩]⟩ /- GCL_BASE_HI -/,
    ⟨0x30010, 1, 0x1000000, 64, 0x20, .const, [⟨31, 0, .ro, 0⟩]⟩ /- GCL_OPER_LO -/,
    ⟨0x30014, 1, 0x1000000, 64, 0x20, .const, [⟨15, 0, .ro, 0⟩]⟩ /- GCL_OPER_HI -/,
    ⟨0x30018, 1, 0x1000000, 64, 0x20, .const, [⟨22, 16, .ro, 0⟩, ⟨12, 0, .ro, 1⟩]⟩ /- GCL_OPER_CFG -/,
    ⟨0x500, 1, 0x1000000, 1, 0x4, .const, [⟨31, 24, .rwb, 0x14⟩, ⟨23, 16, .rwb, 0x14⟩, ⟨15, 8, .rwb, 0x28⟩, ⟨7, 0, .rwb, 0x28⟩]⟩ /- EG_WEIGHT_A -/ ] ++
  [ ⟨0x504, 1, 0x1000000, 1, 0x4, .const, [⟨15, 8, .rwb, 0xa⟩, ⟨7, 0, .rwb, 0x1e⟩]⟩ /- EG_WEIGHT_B -/,
    ⟨0x508, 1, 0x1000000, 1, 0x4, .const, [⟨31, 31, .rw, 0⟩, ⟨13, 0, .rw, 0x2000⟩]⟩ /- EG_LAUNCH -/,
    ⟨0x50C, 1, 0x1000000, 1, 0x4, .const, [⟨23, 0, .rw, 0x1000⟩]⟩ /- EG_LATE_TOL -/,
    ⟨0x510, 1, 0x1000000, 1, 0x4, .const, [⟨13, 0, .rwb, 0x100⟩]⟩ /- EG_GUARD -/,
    ⟨0x514, 1, 0x1000000, 1, 0x4, .const, [⟨13, 0, .ro, 0⟩]⟩ /- EG_LAUNCH_STAT -/,
    ⟨0x10000, 1, 0x1000000, 512, 0x8, .const, [⟨31, 31, .rwb, 0⟩, ⟨23, 16, .rwb, 0x10⟩, ⟨15, 0, .rwb, 0xf00⟩]⟩ /- SH_CFG -/,
    ⟨0x10004, 1, 0x1000000, 512, 0x8, .const, [⟨31, 0, .ro, 0⟩]⟩ /- SH_LEVEL -/,
    ⟨0x40000, 1, 0x1000000, 512, 0x8, .const, [⟨31, 16, .ro, 0⟩, ⟨15, 0, .ro, 0⟩]⟩ /- EG_SAMPLE_A -/,
    ⟨0x40004, 1, 0x1000000, 512, 0x8, .const, [⟨31, 31, .ro, 0⟩, ⟨30, 30, .ro, 0⟩, ⟨29, 29, .ro, 0⟩, ⟨23, 0, .ro, 0⟩]⟩ /- EG_SAMPLE_B -/,
    ⟨0x600, 1, 0x1000000, 1, 0x4, .const, [⟨31, 31, .ro, 0⟩, ⟨25, 16, .ro, 0⟩, ⟨15, 0, .ro, 0⟩]⟩ /- MS_HOT_A -/,
    ⟨0x604, 1, 0x1000000, 1, 0x4, .const, [⟨18, 18, .ro, 0⟩, ⟨17, 0, .ro, 0⟩]⟩ /- MS_HOT_B -/,
    ⟨0x608, 1, 0x1000000, 1, 0x4, .const, [⟨15, 0, .rwb, 0x400⟩]⟩ /- MS_CTRL -/ ] ++
  [ ⟨0xF00000, 1, 0x1000000, 1, 0x4, .const, [⟨0, 0, .wo, 0⟩]⟩ /- PM_CTRL_PL -/,
    ⟨0xF00020, 1, 0x1000000, 8, 0x4, .const, [⟨31, 31, .rwb, 0⟩, ⟨27, 16, .rwb, 0⟩, ⟨15, 0, .rwb, 0⟩]⟩ /- PM_SEL_PL -/ ]

/-- 64-bit counters of the block pipeline PLp. -/
def ctrsPL : List CtrFam :=
  [ ⟨0x400, 1, 0x1000000, 1, 0x8⟩ /- PL_HDR_CRC -/,
    ⟨0x408, 1, 0x1000000, 1, 0x8⟩ /- PL_MALFORMED -/,
    ⟨0x410, 1, 0x1000000, 1, 0x8⟩ /- PL_HOP_LIMIT -/,
    ⟨0x418, 1, 0x1000000, 1, 0x8⟩ /- PL_FOREIGN_PART -/,
    ⟨0x420, 1, 0x1000000, 1, 0x8⟩ /- PL_STALE_EPOCH -/,
    ⟨0x428, 1, 0x1000000, 1, 0x8⟩ /- PL_UNCLAIMED -/,
    ⟨0x430, 1, 0x1000000, 1, 0x8⟩ /- PL_PAYLOAD_BAD -/,
    ⟨0x438, 1, 0x1000000, 1, 0x8⟩ /- PL_PAYLOAD_STOMPED -/,
    ⟨0x440, 1, 0x1000000, 1, 0x8⟩ /- FW_NO_ROUTE -/,
    ⟨0x448, 1, 0x1000000, 1, 0x8⟩ /- FW_PORT_DOWN -/,
    ⟨0x450, 1, 0x1000000, 1, 0x8⟩ /- FW_PREV_ROUTED -/,
    ⟨0x458, 1, 0x1000000, 1, 0x8⟩ /- EM_HIT -/,
    ⟨0x460, 1, 0x1000000, 1, 0x8⟩ /- EM_MISS -/,
    ⟨0x468, 1, 0x1000000, 1, 0x8⟩ /- EM_FILTERED -/,
    ⟨0x470, 1, 0x1000000, 1, 0x8⟩ /- EM_OVF_SKIP -/,
    ⟨0x478, 1, 0x1000000, 1, 0x8⟩ /- EM_LEARN -/ ] ++
  [ ⟨0x480, 1, 0x1000000, 1, 0x8⟩ /- EM_MOVE -/,
    ⟨0x488, 1, 0x1000000, 1, 0x8⟩ /- EM_MOVE_BLOCKED -/,
    ⟨0x490, 1, 0x1000000, 1, 0x8⟩ /- EM_STATIC_CONFLICT -/,
    ⟨0x498, 1, 0x1000000, 1, 0x8⟩ /- EM_LEARN_DROP -/,
    ⟨0x4A0, 1, 0x1000000, 1, 0x8⟩ /- EM_AGED -/,
    ⟨0x4C0, 1, 0x1000000, 1, 0x8⟩ /- EG_LAUNCHED -/,
    ⟨0x4C8, 1, 0x1000000, 1, 0x8⟩ /- EG_LAUNCH_LATE -/,
    ⟨0x4D0, 1, 0x1000000, 1, 0x8⟩ /- EG_LAUNCH_DROP -/,
    ⟨0x4D8, 1, 0x1000000, 1, 0x8⟩ /- EG_LAUNCH_LIMIT -/,
    ⟨0x4E0, 1, 0x1000000, 1, 0x8⟩ /- EG_GATE_DEFER -/,
    ⟨0x4E8, 1, 0x1000000, 1, 0x8⟩ /- EG_GCL_SWAP -/,
    ⟨0x4F0, 1, 0x1000000, 1, 0x8⟩ /- EG_SHAPED -/,
    ⟨0x580, 1, 0x1000000, 1, 0x8⟩ /- MS_REQ -/,
    ⟨0x588, 1, 0x1000000, 1, 0x8⟩ /- MS_MCAST_REQ -/,
    ⟨0x590, 1, 0x1000000, 1, 0x8⟩ /- MS_RESP -/,
    ⟨0x598, 1, 0x1000000, 1, 0x8⟩ /- MS_NO_TARGET -/ ] ++
  [ ⟨0x5A0, 1, 0x1000000, 1, 0x8⟩ /- MS_HOT_BEATS -/,
    ⟨0xF00008, 1, 0x1000000, 1, 0x8⟩ /- PM_CYCLES_PL -/,
    ⟨0xF00040, 1, 0x1000000, 8, 0x8⟩ /- PM_CNT_PL -/ ]

/-- Registers of the block vat bank VBb. -/
def famsVB : List RegFam :=
  [ ⟨0x0, 1, 0x1000000, 1, 0x4, .const, [⟨0, 0, .rw, 1⟩]⟩ /- QCTRL_VB -/,
    ⟨0x4, 1, 0x1000000, 1, 0x4, .const, [⟨2, 2, .w1c, 0⟩, ⟨1, 1, .ro, 0⟩, ⟨0, 0, .ro, 1⟩]⟩ /- QSTAT_VB -/,
    ⟨0x100, 1, 0x1000000, 1, 0x4, .const, [⟨31, 28, .ro, 0⟩, ⟨27, 22, .ro, 0⟩, ⟨10, 0, .ro, 0⟩]⟩ /- VB_SEQ_FAULT -/,
    ⟨0x104, 1, 0x1000000, 1, 0x4, .const, [⟨11, 0, .ro, 0⟩]⟩ /- VB_SEQ_PC -/,
    ⟨0x108, 1, 0x1000000, 1, 0x4, .const, [⟨31, 31, .ro, 0⟩, ⟨7, 0, .ro, 0⟩]⟩ /- VB_RCP_STAT -/,
    ⟨0x10C, 1, 0x1000000, 1, 0x4, .const, [⟨31, 0, .ro, 0⟩]⟩ /- VB_RCP_SVN -/,
    ⟨0x110, 1, 0x1000000, 1, 0x4, .const, [⟨15, 0, .rwb, 0xc8⟩]⟩ /- VB_MSG_CTRL -/,
    ⟨0x200, 1, 0x1000000, 96, 0x4, .vbMap, [⟨31, 31, .ro, 1⟩, ⟨30, 30, .ro, 0⟩, ⟨6, 0, .ro, 0⟩]⟩ /- VB_MAP -/,
    ⟨0xF00000, 1, 0x1000000, 1, 0x4, .const, [⟨0, 0, .wo, 0⟩]⟩ /- PM_CTRL_VB -/,
    ⟨0xF00020, 1, 0x1000000, 8, 0x4, .const, [⟨31, 31, .rwb, 0⟩, ⟨27, 16, .rwb, 0⟩, ⟨15, 0, .rwb, 0⟩]⟩ /- PM_SEL_VB -/ ]

/-- 64-bit counters of the block vat bank VBb. -/
def ctrsVB : List CtrFam :=
  [ ⟨0x400, 1, 0x1000000, 1, 0x8⟩ /- VB_SAT_CHUNKS -/,
    ⟨0x408, 1, 0x1000000, 1, 0x8⟩ /- VB_AMX_CHUNKS -/,
    ⟨0x410, 1, 0x1000000, 1, 0x8⟩ /- VB_IN_SAT -/,
    ⟨0x418, 1, 0x1000000, 1, 0x8⟩ /- VB_OUT_OVF -/,
    ⟨0x420, 1, 0x1000000, 1, 0x8⟩ /- VB_FXR_CYCLES -/,
    ⟨0x428, 1, 0x1000000, 1, 0x8⟩ /- VB_FASTFLOAT -/,
    ⟨0x430, 1, 0x1000000, 1, 0x8⟩ /- VB_RECIPE_FAULT -/,
    ⟨0x438, 1, 0x1000000, 1, 0x8⟩ /- VB_MSG_SENT -/,
    ⟨0x440, 1, 0x1000000, 1, 0x8⟩ /- VB_MSG_FULL -/,
    ⟨0x448, 1, 0x1000000, 1, 0x8⟩ /- VB_MSG_DROP -/,
    ⟨0xF00008, 1, 0x1000000, 1, 0x8⟩ /- PM_CYCLES_VB -/,
    ⟨0xF00040, 1, 0x1000000, 8, 0x8⟩ /- PM_CNT_VB -/ ]

/-- The block of an address (R497): the register families and counters at its offset. -/
def blockOf (a : Nat) : Option (List RegFam × List CtrFam) :=
  let b := a / 0x1000000
  if 0x10 ≤ b ∧ b < 0x20 then some (famsPL, ctrsPL)
  else if 0x20 ≤ b ∧ b < 0x30 then some (famsVB, ctrsVB)
  else match b with
    | 0 => some (famsDEV, ctrsDEV)
    | 1 => some (famsCOMMIT, ctrsCOMMIT)
    | 2 => some (famsSC, ctrsSC)
    | 3 => some (famsLAKE, ctrsLAKE)
    | 4 => some (famsCE, ctrsCE)
    | 5 => some (famsLINK, ctrsLINK)
    | 6 => some (famsTU, ctrsTU)
    | 7 => some (famsDDR, ctrsDDR)
    | 8 => some (famsMP, ctrsMP)
    | 9 => some (famsER, ctrsER)
    | 10 => some (famsTM, ctrsTM)
    | 11 => some (famsPW, ctrsPW)
    | 12 => some (famsSB, ctrsSB)
    | _ => none

/-- True for the blocks that R497 lists as reserved. -/
def reservedBlock (a : Nat) : Bool := (blockOf a).isNone

/-- Whether an offset is a member of a family, and the two indices. -/
def famIndex (base n1 s1 n2 s2 off : Nat) : Option (Nat × Nat) :=
  if off < base then none
  else
    let d := off - base
    let i := d / s1
    let r := d % s1
    if i < n1 ∧ r % s2 = 0 ∧ r / s2 < n2 then some (i, r / s2) else none

/-- The first family holding an offset. -/
def findFam (off : Nat) : List RegFam → Option (RegFam × Nat × Nat)
  | [] => none
  | f :: fs =>
    match famIndex f.base f.n1 f.s1 f.n2 f.s2 off with
    | some (i, j) => some (f, i, j)
    | none => findFam off fs

/-- The register at an address, with its indices. -/
def regAt (a : Nat) : Option (RegFam × Nat × Nat) :=
  match blockOf a with
  | none => none
  | some (fs, _) => findFam (a % 0x1000000) fs

/-- The fields of the register at an address; none where no register is. -/
def fieldsAt (a : Nat) : List Fld :=
  match regAt a with
  | some (f, _, _) => f.flds
  | none => []

/-- Whether an address is the low register of a 64-bit counter (R94, R601). -/
def isCtrLow (a : Nat) : Bool :=
  match blockOf a with
  | none => false
  | some (_, cs) => cs.any fun c => (famIndex c.base c.n1 c.s1 c.n2 c.s2 (a % 0x1000000)).isSome

/-- The reset value of one field, by its family's kind. -/
def fldReset (k : RstKind) (i j : Nat) (f : Fld) : Nat :=
  match k with
  | .vbMap => if f.lo = 0 then j else f.rst
  | .ddRemap => if f.lo = 8 then i else if f.lo = 0 then j else f.rst
  | .devRev => Config.revision.toNat
  | .macHi => (Config.macAddress.extractLsb' 32 16).toNat
  | .macLo => (Config.macAddress.extractLsb' 0 32).toNat
  | .const => f.rst

/-- The word a register takes when a reset clears the part that holds it (R574). -/
def resetWord (a : Nat) : BitVec 32 :=
  match regAt a with
  | none => 0
  | some (f, i, j) => BitVec.ofNat 32 ((f.flds.map fun x => fldReset f.kind i j x * 2 ^ x.lo).sum)

end Sys2Proof.Machine
end

