-- ==== Sys2Proof/Machine/Types.lean ====
section
/-! DEFINITION. The pieces of the state: plain data, one structure for each block of spec/01_architecture.md. Every field names the
chapter and rule that gives it. The register words themselves are in `Csr`. -/
namespace Sys2Proof.Machine

/-- The register words, sparse: an unlisted word holds its reset value (R574); the direct writes to RWB fields that wait for the
next boundary (R17); the 64-bit counters and their snapshots (R94, R600), keyed by the low register's address; the high words
latched by a read of a low register (R94). -/
structure Csr where
  regs : List (Nat × Word) := []
  rwb : List (Nat × Word × Word) := []
  ctrs : List (Nat × Nat) := []
  snap : List (Nat × Nat) := []
  latch : List (Nat × Word) := []
  armBy : List (Nat × Nat) := []
deriving DecidableEq, Repr

/-- The header fields of a Ryumi packet (spec/02_fabric_protocol.md R55, R56). -/
structure Hdr where
  version : Nat := 1
  vc : Nat := 0
  epoch : Nat := 0
  f : Bool := false
  m : Bool := false
  s : Bool := false
  l : Bool := false
  d : Bool := false
  e : Bool := false
  x : Bool := false
  part : Nat := 0
  hop : Nat := 0
  dest : Nat := 0
  plen : Nat := 0
  src : Nat := 0
  sub : Nat := 0
  kind : Nat := 0
  stream : Nat := 0
  chunk : Nat := 0
  off : Nat := 0
  anchor : Nat := 0
  ofmt : Nat := 0
  rank : Nat := 0
  launch : Nat := 0
deriving DecidableEq, Repr

/-- An owner of Lake storage (spec/05_lake.md R171, R172): a port group and VC, a reserved partition entry, the results of a vat
bank. -/
inductive Owner where
  | pg (k v : Nat)
  | part (i : Nat)
  | res (b : Nat)
deriving DecidableEq, Repr

/-- Where one copy of a packet stands: in its virtual output queue (R142), part-way across the crossbar (R146), in its egress queue
or being sent (R150), or, towards a vat bank, in its front
end or with the owning vat (R169). -/
inductive Stage where
  | voq | cross | egress | sending | fe | vat
deriving DecidableEq, Repr

/-- One copy: `out` is a port code 0 to 1,023, or 1,024 + b for vat bank b; `n` the cells that have crossed; `eseq` its place in
the order in which copies were granted across the crossbar or taken by their vat; `deferred` says that EG_GATE_DEFER counted it in the open
period in progress, which ends at fabric time `openEnd` (R206); `bad` says that an uncorrectable cell part damaged this copy on its way (R141); `limit` is EGR_LIMIT
as it stood when its first cell crossed, which holds until its last has (R37, R181). -/
structure Copy where
  out : Nat
  stage : Stage := .voq
  n : Nat := 0
  eseq : Nat := 0
  deferred : Bool := false
  openEnd : Nat := 0
  bad : Bool := false
  limit : Nat := 0
deriving DecidableEq, Repr

/-- Where a packet stands before it has copies: in a fence list (R159), waiting behind a full fence list (R160), waiting for an
overflow lookup or behind one (R118, R119), held without a route (R104), waiting for cells in the unit that originated it (R662,
R180), held as an own-chip packet until its payload check (R85), or queued. -/
inductive Place where
  | fence | stall | emWait | emBehind | noRoute | waitCells | own | queued
deriving DecidableEq, Repr

/-- A packet that the device holds. `unit` is the crossbar input (R138); `port` the ingress port code, 1,024 when it was originated
here; `age0` the local count from which its age runs (R161, R663); `launch` the launch time resolved under R58, in units of
2^-16 ns; `main` and `hr` the cells charged to the main pool and to the headroom of port code `port`; `owners` its charges
(R172); `occ` the (port code, VC) whose ingress occupancy it counts in (05_lake.md); `prevKey` the (port code, VC) whose count of
previous-epoch packets it stands in (R158); `bankPrev` whether the previous bank routes it and `bank` the number of the bank that check 5 chose
(R37, R74), `mgmt` whether FP_MGMT_EN let MGMT packets in at its port when its header arrived (R37); `opened` whether the bank of its epoch has retired while the
fence held it (R127); `sampled` whether the sampler of R614 chose it and no record of it has been taken yet; `counted` whether PL_PAYLOAD_BAD has counted it (R94) and `stalled` whether SC_FENCE_STALL has (R160); `cellsAt` the numbers of its
Lake cells (R190); `share` the packet whose cells a NACK of one copy shares while that packet lasts (R164, R170); `ended` whether the payload check has
arrived; `bad` whether it goes out stomped (R83, R84); `nacked` whether a copy produced the one NACK of R164; `inRate` the rate of the
port it entered at in Gb/s (R149), 0 for a packet that a vat bank or the management complex formed; `feLc` and `feNs` the
local count and the fabric time in ns at which a front end acted on it (R245, R343); `orig` whether the device formed it, so that its hop count stays (R87). -/
structure Pkt where
  id : Nat
  unit : Nat
  port : Nat
  h : Hdr
  raw : List Byte := []
  pay : List Byte := []
  age0 : Nat := 0
  arrT : Nat := 0
  launch : Option Int := none
  cells : Nat := 0
  main : Nat := 0
  hr : Nat := 0
  owners : List Owner := []
  occ : Option (Nat × Nat) := none
  prevKey : Option (Nat × Nat) := none
  bankPrev : Bool := false
  bank : Nat := 0
  mgmt : Bool := false
  opened : Bool := false
  sampled : Bool := false
  counted : Bool := false
  stalled : Bool := false
  cellsAt : List Nat := []
  share : Option Nat := none
  ended : Bool := false
  bad : Bool := false
  nacked : Bool := false
  inRate : Nat := 0
  feLc : Nat := 0
  feNs : Nat := 0
  orig : Bool := false
  place : Place := .queued
  copies : List Copy := []
deriving DecidableEq, Repr

/-- The transmission and round robin of one port code (spec/06_scheduling_shaping.md R194 to R196). -/
structure PortTx where
  busy : Option (Nat × Nat) := none
  rr : Nat := 1
  inTurn : Bool := false
  deficit : List Nat := [0, 0, 0, 0, 0, 0, 0, 0]
deriving DecidableEq, Repr

/-- The running maxima and flags of one egress queue during the beat in progress (R217). -/
structure QStat where
  depthMax : Nat := 0
  delayMax : Nat := 0
  xoff : Bool := false
  gate : Bool := false
  shaped : Bool := false
deriving DecidableEq, Repr

/-- A slice swap in progress (spec/15_faults_sparing.md R523): the slice that goes out, whether for a hard fault, its maintenance handle,
the beat in which the test began. -/
structure Swap where
  slice : Nat
  hard : Bool
  handle : Nat
  since : Nat
deriving DecidableEq, Repr

/-- The packet that a port code is receiving: its number (0 when its header was discarded), VC and Ryumi length (R607). -/
structure Rx where
  id : Nat
  vc : Nat
  len : Nat
deriving DecidableEq, Repr

/-- The switch core, Lake's cells and the egress queues (chapters 02 to 06). `gcl`: LEN, CYCLE_BEATS and BASE captured by a GO, for each port code
whose hand-over is pending (R207). `hr` the headroom cells reserved per physical port (R157); `drains` the local count at which each draining unit began,
keyed by its QCTRL address (R39); `discards` each unit's discard counter (R40), under the same key. `cells` is Lake's cell allocation: the cell
numbers in use, each with the crossbar unit it is allocated to (R190). `xoffThr` holds for each port code the VCs that the thresholds of R177 alone
keep at XOFF (R155). `feFull` holds the vat banks whose front ends had no room at the last slot (R309). -/
structure Core where
  pkts : List Pkt := []
  nextId : Nat := 1
  eseq : Nat := 0
  gptr : List Nat := List.replicate 32 0
  aptr : List Nat := List.replicate 32 0
  vcPtr : List (Nat × Nat) := []
  portPtr : List (Nat × Nat) := []
  tx : List (Nat × PortTx) := []
  qstat : List (Nat × QStat) := []
  gcl : List (Nat × (Nat × Nat × Nat)) := []
  shEnPrev : List (Nat × Bool) := []
  sliceRun : List Nat := List.replicate 17 0
  swap : Option Swap := none
  badSpare : Bool := false
  cells : List (Nat × Nat) := []
  xoffThr : List (Nat × Nat) := []
  warn : Bool := false
  warnBeat : Nat := 0
  rx : List (Nat × Rx) := []
  hr : List (Nat × Nat) := []
  drains : List (Nat × Nat) := []
  discards : List (Nat × Nat) := []
  feFull : List Nat := []
deriving DecidableEq, Repr

/-- A pending learn (R121): the ingress pipeline, the partition, the source address and the ingress port code. -/
structure Learn where
  pl : Nat
  part : Nat
  mac : List Byte
  port : Nat
deriving DecidableEq, Repr

/-- Spray weights and credits of one bundle in one pipeline and bank (R107, R108). -/
structure Spray where
  w : List Nat
  credit : List Int
  used : Bool
deriving DecidableEq, Repr

/-- An operation of a table access window in progress (R132). -/
structure TwOp where
  op : Nat
  table : Nat
  bank : Nat
  index : Nat
  data : List Byte
  result : Nat
deriving DecidableEq, Repr

/-- The tables of the pipelines (spec/03_forwarding.md), sparse: an unlisted entry is all zero. Keys: partition admission
4,096 p + partition; banked tables 2 p + bank, times the table's entries, plus the index. `chipC`, `bundleC`, `treeC` and `partC` are the copies of
the banks and admission entries in LPDDR6, under the same keys (R99, R532). -/
structure Tables where
  part : List (Nat × Nat) := []
  chip : List (Nat × Nat) := []
  bundle : List (Nat × List Byte) := []
  tree : List (Nat × List Byte) := []
  chipC : List (Nat × Nat) := []
  bundleC : List (Nat × List Byte) := []
  treeC : List (Nat × List Byte) := []
  partC : List (Nat × Nat) := []
  em : List (Nat × List Byte) := []
  emWr : List Nat := []
  ovf : List (List Byte) := []
  learnQ : List Learn := []
  spray : List (Nat × Spray) := []
  retireReq : List (Nat × Nat) := []
  tw : List (Nat × TwOp) := []
deriving DecidableEq, Repr

/-- A maintenance activity (R544): its handle, code, whether automatic, the members of its expanded resource set (R543) as kind * 2^24 + number, the
session that started it, whether it is stopping, and its place in the registers MT_ACT (16: none). -/
structure Maint where
  handle : Nat
  code : Nat
  auto : Bool
  res : List Nat
  sess : Nat := 0
  stopping : Bool := false
  reg : Nat := 16
deriving DecidableEq, Repr

/-- A vat retirement (R520): physical vat, logical vat, whether for a hard fault, its maintenance handle, the local count of its
drain bound, the step in progress and the spares already found failing. -/
structure Retire where
  v : Nat
  l : Nat
  hard : Bool
  handle : Nat
  bound : Nat
  step : Nat
  failed : List Nat := []
deriving DecidableEq, Repr

/-- An automatic action that an error record calls for (R503, R510, R538) and that has not been carried out yet; carried out at the
end of the step that raised it. `ref` refers to the record: its RSEQ, 2^32 where none was made (R506). -/
inductive Action where
  | quarPort (p : Nat) (ref : Nat) | quarVat (v : Nat) (ref : Nat)
  | sliceSwap (s : Nat) (hard : Bool) (ref : Nat)
  | vatRetire (v : Nat) (hard : Bool) (ref : Nat)
  | chanRetire (c : Nat) (ref : Nat)
  | wireSpare (g w : Nat)
  | softRepair (mac row : Nat)
  | lanes (c : Nat)
  | abort (part cause rseq : Nat) (ref : Nat) (w0 : Nat)
  | deviceFatal (w0 : Nat)
  | tallyTimeout (v word : Nat)
deriving DecidableEq, Repr

/-- Errors, sparing and maintenance beside their registers (chapter 15): the maintenance table in the registers' slots, the next
handle, the removals charged to the budgets with their local counts, the vats out of service, bad bridge
wires (group instance, wire, the spare or 2 and up where none was left, 1 while the sparing is under way), SRAM rows that wait for repair (macro, row, their cells), wear activities that wait for their resources
(R546), aborts waiting (partition, cause, RSEQ of the record) and running (R517). -/
structure Faults where
  maint : List Maint := []
  nextHandle : Nat := 1
  removedPorts : List Nat := []
  removedVats : List Nat := []
  retired : List Nat := []
  retire : List Retire := []
  wires : List (Nat × Nat × Nat × Nat) := []
  repairs : List (Nat × Nat × List Nat) := []
  waitWear : List Action := []
  aborts : List (Nat × Nat × Nat) := []
  abortRun : Option (Nat × Nat × Nat) := none
  abortStart : Nat := 0
  todo : List Action := []
deriving DecidableEq, Repr

/-- A flight record (spec/18_telemetry.md R615) and its place in ring 2 (R613). -/
structure Flight where
  hdr : List Byte
  ext : List Byte
  time : Nat
  seq : Nat
  inPort : Nat
  outPort : Nat
  cause : Nat
  place : Nat := 0
deriving DecidableEq, Repr

/-- Telemetry beside its registers (chapter 18): ring records as bytes, oldest first; flight records held; the local count of each
capturing unit's last record; the records still to take after a trigger; packets seen by each unit's sampler; monitor sets with a
CLEAR waiting (R605); records missed by each ring since the last one written (R612); the places that each ring has passed, without a bound (R613). -/
structure Telem where
  ring0 : List (List Byte) := []
  ring1 : List (List Byte) := []
  flight : List Flight := []
  lastCap : List (Nat × Nat) := []
  post : Option Nat := none
  sampleN : List (Nat × Nat) := []
  pmClear : List Nat := []
  missed : List (Nat × Nat) := []
  turns : List (Nat × Nat) := []
deriving DecidableEq, Repr

/-- The announcement last received from a parent port (spec/13_time.md R452) with its arrival. -/
structure Ann where
  timeSet : Bool
  state : Nat
  distance : Nat
  gmChip : Nat
  src : Nat
  sendNs : Nat
  arrT : Int
deriving DecidableEq, Repr

/-- The link exchange of one port code (R447, R448): the count of messages sent, the last four sent with their T_TX, and the last
received: its SEQ_TX and arrival stamp; the local count of the last measurement accepted (R449). -/
structure LinkTime where
  seqTx : Nat := 0
  sent : List (Nat × Nat) := []
  rx : Option (Nat × Nat) := none
  meas : Nat := 0
deriving DecidableEq, Repr

/-- The data set that a clock announces (IEEE 1588-2019, spec/13_time.md R459): priorities, quality, grandmaster identity, steps removed, and
the port identity of the sender. -/
structure PtpData where
  prio1 : Nat := 128
  cls : Nat := 248
  acc : Nat := 254
  var : Nat := 65535
  prio2 : Nat := 128
  gm : List Byte := []
  steps : Nat := 0
  src : List Byte := []
deriving DecidableEq, Repr

/-- IEEE 1588 on the management port (R457 to R459): the foreign masters with the local counts of their announcements; the master followed;
the local count of its last announcement, and whether the receipt timeout has expired since a master was followed or the port enabled; the two-step Sync that waits for its Follow_Up (sequence, receipt, correction); the master-to-slave
difference not yet used and the last one, and the request in progress (sequence, sending time), times in 2^-16 ns; the path delay; sequence numbers; the local counts of the last
messages sent. -/
structure Ptp where
  foreign : List (PtpData × List Nat) := []
  master : Option PtpData := none
  lastAnn : Nat := 0
  expired : Bool := false
  sync : Option (Nat × Nat × Int) := none
  msDiff : Option Int := none
  lastMs : Option Int := none
  req : Option (Nat × Nat) := none
  delay : Option Int := none
  reqSeq : Nat := 0
  annSeq : Nat := 0
  syncSeq : Nat := 0
  sentSync : Option Nat := none
  sentReq : Option Nat := none
  sentAnn : Option Nat := none
deriving DecidableEq, Repr

/-- One time pulse output (R460 to R462): the next pulse, the period and the width in 2^-16 ns and the mode, as armed; the end of a pulse in progress,
and whether its arming was cancelled. -/
structure Tpo where
  next : Nat := 0
  period : Nat := 0
  width : Nat := 0
  periodic : Bool := false
  high : Option Nat := none
  cancel : Bool := false
deriving DecidableEq, Repr

/-- The time unit (R438 to R462). Times are in units of 2^-16 ns since the fabric origin; `bases` holds the eight bases before the one in force, oldest first
(the local count at which each ended, BASE_T, BASE_LC and RATE; the model's own record, for R447); `annPriLc` and `annSecLc` are the local counts of the last usable announcement of each
parent (R444). `beat` counts boundaries made and is not reduced (its number is taken modulo 2^48, R20). `acted` holds the work of a boundary that has a command of its own, with the beat in which it was last done,
plus one. -/
structure TimeSt where
  lc : Nat := 0
  baseT : Int := 0
  baseLc : Nat := 0
  rate : Int := 0
  bases : List (Nat × Int × Nat × Int) := []
  beat : Nat := 0
  small : Nat := 0
  integ : Int := 0
  rateHist : List Int := []
  lastMeas : Nat := 0
  priGood : Nat := 0
  priBad : Nat := 0
  annPri : Option Ann := none
  annSec : Option Ann := none
  annPriLc : Nat := 0
  annSecLc : Nat := 0
  lastPps : Nat := 0
  lost : Bool := false
  setSec : Nat := 0
  links : List (Nat × LinkTime) := []
  ptp : Ptp := {}
  tpo : List Tpo := [{}, {}, {}, {}]
  refPresent : Bool := true
  lastAnnBeat : Nat := 0
  inbox : List (Nat × List Byte × Nat × Nat) := []
  acted : List (Nat × Nat) := []
deriving DecidableEq, Repr

/-- Where a session's frames come from and go to (spec/14_control_protocol.md R470, R467, R468): transport 0 Ethernet, 1 UDP, 2 VC0;
the source MAC; the IPv6 source address and UDP port; the source chip and the port code that received the HELLO. -/
structure Ep where
  kind : Nat := 0
  mac : List Byte := []
  ip : List Byte := []
  udp : Nat := 0
  chip : Nat := 0
  port : Nat := 0
deriving DecidableEq, Repr

/-- A command held or running (R483, R486). -/
structure Cmd where
  seq : Nat
  op : Nat
  body : List Byte
deriving DecidableEq, Repr

/-- A UCP command that has begun and waits for a window or holds it (R492): the window (a pipeline's, or 16 the collective engine's), the session (8 when it
has closed), the command, whether its window operation runs. -/
structure WinOp where
  win : Nat
  sess : Nat
  cmd : Cmd
  started : Bool := false
deriving DecidableEq, Repr

/-- An event not yet acknowledged (R494): its SEQ, code and body, and the local count at which it was last sent. -/
structure Ev where
  seq : Nat
  code : Nat
  body : List Byte
  sent : Nat
deriving DecidableEq, Repr

/-- A session slot (R475 to R495). `state` 0 free, 1 reserved, 2 open. `next` is the next SEQ to execute; `run` a command begun and
not yet answered, with the local count at which it began; `cache` the replies of the last 64 commands; `reps` the reports built at boundaries and not sent
yet (R608). -/
structure Sess where
  state : Nat := 0
  priv : Nat := 0
  cred : Nat := 0
  ver : Nat := 0
  ep : Ep := {}
  keyRx : List Byte := []
  keyTx : List Byte := []
  ivRx : List Byte := []
  ivTx : List Byte := []
  th : List Byte := []
  since : Nat := 0
  next : Nat := 1
  held : List Cmd := []
  run : Option (Cmd × Nat) := none
  cache : List (Nat × List Byte) := []
  evSeq : Nat := 1
  evq : List Ev := []
  lost : Nat := 0
  mask : Nat := 0
  report : Nat := 0
  period : Nat := 1
  reps : List (List Byte) := []
deriving DecidableEq, Repr

/-- A credential entry (R479); an entry that is not valid has privilege 0 and a key of 97 zero bytes. -/
structure Cred where
  priv : Nat := 0
  key : List Byte := List.replicate 97 0
deriving DecidableEq, Repr

/-- The image staging area (R492): the holding session, the kind and the length given, the bytes. `commit` is an IMG_COMMIT that
runs: its session, kind; `slot` the firmware slot that it writes (R584). -/
structure Staging where
  owner : Option Nat := none
  kind : Nat := 0
  len : Nat := 0
  data : List Byte := []
  commit : Option (Nat × Nat) := none
  slot : Nat := 0
deriving DecidableEq, Repr

/-- One copy of the boot selector (R577): the selected slot, the trial flag, the sequence number, and whether its CRC-32C passes. -/
structure Selector where
  slot : Nat := 0
  trial : Bool := false
  seq : Nat := 0
  good : Bool := true
deriving DecidableEq, Repr

/-- The management complex (chapter 14) and the boot state (chapter 17): sessions, session records (last SEQ executed, close cause;
R481), credentials, staging; whether the firmware reports ready, the working cores, whether the boot stopped (R580), the local
count of the last boot or restart, what the boot in progress began as (`boot` 0 a warm restart, 1 a management reset, 2 the boot sequence of R578), the image
running, and boot storage: the bytes of each slot, slots marked failed, the two copies of the selector. `fuseBusy` is the fuse operation being blown: op, index, key; `inbox` UCP frames that arrived on VC0; `winQ` the
commands at the windows in the order in which they began (R486). -/
structure Mgmt where
  sess : List Sess := List.replicate 8 {}
  recs : List (Nat × Nat) := List.replicate 8 (0, 0)
  creds : List Cred := List.replicate 16 {}
  staging : Staging := {}
  ready : Bool := false
  booting : Bool := false
  stopped : Bool := false
  cores : List Bool := [true, true, true, true, true]
  since : Nat := 0
  readyAt : Nat := 0
  mpUp : Bool := false
  image : List Byte := []
  slots : List (List Byte) := [[], []]
  slotBad : List Bool := [false, false]
  sel : List Selector := [{}, {}]
  boot : Nat := 0
  fuseBusy : Option (Nat × Nat × List Byte) := none
  inbox : List (Ep × List Byte) := []
  winQ : List WinOp := []
deriving DecidableEq, Repr

/-- The fuses (R590) that a command can blow: owner key, recipe keys 2 and 3, key revocation bits, minimum security versions,
lifecycle. The fuses written at manufacture are in `Config`. -/
structure Fuses where
  owned : Bool := false
  owner : List Byte := []
  rkey2 : List Byte := []
  rkey3 : List Byte := []
  fRev : Nat := 0
  rRev : Nat := 0
  fwMin : Nat := 0
  rcpMin : Nat := 0
deriving DecidableEq, Repr

/-- Power beside its registers (chapter 16): the local count at which an entry or a wake began; whether RESET_N is low; PWRGOOD; whether an
undervoltage holds the device in reset (R568), whether the thermal trip closed every gate (R567), whether RESET_N is high and only the absent
REFCLK_RACK keeps it in reset (R34); whether the first wake after reset is still to be
followed by its self-test (R581); when a data-path reset began; LM_EN of each slot; a REQ written during ENTERING (R561). -/
structure Power where
  begun : Nat := 0
  resetLow : Bool := false
  pwrGood : Bool := true
  uvHold : Bool := false
  tripped : Bool := false
  refHold : Bool := false
  first : Bool := true
  dpReset : Option Nat := none
  lmEn : List Bool := List.replicate 16 false
  reqLate : Bool := false
deriving DecidableEq, Repr

/-- A descriptor found uncorrectable in a front end (R505): table 1 stream, 2 group, 3 partition; the SRAM macro and row; whether every copy is
bad. -/
structure DescErr where
  table : Nat
  index : Nat
  macroNo : Nat
  row : Nat
  allBad : Bool
deriving DecidableEq, Repr

/-- An access to LPDDR6 that waits until its channels are released (spec/19_lpddr6.md R627): the copy of a table entry of a pipeline (`counted`: its bytes stand
in no bulk), the bytes that a BANK_COPY writes on one slot, the refill of entries of a repaired row and of the instruction memory, with the bursts in error that
it meets and the record whose D1 counts the entries lost (R532), the write of the recipe image's copy (R344) and of a firmware image's, what is written again on a slot after its low segment was lost (R535), and the removal
of overflow entries of a bucket that cannot be read (R625). -/
inductive DdrWait where
  | mirror (p table bank index : Nat) (data : List Byte) (counted : Bool)
  | bulk (p table bank slot : Nat)
  | restore (p table bank : Nat) (entries : List Nat) (errs : List (Nat × List Nat)) (ref : Nat)
  | image (off n : Nat) (errs : List (Nat × List Nat))
  | imageCopy (n : Nat)
  | fwCopy (s : Nat)
  | refill (slot : Nat)
  | lose (b : Nat) (entries : List (List Byte))
deriving DecidableEq, Repr

/-- LPDDR6 beside its registers (chapter 19): segments still to move for each retiring channel (channel, maintenance handle, logical
segments); the firmware image copies (R535); the logical bursts found uncorrectable and not written since (log entry 84); the accesses that wait (R627);
the local count at which the scrub's pass in progress began, and the bursts, as channel and channel byte address, that it has read (R626). -/
structure Ddr where
  moving : List (Nat × Nat × List Nat) := []
  fw : List (List Byte) := [[], []]
  bad : List Nat := []
  late : List DdrWait := []
  pass : Nat := 0
  scrubbed : List (Nat × Nat) := []
deriving DecidableEq, Repr

/-- What the accesses of the command in progress meet: bursts of LPDDR6 by their logical number, with how their 36 symbols as read differ from those written
(R624), a descriptor in error (R505), and the groups of which the command has found no copy correct; and the parts of LPDDR6 that it has written, as logical
address and length. They stand here while the command is carried out. -/
structure Seen where
  ddr : List (Nat × List Nat) := []
  desc : Option DescErr := none
  gone : List Nat := []
  wrote : List (Nat × Nat) := []
deriving DecidableEq, Repr

/-- What passes over a laser slot's bus (spec/20_package_electrical.md R651): a start or repeated start, the 7-bit address with read or write, a byte that the
GS5 sends, a byte that the module sends, a stop. -/
inductive BusItem where
  | start
  | addr (a : Nat) (read : Bool)
  | put (b : Byte)
  | get (b : Byte)
  | stop
deriving DecidableEq, Repr

/-- What the device sends, oldest first: the model's own record of its outputs (log entry 2). `spi` is an operation on boot storage (spec/20_package_electrical.md
R650): 0 read, 1 write enable, 2 page program, 3 sector erase; the I/O lines it takes, 1 or 4; its address, length and data. `ddr` is one burst written on a channel, its 36 symbols as they go out; `ddrFill` all bursts of `n`
bytes from a channel byte address: `others` by address as given, an empty list of symbols where the data was uncorrectable and stays so, and every other one 32 zero bytes with
their check symbols, `burstEncode` of its address (spec/19_lpddr6.md R624). -/
inductive Out where
  | txBegin (port lc id : Nat) (hdr : List Byte)
  | txEnd (port lc id : Nat) (pay check : List Byte) (stomped : Bool)
  | lcs (port lc word : Nat)
  | ctl (port lc typ body : Nat)
  | frame (sess lc : Nat) (bytes : List Byte)
  | eth (lc : Nat) (bytes : List Byte)
  | ptp (lc : Nat) (bytes : List Byte)
  | pulse (n : Nat) (high : Bool) (lc : Nat)
  | pin (name : String) (k : Nat) (high : Bool) (lc : Nat)
  | slotBus (slot : Nat) (items : List BusItem) (lc : Nat)
  | indigo (port lc : Nat) (lane : Nat) (cw : List Nat)
  | pilot (oe j lc : Nat) (frame : List Bool)
  | row (port lc n : Nat) (lanes : List (Nat × List Nat))
  | rxRow (port lc n : Nat) (ctl : List (Option Nat)) (bytes : List (Option Byte))
  | ddr (c lc addr : Nat) (burst : List Nat)
  | ddrFill (c lc addr n : Nat) (others : List (Nat × List Nat))
  | spi (op mode addr len : Nat) (data : List Byte) (lc : Nat)
  | note (what : String) (n : Nat)
deriving DecidableEq, Repr

/-- A context (spec/07_collectives.md R228; spec/08_vat_arithmetic.md). `lv` and `slot` name it. `pe` is the reserved partition entry charged
(R185); `first` and `run` its granules; `counts` the arrival counts by ingress code; `expected` and `perPort` as they stood when it opened (R222);
`openT` the fabric time in ns and `openLc` the local count of its opening; `timeout` in microseconds (R223); `firstLc`, `prevLc`, `lastLc` the
local counts of the first, second-last and last contribution (R245). `acc` holds one accumulator per element of a built-in recipe, empty before
the first contribution; `words` the tally store words of a loaded recipe (R319, R320), sparse. `steps` counts contributions whose STEP handler has
not finished. `done`: complete (R231); `sent`: its result has been formed. -/
structure Ctx where
  lv : Nat
  slot : Nat
  stream : Nat
  chunk : Nat
  group : Nat
  part : Nat
  cls : Nat := 0
  pe : Option Nat := none
  first : Nat := 0
  run : Nat := 1
  counts : List (Nat × Nat) := []
  total : Nat := 0
  expected : Nat := 0
  perPort : Nat := 0
  openT : Nat := 0
  openLc : Nat := 0
  timeout : Nat := 0
  firstLc : Nat := 0
  prevLc : Nat := 0
  lastLc : Nat := 0
  recipe : Nat := 0
  inKind : Nat := 0
  elems : Nat := 0
  outFmt : Nat := 0
  fxrM : Nat := 0
  fxrN : Nat := 0
  param : Nat := 0
  anchor : Int := 0
  sat : Bool := false
  amx : Bool := false
  acc : List Int := []
  words : List (Nat × Nat) := []
  inited : Bool := false
  steps : Nat := 0
  done : Bool := false
  sent : Bool := false
deriving DecidableEq, Repr

/-- The entries that the handling of a context reads: its stream's, its group's and its partition's. -/
def Ctx.reads (c : Ctx) (e : DescErr) : Bool :=
  (e.table = 1 && e.index = c.stream) || (e.table = 2 && e.index = c.group) || (e.table = 3 && e.index = c.part)

/-- State of a chunk record entry (R229). -/
inductive RecState where
  | done | timedOut | deflected
deriving DecidableEq, Repr

/-- A chunk record entry (R229): key, state, the group and partition it belongs to, the local count from which it is kept and how long in
microseconds. The list is in order of creation. -/
structure RecEnt where
  lv : Nat
  stream : Nat
  chunk : Nat
  st : RecState
  group : Nat
  part : Nat
  since : Nat
  life : Nat
deriving DecidableEq, Repr

/-- A launch slot (R247 to R252) of the front end of a vat bank. -/
structure LSlot where
  bank : Nat
  stream : Nat
  chunk : Nat
  group : Nat
  part : Nat
  counts : List (Nat × Nat) := []
  total : Nat := 0
  expected : Nat := 0
  perPort : Nat := 0
  openT : Nat := 0
  openLc : Nat := 0
  timeout : Nat := 0
  closed : Bool := false
  closedLc : Nat := 0
  acked : Nat := 0
  bad : Bool := false
  omitted : Nat := 0
  reports : List (List Byte) := []
deriving DecidableEq, Repr

/-- A contribution added to a context whose STEP handler has not run yet (R312). -/
structure StepEv where
  lv : Nat
  slot : Nat
  code : Nat
  h : Hdr
  pay : List Byte
  count : Nat
deriving DecidableEq, Repr

/-- An array operation issued (R324 to R326). For a built-in recipe `op` says which: 0 the recipe's own combine, 1 an AOP of a loaded recipe with
the fields of format B already read from the registers. -/
structure AOp where
  builtin : Bool := true
  rl : Nat := 0
  rw : Nat := 0
  ri : Nat := 0
  fmt : Nat := 0
  conv : Nat := 0
  comb : Nat := 0
  sq : Bool := false
deriving DecidableEq, Repr

/-- An array of a vat's quad that is taken (R315): the contribution in its input buffer, the operations issued and not complete, and whether the
STEP handler that took it has ended. -/
structure ArrJob where
  lv : Nat
  arr : Nat
  slot : Nat
  h : Hdr
  pay : List Byte
  ops : List AOp
  ended : Bool
deriving DecidableEq, Repr

/-- The handlers of a recipe (R312). -/
inductive Handler where
  | init | step | final
deriving DecidableEq, Repr

/-- A handler of a loaded recipe that runs in a vat's sequencer (R313, R317): the context, the kind, the array it holds, pc, the sixteen
registers (the first is not used), the cycles taken, the fabric time at entry in ns, the contribution's ingress code and COUNT, and the elements
appended by OUT: their bytes, their number, the format of the first, whether the last OUT in BS8 left a part block, whether formats differ. -/
structure Run where
  lv : Nat
  slot : Nat
  kind : Handler
  arr : Nat
  pc : Nat
  g : List Nat
  cyc : Nat
  startLc : Nat
  entryNs : Nat
  code : Nat
  h : Hdr
  pay : List Byte
  count : Nat
  out : List Byte := []
  outN : Nat := 0
  outBad : Bool := false
  outPart : Bool := false
deriving DecidableEq, Repr

/-- A result packet, notice, acknowledgement or ABORT that waits for cells in its vat bank (R172, R180): the bank, header and payload, the output
port codes of a multicast (none: routed as R237 or, for an ABORT, by the tree), the context it is a result packet of and whether the last. -/
structure WaitRes where
  bank : Nat
  h : Hdr
  pay : List Byte
  outs : Option (List Nat)
  ctx : Option (Nat × Nat) := none
  last : Bool := false
  isAbort : Bool := false
  group : Nat := 0
deriving DecidableEq, Repr

/-- A message between vats (R331 to R334): under way until delivered. -/
structure Msg where
  dst : Nat
  src : Nat
  stream : Nat
  tag : Nat
  body : List Nat
  sent : Nat
  delivered : Bool
  since : Nat
deriving DecidableEq, Repr

/-- A recipe table entry (R339). -/
structure Rcp where
  code : Nat
  anchored : Bool
  init : Nat
  step : Nat
  final : Nat
  bpe : Nat
  bfix : Nat
  kinds : Nat
  fmts : Nat
  budget : Nat
deriving DecidableEq, Repr

/-- The collective engine (chapter 07): descriptors, partition entries and watch entries, sparse (the 16 front-end copies hold the same contents,
R32, and are not held apart); launch slots; the window operation in progress; the watch selections of the last boundary (R260). -/
structure Ce where
  stream : List (Nat × List Byte) := []
  group : List (Nat × List Byte) := []
  part : List (Nat × Nat) := []
  watch : List (Nat × (Nat × Nat)) := []
  watchSel : List Nat := List.replicate 16 0
  launch : List LSlot := []
  tw : Option TwOp := none
deriving DecidableEq, Repr

/-- The vats (chapters 08, 09): contexts, chunk records, steps waiting, arrays taken, running handlers, results waiting for cells, messages, the
loaded region (sparse), the recipe table and the image that they come from (R344), none when LOADED is zero; `lostRuns` the granule runs (physical vat, first, run) that a bad pointer keeps out of service (R191). -/
structure Vats where
  ctxs : List Ctx := []
  recs : List RecEnt := []
  steps : List StepEv := []
  arrays : List ArrJob := []
  runs : List Run := []
  wait : List WaitRes := []
  msgs : List Msg := []
  imem : List (Nat × Nat) := []
  rcps : List Rcp := []
  image : List Byte := []
  lostRuns : List (Nat × Nat × Nat) := []
deriving DecidableEq, Repr
/-- A control message that waits to be sent (R381): the variable parts are filled in when its first LCS is sent. `lane` is an answer or a request
that is complete but for its effect row, none: chosen at sending (R420); `cmd` sends the command that waits in `txCmd`. -/
inductive CtlMsg where
  | train | echoReq | feature
  | echoResp (row lc : Nat)
  | lane (code lane wl : Nat) (row : Option Nat)
  | cmd
deriving DecidableEq, Repr

/-- A LANE command of one direction (spec/12_optical_health.md R420 to R426). `code` 1 MOVE, 3 RESTORE, 5 NARROW; `row` its effect row, none until
its first LCS is sent; `sent` the local count of that; `applied` at the effect row, `acked`; `refused` while a REFUSE waits for the next row (R423); `cal`
for a calibration visit; `act` the handle of its maintenance activity (R544), 0 for none. -/
structure LaneCmd where
  code : Nat
  lane : Nat
  wl : Nat
  row : Option Nat := none
  sent : Nat := 0
  applied : Bool := false
  acked : Bool := false
  refused : Bool := false
  cal : Bool := false
  act : Nat := 0
deriving DecidableEq, Repr

/-- A lane action that this end takes (R415): the direction, the code and the logical lane of the command, whether it answers a loss or wear (R546), the
counter that counts it (its address, 0 for none) and the record that called for it (R506). -/
structure LaneAct where
  tx : Bool
  code : Nat
  lane : Nat
  loss : Bool := false
  cnt : Nat := 0
  ref : Nat := 2 ^ 32
deriving DecidableEq, Repr

/-- The link of one port code (spec/11_optical_links.md). Its STATE, FEAT, DOWN_CAUSE and LANES_OK stand in YZ_STAT; the mode in use in `Links.mode`.
`since` is the local count at which the phase began, `alignT` that of ALIGN, `lightT` that at which light first arrived in LIGHT. Training: the receive
lanes aligned, those that had no light when the port left LIGHT (R410), the far RX_OK and READY, whether READY was sent, TRAIN and echo done, the far feature level, whether this end's FEATURE message has gone out. `rowTx` and `rowRx` number the rows (R381). Per direction: the
wavelength of each logical lane, the lane state (0 PARITY, 1 SPARED, 2 NARROW, 3 split), the logical lane that has moved with the wavelength it left, the
transmit wavelengths vacated, the wavelength that carries a copy, the command pending; `req` is the last request of this end that awaits its answer, `reqT` when
it was sent, `reqAct` the handle of its activity; `acts` lane actions that wait. Per wavelength: lost lanes, receive lanes of a
circuit whose alignment is lost, consecutive bad and good codewords. `trust` counts rows that satisfied the parity identity, up to 8 (R427). `descr` and `scr` are the states of descramblers and scramblers per
logical lane (58 bits), none when unknown. `rxCtl` and `txCtl` hold control symbols of an LCS or a row in the making, `rxBits` bits of a byte in the
making, `txBits` those not sent yet (count, value). `asm` holds the bytes of a control message received so far, `out` the bytes of the one being sent with
the next one's number and `outTyp` its type; `asmRow` is the row in which the first LCS of the message being received began and `asmLc` the local count at which that row
arrived (R447), `rowLc` that of the last row. `lastGood` is the local count of the last good LCS; `starved` after 1 µs without (R378); `skip` while
framing is lost, since the row `skipRow` (R379). `rxq` holds the bytes received and not framed yet, none where lost, `rxAbs` the place of the first of
them in the stream, `rxMark` the places of the first bytes that begin in the last rows, `rxBody` the length of the payload and check to come (R374).
`streaming` says that rows of the link are sent; `txq` holds bytes of packets that no row carries yet, marked at a header's first byte, `txBody` how many
bytes after the header of the packet in transmission rows carry already, `txRow` the bytes of the row in the making and `txRowLc` the local count at which it
began (R374, R376, R447). -/
structure Lk where
  since : Nat := 0
  alignT : Nat := 0
  lightT : Option Nat := none
  aligned : Nat := 0
  dark : Nat := 0
  farOk : Nat := 0
  farReady : Bool := false
  readySent : Bool := false
  trained : Bool := false
  echoed : Bool := false
  farFeat : Option Nat := none
  featSent : Bool := false
  echo : Option (Nat × Nat) := none
  rowTx : Nat := 0
  rowRx : Nat := 0
  txMap : List Nat := []
  rxMap : List Nat := []
  txSt : Nat := 0
  rxSt : Nat := 0
  txMoved : Option (Nat × Nat) := none
  rxMoved : Option (Nat × Nat) := none
  txVac : Nat := 0
  txCopy : Option Nat := none
  txCmd : Option LaneCmd := none
  rxCmd : Option LaneCmd := none
  req : Option (Nat × Nat) := none
  reqT : Nat := 0
  reqAct : Nat := 0
  acts : List LaneAct := []
  lostTx : Nat := 0
  lostRx : Nat := 0
  noAlign : Nat := 0
  bad : List Nat := [0, 0, 0, 0, 0, 0, 0, 0, 0]
  good : List Nat := [0, 0, 0, 0, 0, 0, 0, 0, 0]
  trust : Nat := 0
  descr : List (Option Nat) := []
  scr : List Nat := []
  rxCtl : List (Option Nat) := []
  txCtl : List Nat := []
  rxBits : List (Option Bool) := []
  txBits : Nat × Nat := (0, 0)
  msgs : List CtlMsg := []
  timeDue : Bool := false
  asm : List Nat := []
  out : List Nat := []
  outN : Nat := 0
  outTyp : Nat := 0
  lastGood : Nat := 0
  starved : Bool := false
  skip : Bool := false
  skipRow : Nat := 0
  asmRow : Nat := 0
  asmLc : Nat := 0
  rowLc : Nat := 0
  rxq : List (Option Byte) := []
  rxAbs : Nat := 0
  rxMark : List (Nat × Nat) := []
  rxBody : Option Nat := none
  streaming : Bool := false
  txq : List (Byte × Bool) := []
  txBody : Nat := 0
  txRow : Option (List (Byte × Bool)) := none
  txRowLc : Nat := 0
deriving DecidableEq, Repr

/-- The links: per port code; whether a physical port's link is in split mode; the physical ports that an Indigo circuit left and whose link
trains when QREQ is released (R396); the local count at which each pair was enabled, and the ports A and B of its circuit while it is (log entry 42); the states of the descramblers and of the scramblers of training
codewords, keyed 9 c + j (R390). -/
structure Links where
  lk : List (Nat × Lk) := []
  mode : List (Nat × Bool) := []
  ind : List Nat := []
  indT : List (Nat × Nat) := []
  indP : List (Nat × Nat × Nat) := []
  train : List (Nat × Nat) := []
  trainTx : List (Nat × Nat) := []
deriving DecidableEq, Repr

/-- Consecutive evaluations of a margin (R414): below T1, T2 and T3, and at or above T1; whether the margin has recovered in that last run. -/
structure Cross where
  b1 : Nat := 0
  b2 : Nat := 0
  b3 : Nat := 0
  up : Nat := 0
  done : Bool := false
deriving DecidableEq, Repr

/-- A calibration visit (R430 to R433): port, wavelength, the local count of its start, that of the dwell's start, whether the restores have begun, whether
the visit has a request of its own pending, whether the receive ring is calibrated too, whether a margin of the transmit or of the receive direction fell below T2, the handle of its activity (R544). -/
structure Cal where
  p : Nat
  j : Nat
  start : Nat
  dwell : Option Nat := none
  restoring : Bool := false
  asked : Bool := false
  rx : Bool := false
  lowTx : Bool := false
  lowRx : Bool := false
  handle : Nat := 0
deriving DecidableEq, Repr

/-- Optical health beside its registers (chapter 12), rings keyed 2 (9p + j), plus one for the receive ring, lanes 9p + j: heater codes of each ring relative
to their start, the local count from which its time without a valid identity read runs (R407), its failed attempts, and its state while its port belongs to a
circuit, where OH_RING reads OFF and the lock loop runs on (R400, R406); receive lanes with light; codewords received and symbols counted in OH_SYMERR in
the 512 beats in progress, `cws` and `errs`, and in those before them, `winC` and `winE` (R411); runs of evaluations of lines (key 9k + j) and of receive
lanes; the visit in progress; the TAP readings of each module's first enable, and the local count since which all its TAPs stand within 1 dB of them
(R436). -/
structure Optics where
  heat : List (Nat × Int) := []
  readT : List (Nat × Nat) := []
  cws : List (Nat × Nat) := []
  errs : List (Nat × Nat) := []
  winC : List (Nat × Nat) := []
  winE : List (Nat × Nat) := []
  tries : List (Nat × Nat) := []
  hid : List (Nat × Nat) := []
  light : List (Nat × Bool) := []
  tap0 : List (Nat × List Int) := []
  tapT : List (Nat × Nat) := []
  line : List (Nat × Cross) := []
  lane : List (Nat × Cross) := []
  cal : Option Cal := none
deriving DecidableEq, Repr


/-- The device: everything but the queue of waiting commands and the fuses. -/
structure Dev where
  csr : Csr := {}
  time : TimeSt := {}
  core : Core := {}
  tab : Tables := {}
  ce : Ce := {}
  vat : Vats := {}
  link : Links := {}
  optic : Optics := {}
  mgmt : Mgmt := {}
  faults : Faults := {}
  power : Power := {}
  tel : Telem := {}
  ddr : Ddr := {}
  seen : Seen := {}
  out : List Out := []
  free : Nat := 0
deriving DecidableEq, Repr

end Sys2Proof.Machine
end

