-- ==== Sys2Proof/Machine/Ops.lean ====
section
/-! DEFINITION. The named operations over registers, counters, time, performance monitors and outputs that every family uses. -/
namespace Sys2Proof.Machine

/-! Register words (spec/14_control_protocol.md R497, spec/17_boot_security.md R574). -/

/-- The word held at an address; an unlisted word holds its reset value. -/
def Csr.word (c : Csr) (a : Nat) : Word :=
  match Sparse.find c.regs a with
  | some w => w
  | none => resetWord a

/-- Set a word. -/
def Csr.setWord (c : Csr) (a : Nat) (w : Word) : Csr :=
  { c with regs := if w = resetWord a then Sparse.del c.regs a else Sparse.ins c.regs a w }

/-- A field of a word, as a number (R9). -/
def fget (w : Word) (f : FR) : Nat := bits w.toNat f.hi f.lo

/-- A word with one field replaced. -/
def fput (w : Word) (f : FR) (v : Nat) : Word := BitVec.ofNat 32 (putBits w.toNat f.hi f.lo v)

namespace Dev

/-- The word held at an address. -/
def reg (d : Dev) (a : Nat) : Word := d.csr.word a

/-- Set a register word. -/
def setReg (d : Dev) (a : Nat) (w : Word) : Dev := { d with csr := d.csr.setWord a w }

/-- Set a register word from a number. -/
def setNum (d : Dev) (a : Nat) (n : Nat) : Dev := d.setReg a (BitVec.ofNat 32 n)

/-- Read one field. -/
def fld (d : Dev) (a : Nat) (f : FR) : Nat := fget (d.reg a) f

/-- Set one field. -/
def setFld (d : Dev) (a : Nat) (f : FR) (v : Nat) : Dev := d.setReg a (fput (d.reg a) f v)

/-- Whether a one-bit field is one. -/
def on (d : Dev) (a : Nat) (f : FR) : Bool := d.fld a f = 1

/-! Counters (R94): 64 bits, wrapping. -/

/-- The current value of the counter whose low register is at `a`. -/
def ctr (d : Dev) (a : Nat) : Nat := Sparse.get 0 d.csr.ctrs a

/-- STATE of PW_STAT: 0 RUN, 1 ENTERING, 2 UMBER, 3 WAKING (spec/16_power_umber.md). -/
def pwState (d : Dev) : Nat := d.fld R.PW_STAT F.PW_STAT_STATE

/-- Add to a counter. In Umber the counters of every block are retained and do not count (R557, R602). -/
def incBy (d : Dev) (a n : Nat) : Dev :=
  if n = 0 ∨ d.pwState = 2 then d
  else { d with csr := { d.csr with ctrs := Sparse.put 0 d.csr.ctrs a ((d.ctr a + n) % 2 ^ 64) } }

/-- Count one event. -/
def inc (d : Dev) (a : Nat) : Dev := d.incBy a 1

/-- Set a counter to zero. -/
def clearCtr (d : Dev) (a : Nat) : Dev := { d with csr := { d.csr with ctrs := Sparse.del d.csr.ctrs a } }

/-! Time (spec/13_time.md R438 to R440). -/

/-- Fabric time units in one nanosecond: the unit is 2^-16 ns (R19). -/
def unitsPerNs : Nat := 65536

/-- The local count. -/
def lc (d : Dev) : Nat := d.time.lc

/-- Fabric time at a local count from a base, in units of 2^-16 ns, truncated (R438). One count is 0.8 ns, which is 262,144 / 5 units. -/
def timeFrom (b : Int) (lc : Nat) (rate : Int) (c : Nat) : Nat := (b + ((c - lc : Nat) : Int) * 262144 * (2 ^ 48 + rate) / (5 * 2 ^ 48)).toNat

/-- Fabric time at a local count, with the base in force. -/
def fabAt (d : Dev) (c : Nat) : Nat := timeFrom d.time.baseT d.time.baseLc d.time.rate c

/-- Fabric time at a local count that may be past: with the base that was in force then, as far as bases are kept. -/
def fabPast (d : Dev) (c : Nat) : Nat :=
  match d.time.bases.find? fun (x : Nat × Int × Nat × Int) => c < x.1 with
  | some (_, b, l, r) => timeFrom b l r c
  | none => d.fabAt c

/-- Keep the base in force, which ends now. -/
def keepBase (d : Dev) : Dev :=
  let t := d.time
  { d with time := { t with bases := (t.bases ++ [(t.lc, t.baseT, t.baseLc, t.rate)]).drop (t.bases.length - 7) } }

/-- Fabric time now. -/
def fabT (d : Dev) : Nat := d.fabAt d.lc

/-- Fabric time now in whole nanoseconds since the fabric origin. -/
def fabNs (d : Dev) : Nat := d.fabT / unitsPerNs

/-- The local count at which fabric time first reaches `t` (no earlier than BASE_LC). -/
def countAt (d : Dev) (t : Nat) : Nat :=
  d.time.baseLc +
    ((((t : Int) - d.time.baseT) * (5 * 2 ^ 48) + (262144 * (2 ^ 48 + d.time.rate) - 1)) / (262144 * (2 ^ 48 + d.time.rate))).toNat

/-- Units of fabric time in a beat of 2,048 ns (R20). -/
def beatUnits : Nat := 2048 * 65536

/-- The number of the beat in progress (R20, R21, R455). -/
def beatNo (d : Dev) : Nat := d.time.beat % 2 ^ 48

/-- Nanoseconds as local counts of 0.8 ns, rounded up. -/
def nsCounts (ns : Nat) : Nat := ceilDiv (ns * 5) 4

/-- Microseconds as local counts. -/
def usCounts (us : Nat) : Nat := us * 1250

/-- An age in local counts as whole nanoseconds. -/
def countsNs (c : Nat) : Nat := c * 4 / 5

/-! Free values: each use takes a fresh one. -/

/-- The fresh free value and the device with the counter advanced. -/
def draw (d : Dev) : BitVec 64 × Dev := (Config.free d.free, { d with free := d.free + 1 })

/-! Outputs. -/

/-- Append to the record of outputs. -/
def emit (d : Dev) (o : Out) : Dev := { d with out := d.out ++ [o] }

/-! Performance monitor sets (spec/18_telemetry.md R603 to R606). -/

/-- The monitored units. -/
inductive PmUnit where
  | pl (p : Nat) | sc | lake | ce | vb (b : Nat) | ddr
deriving DecidableEq, Repr

/-- The base of a unit's performance monitor set. -/
def PmUnit.base : PmUnit → Nat
  | .pl p => 0x10F00000 + 0x1000000 * p
  | .sc => 0x02F00000
  | .lake => 0x03F00000
  | .ce => 0x04F00000
  | .vb b => 0x20F00000 + 0x1000000 * b
  | .ddr => 0x07F00000

/-- Whether PM_SELn of a unit counts an event, with a VC where the event takes a VC mask. -/
def pmSelects (d : Dev) (u : PmUnit) (n ev : Nat) (vc : Option Nat) : Bool :=
  let a := u.base + 0x20 + 4 * n
  d.on a F.PM_SEL_EN && d.fld a F.PM_SEL_EVENT = ev &&
    match vc with
    | none => true
    | some v => d.fld a F.PM_SEL_QUAL = 0 || bit (d.fld a F.PM_SEL_QUAL) v

/-- Add `n` for an event of a unit (R604). -/
def pm (d : Dev) (u : PmUnit) (ev : Nat) (vc : Option Nat) (n : Nat) : Dev :=
  if d.on R.TM_CTRL F.TM_CTRL_FREEZE then d
  else (List.range 8).foldl (fun d k => if d.pmSelects u k ev vc then d.incBy (u.base + 0x40 + 8 * k) n else d) d

/-- The event kinds of a unit are its own (R604). -/
def pmUnits : List PmUnit :=
  (List.range 16).map .pl ++ (List.range 16).map .vb ++ [.sc, .lake, .ce, .ddr]

/-! Power states (spec/16_power_umber.md). -/

/-- Whether STATE is RUN. -/
def running (d : Dev) : Bool := d.pwState = 0

/-- Whether the blocks that Umber gates off are on: until STATE is UMBER, and in a wake from 14.0 ms after the grant, when the loads of all 32 ramp steps are on
and the register fields are restored (R560, R563; DESIGN CHOICE, log entry 82). -/
def powered (d : Dev) : Bool := d.pwState ≤ 1 || (d.pwState = 3 && d.power.begun + 17500000 ≤ d.lc)

/-! Work that belongs to a beat boundary and has a command of its own: 1 the dump of ring 1, 2 the decay of scores, 3 the evaluation of margins,
4 a calibration visit. -/

/-- Whether the work was done in the beat in progress; it is done once in a beat (DEDUCED, log entry 78). -/
def actedIn (d : Dev) (k : Nat) : Bool := Sparse.get 0 d.time.acted k = d.time.beat + 1
def act1 (d : Dev) (k : Nat) : Dev := { d with time := { d.time with acted := Sparse.put 0 d.time.acted k (d.time.beat + 1) } }

/-! Identity and mode of ports. -/

/-- CHIP_ID as pipeline p holds it, and ID_VALID (R70). -/
def chipId (d : Dev) (p : Nat) : Nat := d.fld (R.FP_IDENT p) F.FP_IDENT_CHIP_ID
def idValid (d : Dev) (p : Nat) : Bool := d.on (R.FP_IDENT p) F.FP_IDENT_ID_VALID

/-- The pipeline of a port code and of a physical port (spec/01_architecture.md R22). -/
def plOf (c : Nat) : Nat := c / 64

/-- The states of a logical port in YZ_STAT and YZ_STAT1 (spec/11_optical_links.md): the STATE of a port code. -/
def linkState (d : Dev) (c : Nat) : Nat :=
  if c % 2 = 0 then d.fld (R.YZ_STAT (c / 2)) F.YZ_STAT_STATE else d.fld (R.YZ_STAT1 (c / 2)) F.YZ_STAT1_STATE

end Dev
end Sys2Proof.Machine
end

