-- ==== Sys2Proof/Machine/Frames.lean ====
section
/-! DEFINITION. UCP frames towards the controller and the asynchronous events (spec/14_control_protocol.md R468 to R474, R493 to
R496), with the Ethernet and UDP dress of R467. -/
namespace Sys2Proof.Machine

/-- Bytes of a string of ASCII characters. -/
def ascii (s : String) : List Byte := s.toList.map fun c => BitVec.ofNat 8 c.toNat

/-- The 16-byte header of a UCP frame (R471). -/
def ucpHeader (typ sess bodyLen seq op status ver : Nat) : List Byte :=
  [BitVec.ofNat 8 (0x10 + typ), BitVec.ofNat 8 sess] ++ beBytes bodyLen 2 ++ beBytes seq 4 ++ beBytes op 2 ++ beBytes status 2
    ++ beBytes ver 2 ++ [0, 0]

/-- The nonce of R474: IV, class byte, three zero bytes, SEQ. -/
def ucpNonce (iv : List Byte) (cls seq : Nat) : List Byte := iv ++ [BitVec.ofNat 8 cls, 0, 0, 0] ++ beBytes seq 4

/-- An encrypted frame of a session towards the controller. -/
def ucpSeal (s : Sess) (slot typ cls seq op status : Nat) (body : List Byte) : List Byte :=
  let h := ucpHeader typ slot body.length seq op status s.ver
  h ++ Config.gcmSeal s.keyTx (ucpNonce s.ivTx cls seq) h body

/-- A clear frame (HELLO_REPLY, REJECT). -/
def ucpClear (typ sess seq status ver : Nat) (body : List Byte) : List Byte :=
  ucpHeader typ sess body.length seq 0 status ver ++ body

/-- The one's complement sum of 16-bit words that UDP and ICMPv6 checksums use. -/
def onesSum : List Byte → Nat
  | [] => 0
  | [a] => a.toNat * 256
  | a :: b :: r =>
    let t := a.toNat * 256 + b.toNat + onesSum r
    t % 65536 + t / 65536

/-- The checksum of an upper-layer packet over IPv6 with its pseudo-header. -/
def ip6Sum (src dst : List Byte) (next : Nat) (pkt : List Byte) : Nat :=
  let t := onesSum (src ++ dst ++ beBytes pkt.length 4 ++ [0, 0, 0, BitVec.ofNat 8 next] ++ pkt)
  65535 - (t % 65536 + t / 65536) % 65536

/-- An IPv6 packet, with the hop limit given. -/
def ip6Packet (src dst : List Byte) (next hop : Nat) (pay : List Byte) : List Byte :=
  [0x60, 0, 0, 0] ++ beBytes pay.length 2 ++ [BitVec.ofNat 8 next, BitVec.ofNat 8 hop] ++ src ++ dst ++ pay

namespace Dev

/-- MP_MAC as six bytes. -/
def mpMac (d : Dev) : List Byte := beBytes (bits (d.reg R.MP_MAC_HI).toNat 15 0) 2 ++ beBytes (d.reg R.MP_MAC_LO).toNat 4

/-- MP_IPV6 as sixteen bytes. -/
def mpIp6 (d : Dev) : List Byte := (List.range 4).flatMap fun i => beBytes (d.reg (R.MP_IPV6 i)).toNat 4

/-- An Ethernet frame sent by the management port; the MAC appends the frame check sequence. -/
def sendEth (d : Dev) (dst : List Byte) (ethertype : Nat) (pay : List Byte) : Dev :=
  d.emit (.eth d.lc (dst ++ d.mpMac ++ beBytes ethertype 2 ++ pay))

/-- A MGMT packet that the management complex originates (R468, R469, R662): it waits for its cells in the order formed. Its tag, which no rule gives, is zero
(DESIGN CHOICE, log entry 90). -/
def originateMgmt (d : Dev) (ep : Ep) (frame : List Byte) : Dev :=
  let p := plOf ep.port
  let h : Hdr := { vc := 0, epoch := d.fld (R.FW_EPOCH p) F.FW_EPOCH_CUR_EPOCH, part := 0, dest := ep.chip,
                   plen := frame.length, src := d.chipId p, kind := 0x03 }
  let k : Pkt := { id := d.core.nextId, unit := p, port := ep.port, h := h, pay := frame, ended := true, orig := true,
                   cells := ceilDiv (36 + frame.length) 256, place := .waitCells }
  { d with core := { d.core with pkts := d.core.pkts ++ [k], nextId := d.core.nextId + 1 } }

/-- Send one UCP frame to a session's endpoint (R467, R468, R470). -/
def sendUcp (d : Dev) (ep : Ep) (slot : Nat) (frame : List Byte) : Dev :=
  let d := d.emit (.frame slot d.lc frame)
  if ep.kind = 0 then d.sendEth ep.mac 0x88B5 frame
  else if ep.kind = 1 then
    let port := bits (d.reg R.MP_UDP).toNat 15 0
    let hd := beBytes port 2 ++ beBytes ep.udp 2 ++ beBytes (8 + frame.length) 2
    let ck := ip6Sum d.mpIp6 ep.ip 17 (hd ++ [0, 0] ++ frame)
    let ck := if ck = 0 then 0xFFFF else ck
    d.sendEth ep.mac 0x86DD (ip6Packet d.mpIp6 ep.ip 17 64 (hd ++ beBytes ck 2 ++ frame))
  else d.originateMgmt ep frame

/-- Replace a session slot. -/
def setSess (d : Dev) (n : Nat) (s : Sess) : Dev := { d with mgmt := { d.mgmt with sess := d.mgmt.sess.set n s } }

/-- A session slot. -/
def sessAt (d : Dev) (n : Nat) : Sess := d.mgmt.sess.getD n {}

/-- Whether an event of a class is queued on a session (R494, R495): it is open, has subscribed, and its queue is not full. -/
def eventRoom (d : Dev) (n cls : Nat) : Bool := (d.sessAt n).state = 2 && bit (d.sessAt n).mask cls && (d.sessAt n).evq.length < 256

/-- Queue one event on one session and send it (R494, R495). -/
def eventOn (d : Dev) (n cls code : Nat) (data : List Byte) : Dev :=
  let s := d.sessAt n
  if s.state = 2 ∧ bit s.mask cls then
    if 256 ≤ s.evq.length then (d.setSess n { s with lost := min (s.lost + 1) (2 ^ 32 - 1) }).inc R.UCP_EVT_LOST
    else
      let body := beBytes d.fabNs 8 ++ beBytes s.lost 4 ++ [0, 0, 0, 0] ++ data
      let d' := d.setSess n { s with evSeq := (s.evSeq + 1) % 2 ^ 32, lost := 0, evq := s.evq ++ [⟨s.evSeq, code, body, d.lc⟩] }
      d'.sendUcp s.ep n (ucpSeal s n 7 2 s.evSeq code 0 body)
  else d

/-- Send an event on every open session subscribed to its class (R493). -/
def event (d : Dev) (cls code : Nat) (data : List Byte) : Dev :=
  (List.range 8).foldl (fun d n => d.eventOn n cls code data) d

end Dev
end Sys2Proof.Machine
end

