-- ==== Sys2Proof/Machine/Errors.lean ====
section
/-! DEFINITION. The error record queue, health scores and maintenance activities (spec/15_faults_sparing.md R501 to R514, R536 to R547). An occurrence is recorded here; the action that belongs to it waits in `faults.todo` and is
carried out at the end of the step (Machine/Settle.lean). -/
namespace Sys2Proof.Machine

/-- The "Escalates to" column of R503 and R569: 3 DEGRADED, 5 DEVICE_FATAL. -/
def escalatesTo (cause : Nat) : Option Nat :=
  if cause = 0x28 then some 5
  else if [0x10, 0x18, 0x19, 0x21, 0x22, 0x38, 0x39, 0x40, 0x50, 0x51, 0x70, 0x72].contains cause then some 3
  else none

/-- The escalated action of a cause (R503), for a record of instance `inst` with RSEQ `ref` whose first detail word is `d0`. -/
def escalatedAction (cause inst ref d0 w0 : Nat) : Option Action :=
  if cause = 0x21 ∨ cause = 0x22 then some (.sliceSwap inst false ref)
  else if cause = 0x38 ∨ cause = 0x39 then some (.vatRetire inst false ref)
  else if cause = 0x18 then some (.wireSpare inst d0)
  else if cause = 0x40 then some (.softRepair inst d0)
  else if cause = 0x50 ∨ cause = 0x51 then some (.chanRetire inst ref)
  else if cause = 0x28 then some (.deviceFatal w0)
  else none

/-- W0 of a record (R506). -/
def recW0 (blk inst cause : Nat) : Nat := blk * 2 ^ 24 + inst % 65536 * 256 + cause

/-- Members of a resource set (R543): kind * 2^24 + number; 1 port, 2 OE, 3 laser slot, 4 vat bank, 5 channel, 6 slice. -/
def member (kind n : Nat) : Nat := kind * 2 ^ 24 + n

namespace Dev

/-- Put an automatic action on the list that the end of the step carries out. -/
def pushTodo (d : Dev) (a : Action) : Dev := { d with faults := { d.faults with todo := d.faults.todo ++ [a] } }

/-- Word k of the record in slot n, as a number. -/
def erw (d : Dev) (n k : Nat) : Nat := (d.reg (R.ER_REC n k)).toNat

/-- VALID and ACKED of a record slot. -/
def recValid (d : Dev) (n : Nat) : Bool := bit (d.erw n 1) 23
def recAcked (d : Dev) (n : Nat) : Bool := bit (d.erw n 1) 22

/-- The number of VALID, unacknowledged records: UNACKED of ER_STAT. -/
def unacked (d : Dev) : Nat := (List.range 64).countP fun n => d.recValid n && !d.recAcked n

/-- The slot of an unacknowledged record of a source (R507). -/
def recOf (d : Dev) (w0 : Nat) : Option Nat :=
  (List.range 64).find? fun n => d.erw n 0 = w0 ∧ d.recValid n ∧ ¬ d.recAcked n

/-- The slot a new record takes (R508): the lowest without VALID, or that of the acknowledged record with the lowest RSEQ. -/
def recSlot (d : Dev) : Option Nat :=
  match (List.range 64).find? fun n => ¬ d.recValid n with
  | some n => some n
  | none =>
    (List.range 64).foldl (fun best n =>
      if d.recAcked n then
        match best with
        | none => some n
        | some m => if d.erw n 3 < d.erw m 3 then some n else best
      else best) none

/-- The ERROR_RECORD event of R514. -/
def recEvent (d : Dev) (n : Nat) : Dev :=
  d.event 0 0x8001 [BitVec.ofNat 8 n, BitVec.ofNat 8 (bits (d.erw n 1) 31 28), 0, 0]

/-- The trigger of the flight recorder (R616): a record at or above TRIG_SEV while TRIG_EN is one. -/
def flightTrigger (d : Dev) (sev : Nat) : Dev :=
  if d.on R.TM_FR_CTRL F.TM_FR_CTRL_TRIG_EN ∧ d.fld R.TM_FR_CTRL F.TM_FR_CTRL_TRIG_SEV ≤ sev ∧ d.tel.post.isNone
      ∧ ¬ d.on R.TM_FR_CTRL F.TM_FR_CTRL_FROZEN then
    let post := (d.reg R.TM_FR_POST).toNat
    { d with tel := { d.tel with post := some post } }
  else d

/-- Raise the severity of a record; a severity never falls (R501). -/
def raiseSev (d : Dev) (n sev : Nat) : Dev :=
  if bits (d.erw n 1) 31 28 < sev then
    ((d.setNum (R.ER_REC n 1) (putBits (d.erw n 1) 31 28 sev)).recEvent n).flightTrigger sev
  else d

/-- Escalation of a record whose RECUR has reached ESC_THRESH (R510), once per record. -/
def escalate (d : Dev) (n : Nat) : Dev :=
  let w0 := d.erw n 0
  let cause := bits w0 7 0
  match escalatesTo cause with
  | none => d
  | some sev =>
    if d.erw n 2 = d.fld R.ER_CTRL F.ER_CTRL_ESC_THRESH ∧ ¬ bit (d.erw n 1) 21 then
      let d := d.setNum (R.ER_REC n 1) (putBits (d.erw n 1) 21 21 1)
      let d := d.raiseSev n sev
      match escalatedAction cause (bits w0 23 8) (d.erw n 3) (d.erw n 9) w0 with
      | some a => d.pushTodo a
      | none => d
    else d

/-- Write the words of a new record (R506, R508). -/
def recNew (d : Dev) (n w0 sev : Nat) (det : List Nat) (part : Option Nat) : Dev :=
  let rseq := (d.reg R.ER_NEXT).toNat
  let t := d.fabNs
  let w1 := sev * 2 ^ 28 + sev * 2 ^ 24 + 2 ^ 23 + (match part with | some p => 2 ^ 12 + p % 4096 | none => 0)
  let words := [w0, w1, 1, rseq, t / 2 ^ 32 % 2 ^ 32, t % 2 ^ 32, t / 2 ^ 32 % 2 ^ 32, t % 2 ^ 32, 0]
    ++ (List.range 7).map fun k => det.getD k 0 % 2 ^ 32
  let d := (List.range 16).foldl (fun d k => d.setNum (R.ER_REC n k) (words.getD k 0)) d
  let d := d.setNum R.ER_NEXT ((rseq + 1) % 2 ^ 32)
  (d.recEvent n).flightTrigger sev

/-- Fold an occurrence into a record (R507). -/
def recFold (d : Dev) (n : Nat) : Dev :=
  let t := d.fabNs
  let d := d.setNum (R.ER_REC n 2) (min (d.erw n 2 + 1) (2 ^ 32 - 1))
  (d.setNum (R.ER_REC n 6) (t / 2 ^ 32 % 2 ^ 32)).setNum (R.ER_REC n 7) (t % 2 ^ 32)

/-- The weight of an occurrence in a health score (R536). -/
def healthWeight (sev : Nat) : Nat := if sev = 1 then 1 else if sev = 2 then 16 else 64

/-- The element whose health score an occurrence adds to (R536): the score register, whether a vat, its number. -/
def healthOf (blk inst : Nat) : Option (Nat × Bool × Nat) :=
  if blk = 0x01 then some (R.HS_PORT (inst / 2), false, inst / 2)
  else if blk = 0x02 then some (R.HS_PORT (inst / 9), false, inst / 9)
  else if blk = 0x09 then some (R.HS_VAT inst, true, inst)
  else none

/-- Add to a health score; a score that stands at QUAR_SCORE or above calls for a quarantine (R538) unless the element is quarantined
or withheld already (R541). HS_PORT and HS_VAT have one layout. -/
def health (d : Dev) (blk inst sev ref : Nat) : Dev :=
  match healthOf blk inst with
  | none => d
  | some (a, vat, k) =>
    let s := min (d.fld a F.HS_PORT_SCORE + healthWeight sev) 65535
    let d := d.setFld a F.HS_PORT_SCORE s
    if d.on R.HS_CTRL F.HS_CTRL_QUAR_EN ∧ d.fld R.HS_CTRL F.HS_CTRL_QUAR_SCORE ≤ s
        ∧ ¬ d.on a F.HS_PORT_QUARANTINED ∧ ¬ d.on a F.HS_PORT_WITHHELD then
      d.pushTodo (if vat then .quarVat k ref else .quarPort k ref)
    else d

/-- What refers to the record in a queue slot, whatever the slot holds later: its RSEQ; 2^32 for no record. -/
def recRef (d : Dev) (slot : Nat) : Nat := if slot < 64 then d.erw slot 3 else 2 ^ 32

/-- The slot that still holds the record a reference names. -/
def recAt (d : Dev) (ref : Nat) : Option Nat := (List.range 64).find? fun n => d.recValid n && d.erw n 3 = ref

/-- Record one occurrence (R507 to R510, R513, R514, R536). Answers the reference to its record. -/
def occur (d : Dev) (blk inst cause sev : Nat) (det : List Nat) (part : Option Nat) : Dev × Nat :=
  let w0 := recW0 blk inst cause
  let (d, slot) :=
    match d.recOf w0 with
    | some n => (((d.recFold n).raiseSev n (if sev = 5 then 5 else 0)).escalate n, n)
    | none =>
      match d.recSlot with
      | some n => ((d.recNew n w0 sev det part).escalate n, n)
      | none => ((d.setFld R.ER_STAT F.ER_STAT_OVF 1).inc R.ER_LOST, 64)
  let now := if slot < 64 then bits (d.erw slot 1) 31 28 else sev
  let ref := d.recRef slot
  let d := d.health blk inst now ref
  let d := if sev = 5 then d.pushTodo (.deviceFatal w0) else d
  (d, ref)

/-- As `occur`, where the record is not needed. -/
def error (d : Dev) (blk inst cause sev : Nat) (det : List Nat) (part : Option Nat := none) : Dev :=
  (d.occur blk inst cause sev det part).1

/-- The RSEQ of the record an occurrence was made or folded in, 0 when it made none (R503, PARTITION_ABORT). -/
def rseqOf (ref : Nat) : Nat := if ref < 2 ^ 32 then ref else 0

/-- ABORTED of a partition entry (spec/07_collectives.md). -/
def partAborted (d : Dev) (p : Nat) : Bool := bit (Sparse.get 0 d.ce.part p) 30

/-! SRAM rows (R530 to R533). -/

/-- A soft repair of one row. -/
def softRepair (d : Dev) (mac row : Nat) : Dev :=
  let u := d.fld R.SR_STAT F.SR_STAT_USED
  if u < 512 then
    let d := (d.setFld R.SR_STAT F.SR_STAT_USED (u + 1)).inc R.SR_REPAIRS
    if u + 1 = 512 then d.setFld R.SR_STAT F.SR_STAT_EXHAUSTED 1 else d
  else d.error 0x13 0 0x42 3 [mac, row]

/-- A partition-fatal occurrence (R517, R518): its record, and a start of the partition's abort with cause 0x01. -/
def partitionFatal (d : Dev) (blk inst cause : Nat) (det : List Nat) (part : Nat) : Dev :=
  let known := d.faults.abortRun.any (·.1 = part) || d.faults.aborts.any (·.1 = part)
  if part ≠ 0 ∧ ¬ known ∧ ¬ d.partAborted part ∧ d.faults.abortRun.isSome ∧ 16 ≤ d.faults.aborts.length then
    d.error blk inst cause 5 det (some part)
  else
    let (d, ref) := d.occur blk inst cause 4 det (some part)
    if part = 0 then d else d.pushTodo (.abort part 1 (rseqOf ref) ref (recW0 blk inst cause))

/-! Maintenance activities (R543 to R547). -/

/-- Put the maintenance table back with its registers. -/
def setMaint (d : Dev) (l : List Maint) : Dev := { d with faults := { d.faults with maint := l } }

/-- Whether a resource set conflicts with a running activity (R543). -/
def conflicts (d : Dev) (res : List Nat) : Bool := d.faults.maint.any fun m => m.res.any res.contains

/-- Begin an activity; its handle (R547). -/
def maintBegin (d : Dev) (code : Nat) (auto : Bool) (res : List Nat) (sess : Nat) : Dev × Nat :=
  let h := d.faults.nextHandle
  let reg := ((List.range 16).find? fun i => d.faults.maint.all fun m => m.reg ≠ i).getD 16
  let m : Maint := { handle := h, code := code, auto := auto, res := res, sess := sess, reg := reg }
  let d := { d with faults := { d.faults with maint := d.faults.maint ++ [m], nextHandle := h + 1 } }
  if reg < 16 then ((d.setNum (R.MT_ACT_A reg) (code * 2 ^ 16 + b2n auto * 2 ^ 15 + 1)).setNum (R.MT_ACT_B reg) h, h) else (d, h)

/-- An activity ends: MAINT_DONE with its outcome (R515, R547); activities that wait for resources are tried again (R546). -/
def maintEnd (d : Dev) (handle result data : Nat) : Dev :=
  match d.faults.maint.find? fun m => m.handle = handle with
  | none => d
  | some m =>
    let d := d.setMaint (d.faults.maint.filter fun x => x.handle ≠ handle)
    let d := if m.reg < 16 then (d.setNum (R.MT_ACT_A m.reg) 0).setNum (R.MT_ACT_B m.reg) 0 else d
    let d := d.event 4 0x8008 (beBytes handle 4 ++ beBytes (result * 2 ^ 24 + data % 2 ^ 24) 4)
    { d with faults := { d.faults with todo := d.faults.todo ++ d.faults.waitWear, waitWear := [] } }

/-- Put the handle of an activity into the record that started it, where that record is still held (R506). -/
def setAction (d : Dev) (ref handle : Nat) : Dev := match d.recAt ref with | some n => d.setNum (R.ER_REC n 8) handle | none => d

/-- An automatic action for wear waits until its set is free (R546). -/
def waitWear (d : Dev) (a : Action) : Dev := { d with faults := { d.faults with waitWear := d.faults.waitWear ++ [a] } }

end Dev
end Sys2Proof.Machine
end

