-- ==== Sys2Proof/Machine/Burst.lean ====
section
/-! DEFINITION. Accesses to LPDDR6, burst by burst (spec/19_lpddr6.md R622 to R630), and the flight recorder, which writes there (spec/18_telemetry.md R614 to
R616). A burst of 32 bytes is named by its logical number, the logical address divided by 32. -/
namespace Sys2Proof.Machine

/-! The address map (R622, R623). -/

/-- Slot and slot offset of a logical address (R622). -/
def ddrSlot (a : Nat) : Nat := a / 256 % 64
def ddrOffset (a : Nat) : Nat := a / 16384 * 256 + a % 256

/-- The logical segment of an address as 16 slot + segment. -/
def ddrSeg (a : Nat) : Nat := 16 * ddrSlot a + ddrOffset a / 2 ^ 28

/-- The logical address of an offset in a logical segment (slot, j). -/
def ddrLogical (slot j off : Nat) : Nat := (j * 2 ^ 28 + off) / 256 * 16384 + slot * 256 + (j * 2 ^ 28 + off) % 256

/-- The bursts, and the units of 256 bytes, that `n` bytes from a logical address touch. -/
def ddrBursts (a n : Nat) : List Nat := (List.range (ceilDiv (a + n) 32 - a / 32)).map (a / 32 + ·)
def ddrUnits (a n : Nat) : List Nat := (List.range (ceilDiv (a + n) 256 - a / 256)).map (a / 256 + ·)

/-- Whether some of `n` bytes from a logical address lie in segment (s, j): a segment j takes 2^34 bytes of logical addresses, in units of 256 one of which
in 64 falls on slot s (R622). -/
def inSegment (a n s j : Nat) : Bool :=
  let lo := max a (j * 2 ^ 34) / 256
  let hi := (min (a + n) ((j + 1) * 2 ^ 34) + 255) / 256
  lo < hi && (s + 64 - lo % 64) % 64 < hi - lo

/-- The units of 256 bytes of a region that fall on a slot, as logical address and length. -/
def unitsOn (a n s : Nat) : List (Nat × Nat) := ((ddrUnits a n).filter fun u => ddrSlot (256 * u) = s).map fun u => (256 * u, 256)

/-- The units of 256 bytes from a logical address on, `n` bytes long, that fall on a slot. -/
def slotUnits (a n s : Nat) : Nat :=
  let lo := a / 256
  let hi := ceilDiv (a + n) 256
  (hi + 63 - s) / 64 - (lo + 63 - s) / 64

/-- The bytes, in whole bursts, that `n` bytes from the start of a unit of 256 write on a slot. -/
def slotBytes (a n s : Nat) : Nat :=
  256 * slotUnits a (n / 256 * 256) s + if (a + n) / 256 % 64 = s then 32 * ceilDiv (n % 256) 32 else 0

/-- Logical base of the overflow block of a bucket (R623). -/
def ovfBase (b : Nat) : Nat := 0xC000000 + 1024 * b

/-- Logical address of the copy of a table entry of a pipeline: 8 MiB for each pipeline, and in them both chip banks, both bundle banks, both tree banks and the
admission entries (DESIGN CHOICE, log entry 84): R622 gives the region alone. -/
def copyAddr (p table bank index : Nat) : Nat :=
  0x4000000 + 0x800000 * p +
    (if table = 1 then 0x100000 * bank + 4 * index
     else if table = 2 then 0x200000 + 0x40000 * bank + 64 * index
     else if table = 3 then 0x280000 + 0x90000 * bank + 144 * index
     else 0x3A0000 + 4 * index)

/-- The 64 bytes of a flight record (R615). -/
def flightBytes (f : Flight) : List Byte :=
  slice f.hdr 0 32 ++ slice f.ext 0 16 ++ leBytes f.time 8 ++ leBytes f.seq 4 ++
    leBytes (f.inPort * 2 ^ 22 + f.outPort * 2 ^ 12 + f.cause) 4

namespace Dev

/-- The remap entry of a logical segment: channel, segment, unmapped. -/
def ddrMap (d : Dev) (slot j : Nat) : Nat × Nat × Bool :=
  let a := R.DD_REMAP slot j
  (d.fld a F.DD_REMAP_CH, d.fld a F.DD_REMAP_SEG, d.on a F.DD_REMAP_UNMAPPED)

/-- The remap entry of the logical segment of an address. -/
def ddrMapAt (d : Dev) (a : Nat) : Nat × Nat × Bool := d.ddrMap (ddrSlot a) (ddrOffset a / 2 ^ 28)

/-- All logical segments (slot, j), ascending. -/
def ddrSegs : List (Nat × Nat) := (List.range 64).flatMap fun s => (List.range 15).map fun j => (s, j)

/-- The logical segment in segment g of channel c. -/
def ddrHolds (d : Dev) (c g : Nat) : Option (Nat × Nat) := ddrSegs.find? fun x => d.ddrMap x.1 x.2 = (c, g, false)

/-- STATE of a channel: 0 ACTIVE, 1 SELF_REFRESH, 2 MIGRATING, 3 RETIRED. -/
def chState (d : Dev) (c : Nat) : Nat := d.fld (R.DD_CHSTAT c) F.DD_CHSTAT_STATE
def chQuiet (d : Dev) (c : Nat) : Bool := d.on (R.QSTAT_CH c) F.QACK

/-- Whether a channel takes no access: quiesced (R627) or in self-refresh. -/
def chShut (d : Dev) (c : Nat) : Bool := d.chQuiet c || d.chState c = 1

/-- The bytes of a ring, and its logical base: the rings stand in order in the telemetry region. -/
def ringBytes (d : Dev) (r : Nat) : Nat := d.fld (R.TM_RING_CTRL r) F.TM_RING_CTRL_SIZE_MIB * 2 ^ 20
def ringBase (d : Dev) (r : Nat) : Nat := 0x100000000 + ((List.range r).map d.ringBytes).sum

/-- The data kind at a logical address (R622, R625). -/
def ddrKind (d : Dev) (a : Nat) : Nat :=
  if a < 0x2000000 then 1
  else if a < 0x2100000 then 2
  else if 0x4000000 ≤ a ∧ a < 0xC000000 then 3
  else if 0xC000000 ≤ a ∧ a < 0xD000000 then 4
  else if 0x100000000 ≤ a ∧ a < d.ringBase 2 then 5
  else if d.ringBase 2 ≤ a ∧ a < d.ringBase 2 + d.ringBytes 2 then 6
  else 0

/-- Whether an access to `n` bytes from a logical address waits (R627): a mapped part of them stands in a channel that takes none. -/
def ddrShut (d : Dev) (a n : Nat) : Bool := (ddrUnits a n).any fun u => !(d.ddrMapAt (256 * u)).2.2 && d.chShut (d.ddrMapAt (256 * u)).1

/-! Reading (R624, R625, R630). -/

/-- The accesses of a command meet errors in these bursts, and in this descriptor. -/
def seeing (d : Dev) (l : List (Nat × List Nat)) : Dev := { d with seen := { d.seen with ddr := l } }
def meeting (d : Dev) (e : Option DescErr) : Dev := { d with seen := { d.seen with desc := e } }

/-- The records of a burst corrected and of one that is uncorrectable. -/
def burstFixed (d : Dev) (b : Nat) : Dev := (d.inc R.DD_CORR).error 0x0F (d.ddrMapAt (32 * b)).1 0x50 1 [b / 2]
def burstFail (d : Dev) (b : Nat) : Dev := (d.inc R.DD_UNCORR).error 0x0F (d.ddrMapAt (32 * b)).1 0x51 2 [b / 2, d.ddrKind (32 * b)]

/-- Whether a burst is known to be uncorrectable until it is written again (log entry 84). -/
def burstBad (d : Dev) (b : Nat) : Dev := if d.ddr.bad.contains b then d else { d with ddr := { d.ddr with bad := b :: d.ddr.bad } }

/-- How many of a burst's 36 symbols, each the 8 bits of one data pin, a read finds in error. -/
def symsBad (d : Dev) (b : Nat) : Nat := (d.seen.ddr.find? fun x => x.1 = b).elim 0 fun x => (x.2.take 36).countP (· % 256 ≠ 0)

/-- A burst is read: its 36 symbols are checked (R624). One symbol in error is corrected, more are not (R625; of four or more, DESIGN CHOICE, log entry 90).
Whether its data came. One in an unmapped segment is uncorrectable (R630), and no bytes of it are read. -/
def burstRead (d : Dev) (b : Nat) : Bool × Dev :=
  if (d.ddrMapAt (32 * b)).2.2 then (false, d.burstFail b)
  else
    let d := d.pm .ddr 0x0601 none 32
    if 2 ≤ d.symsBad b then (false, (d.burstBad b).burstFail b)
    else if d.ddr.bad.contains b then (false, d.burstFail b)
    else if d.symsBad b = 1 then (true, d.burstFixed b) else (true, d)

/-- Whether a read of a burst is uncorrectable. -/
def burstLost (d : Dev) (b : Nat) : Bool :=
  (d.ddrMapAt (32 * b)).2.2 || d.ddr.bad.contains b || 2 ≤ d.symsBad b

/-- Bursts are read in order: those that are uncorrectable. -/
def burstsRead (d : Dev) (l : List Nat) : List Nat × Dev :=
  l.foldl (fun (x : List Nat × Dev) b => match x.2.burstRead b with | (true, d) => (x.1, d) | (false, d) => (x.1 ++ [b], d)) ([], d)

/-! Writing. -/

/-- The channels whose spare segments are free, ascending (R628). -/
def sparesFor (d : Dev) : List Nat := (List.range 64).filter fun c => d.chState c < 2 && !bit (d.fld (R.DD_CHSTAT c) F.DD_CHSTAT_HOSTED) 15

/-- The channel whose spare segment takes the next segment of a retiring channel (R628): the lowest one. Of several retirements under way each has the lowest that none
before it in turn has (DESIGN CHOICE, log entry 91). -/
def moveTo (d : Dev) (c : Nat) : Option Nat := d.sparesFor[(d.ddr.moving.filter fun x => !x.2.2.isEmpty).findIdx fun x => x.1 = c]?

/-- Where a write to an address goes, as channel and segment (R534): nowhere in an unmapped segment (R630), and to both the old and the new location while its segment is
being copied out of a retiring channel. A channel that takes no access holds the copy up, which then reads the burst later (R627). -/
def ddrPlaced (d : Dev) (a : Nat) : List (Nat × Nat) :=
  match d.ddrMapAt a with
  | (c, g, unmapped) =>
    if unmapped then []
    else (c, g) :: (match (d.ddr.moving.find? fun x => x.2.2.head? = some (ddrSeg a)).bind fun x => d.moveTo x.1 with
      | some t => if d.chShut t then [] else [(t, 15)]
      | none => [])

/-- How many locations a write to a mapped address goes to. -/
def ddrPlaces (d : Dev) (a : Nat) : Nat := (d.ddrPlaced a).length

/-- Parts of LPDDR6, as logical address and length, are among those that the command writes: their bursts are put out when it is over (`burstOuts`). -/
def wrote (d : Dev) (l : List (Nat × Nat)) : Dev := { d with seen := { d.seen with wrote := d.seen.wrote ++ l } }

/-- `n` bytes are written from a logical address, in whole bursts (WRITE_BYTES of R606): those in unmapped segments are discarded (R630), and a burst written
is good. -/
def ddrWrite (d : Dev) (a n : Nat) : Dev :=
  let l := (ddrBursts a n).filter fun b => !(d.ddrMapAt (32 * b)).2.2
  { d.wrote [(a, n)] with ddr := { d.ddr with bad := d.ddr.bad.filter fun b => !(a / 32 ≤ b && b < ceilDiv (a + n) 32) } }.pm .ddr 0x0602 none
    (32 * (l.map fun b => d.ddrPlaces (32 * b)).sum)

/-! The flight recorder (spec/18_telemetry.md R614 to R617). -/

/-- A record of a ring is missed: GAP counts, saturating (R612). -/
def ringGapCount (d : Dev) (r : Nat) : Dev := d.setNum (R.TM_RING_GAP r) (min ((d.reg (R.TM_RING_GAP r)).toNat + 1) (2 ^ 32 - 1))

/-- Whether a record of a ring cannot be written (R612): LPDDR6 is busy, or a channel that one of its `n` bytes from a logical address lies on is quiesced, in
self-refresh or being retired. Its segments in a retiring channel that have moved lie on others. -/
def recordShut (d : Dev) (r a n : Nat) : Bool :=
  Config.ddrBusy d.lc r || (ddrSegs.filter fun x => inSegment a n x.1 x.2).any fun x =>
    let m := d.ddrMap x.1 x.2
    !m.2.2 && (d.chQuiet m.1 || d.chState m.1 ≠ 0)

/-- Whether a capturing unit may take a record now: one per 32 ns, which is 40 counts. -/
def mayCapture (d : Dev) (unit : Nat) : Bool :=
  match Sparse.find d.tel.lastCap unit with
  | none => true
  | some c => c + 40 ≤ d.lc

/-- Places of ring 2: 64 bytes each in SIZE_MIB, none while its EN is zero (R613). -/
def flightRoom (d : Dev) : Nat := if d.on (R.TM_RING_CTRL 2) F.TM_RING_CTRL_EN then d.ringBytes 2 / 64 else 0

/-- A flight record goes into the next place of ring 2, over the record there. It is missed where it cannot be written (R612, R627), and what of it falls on an
unmapped segment is lost (R630). With no ring to write it is written nowhere (log entry 62). -/
def flightWrite (d : Dev) (r : Flight) : Dev :=
  if d.flightRoom = 0 then d
  else
    let turn := Sparse.get 0 d.tel.turns 2
    let place := turn % d.flightRoom
    let a := d.ringBase 2 + 64 * place
    let d := { d with tel := { d.tel with turns := Sparse.put 0 d.tel.turns 2 (turn + 1) } }
    if d.recordShut 2 a 64 then d.ringGapCount 2
    else
      let others := d.tel.flight.filter fun (f : Flight) => f.place ≠ place
      let d := { d with tel := { d.tel with flight := others ++ [{ r with place := place }] } }.ddrWrite a 64
      (d.inc R.FR_RECORDS).setNum (R.TM_RING_STAT 2) (((d.reg (R.TM_RING_STAT 2)).toNat + 1) % 2 ^ 32)

/-- Take one flight record; the egress port code is 0x3FF for an output that is no port. After the POST records that follow a trigger nothing is captured. -/
def capture (d : Dev) (unit : Nat) (raw : List Byte) (x : Bool) (arrT inPort outPort cause : Nat) : Dev :=
  if d.on R.TM_FR_CTRL F.TM_FR_CTRL_EN ∧ ¬ d.on R.TM_FR_CTRL F.TM_FR_CTRL_FROZEN ∧ d.tel.post ≠ some 0 then
    if d.mayCapture unit then
      let seq := (d.reg R.TM_FR_SEQ).toNat
      let r : Flight := { hdr := slice raw 0 32, ext := if x then slice raw 32 16 else List.replicate 16 0,
                          time := arrT / unitsPerNs, seq := seq, inPort := inPort, outPort := min outPort 0x3FF, cause := cause }
      let d := { d with tel := { d.tel with lastCap := Sparse.ins d.tel.lastCap unit d.lc, post := d.tel.post.map (· - 1) } }
      (d.setNum R.TM_FR_SEQ ((seq + 1) % 2 ^ 32)).flightWrite r
    else d.inc R.FR_MISSED
  else d

/-- The ingress port code of a packet as a record names it. -/
def inCode (k : Pkt) : Nat := if k.port < 1024 then k.port else 0x3FF

/-- The sampler's record of a packet is taken when its egress port is known, or none is to come (R614, R615). -/
def sampleNow (d : Dev) (k : Pkt) (out : Nat) : Dev :=
  if k.sampled then d.capture k.unit k.raw k.h.x k.arrT (inCode k) out 0 else d

/-- A unit, a pipeline or 16 + a vat bank, discards a packet: it is captured when DISCARDS is one (R614), after the sampler's record of it where one is due. -/
def captureAt (d : Dev) (unit : Nat) (k : Pkt) (outPort cause : Nat) : Dev :=
  let d := d.sampleNow k outPort
  if d.on R.TM_FR_CTRL F.TM_FR_CTRL_DISCARDS then d.capture unit k.raw k.h.x k.arrT (inCode k) outPort cause else d

/-- The unit at which a packet entered discards it. -/
def captureDrop (d : Dev) (k : Pkt) (outPort cause : Nat) : Dev := d.captureAt k.unit k outPort cause

/-- A unit discards a packet for a reason that R615 gives no cause: its record's cause is a free value. -/
def captureFree (d : Dev) (unit : Nat) (k : Pkt) (outPort : Nat) : Dev :=
  match d.draw with | (r, d) => d.captureAt unit k outPort (r.toNat % 256)

end Dev
end Sys2Proof.Machine
end

