-- ==== Sys2Proof/Machine/Packet.lean ====
section
/-! DEFINITION. Ryumi packets (spec/02_fabric_protocol.md): the header read from and written to bytes, the kind table, the checks on
form, and the packets the device holds. -/
namespace Sys2Proof.Machine

/-- The k-th 32-bit word of a header (R54). -/
def hdrWord (l : List Byte) (k : Nat) : Nat := beNat (slice l (4 * k) 4)

/-- The header fields that bytes carry (R55, R56); the extension is read only when X is one. -/
def parseHdr (l : List Byte) : Hdr :=
  let w0 := hdrWord l 0
  let w1 := hdrWord l 1
  let w2 := hdrWord l 2
  let x := bit w0 16
  let e k := if x then hdrWord l (8 + k) else 0
  { version := bits w0 31 28, vc := bits w0 27 25, epoch := bits w0 24 23, f := bit w0 22, m := bit w0 21, s := bit w0 20,
    l := bit w0 19, d := bit w0 18, e := bit w0 17, x := x, part := bits w0 15 4, hop := bits w0 3 0,
    dest := bits w1 31 14, plen := bits w1 13 0, src := bits w2 31 14, sub := bits w2 13 8, kind := bits w2 7 0,
    stream := bits (hdrWord l 3) 31 14, chunk := bits (hdrWord l 4) 31 8,
    off := e 0 * 2 ^ 14 + bits (e 1) 31 18, anchor := bits (e 1) 17 8, ofmt := bits (e 1) 7 3,
    rank := bits (e 2) 31 14, launch := bits (e 2) 7 0 * 2 ^ 32 + e 3 }

/-- The bytes of the base header without its CRC; reserved fields are sent as zero (R12). -/
def hdrBytes30 (h : Hdr) : List Byte :=
  let w0 := h.version * 2 ^ 28 + h.vc * 2 ^ 25 + h.epoch * 2 ^ 23 + b2n h.f * 2 ^ 22 + b2n h.m * 2 ^ 21 + b2n h.s * 2 ^ 20
    + b2n h.l * 2 ^ 19 + b2n h.d * 2 ^ 18 + b2n h.e * 2 ^ 17 + b2n h.x * 2 ^ 16 + h.part * 2 ^ 4 + h.hop
  beBytes w0 4 ++ beBytes (h.dest * 2 ^ 14 + h.plen) 4 ++ beBytes (h.src * 2 ^ 14 + h.sub * 2 ^ 8 + h.kind) 4
    ++ beBytes (h.stream * 2 ^ 14) 4 ++ beBytes (h.chunk * 2 ^ 8) 4 ++ List.replicate 10 0

/-- The bytes of the extension (R56); none when X is zero. -/
def extBytes (h : Hdr) : List Byte :=
  if h.x then
    beBytes (h.off / 2 ^ 14) 4 ++ beBytes (h.off % 2 ^ 14 * 2 ^ 18 + h.anchor * 2 ^ 8 + h.ofmt * 2 ^ 3) 4
      ++ beBytes (h.rank * 2 ^ 14 + h.launch / 2 ^ 32 % 256) 4 ++ beBytes (h.launch % 2 ^ 32) 4
  else []

/-- The header as transmitted, its CRC recomputed (R80, R82). -/
def hdrOut (h : Hdr) : List Byte :=
  hdrBytes30 h ++ beBytes (crc16 (hdrBytes30 h ++ extBytes h)) 2 ++ extBytes h

/-- Check 1 of R86 over the bytes as received. -/
def hdrCrcOk (l : List Byte) : Bool :=
  let x := bit (hdrWord l 0) 16
  crc16 (slice l 0 30 ++ if x then slice l 32 16 else []) = beNat (slice l 30 2)

/-- One row of the kind table (R65): kind, lowest and highest VC, whether X is required, least and greatest payload length. -/
structure KindRow where
  kind : Nat
  vcLo : Nat
  vcHi : Nat
  xReq : Bool
  payLo : Nat
  payHi : Nat
deriving DecidableEq, Repr

/-- The kind table of R65. -/
def kindTable : List KindRow :=
  [ ⟨0x01, 5, 5, false, 0, 8192⟩, ⟨0x02, 6, 6, false, 64, 8192⟩, ⟨0x03, 0, 0, false, 0, 8192⟩, ⟨0x04, 1, 6, false, 0, 0⟩ ] ++
  ((List.range 13).map fun k => ⟨0x10 + k, 1, 1, true, 0, 8192⟩) ++
  [ ⟨0x1D, 1, 1, true, 0, 0⟩, ⟨0x20, 2, 2, true, 0, 8192⟩ ] ++
  ((List.range 5).map fun k => ⟨0x30 + k, 3, 3, true, 0, 8192⟩) ++
  [ ⟨0x38, 4, 4, false, 0, 8192⟩, ⟨0x39, 4, 4, false, 0, 0⟩, ⟨0x3A, 4, 4, false, 0, 8192⟩, ⟨0x3B, 4, 4, true, 0, 0⟩ ] ++
  ((List.range 4).map fun k => ⟨0x40 + k, 7, 7, false, 0, 8192⟩)

/-- Whether kind, VC, X and payload length agree with the kind table. -/
def kindOk (h : Hdr) : Bool :=
  kindTable.any fun r => r.kind = h.kind && r.vcLo ≤ h.vc && h.vc ≤ r.vcHi && (h.x || !r.xReq) && r.payLo ≤ h.plen && h.plen ≤ r.payHi

/-- Check 2 of R86 (R57, R59, R60, R65). -/
def wellFormedHdr (h : Hdr) : Bool :=
  h.version = 1 && h.plen ≤ 8192 && kindOk h && (!h.x || h.ofmt < 0x0C) && !(h.m && (h.vc = 0 || h.vc = 1 || h.vc = 4))
    && !((h.vc = 2 || h.vc = 5 || h.vc = 6) && h.l && !h.x)

/-- The contribution kinds (R65). -/
def isContrib (k : Nat) : Bool := 0x10 ≤ k && k ≤ 0x1D

/-- The loss classes of R63. -/
def lossless (v : Nat) : Bool := v ≠ 5 && v ≠ 6

/-- The lossless VCs. -/
def losslessVcs : List Nat := [0, 1, 2, 3, 4, 7]

/-- The Ryumi packet length of R53. -/
def pktLen (h : Hdr) : Nat := 32 + (if h.x then 16 else 0) + h.plen + 4

/-- The cells of a packet (05_lake.md). -/
def pktCells (h : Hdr) : Nat := ceilDiv (pktLen h) 256

/-- The owning logical vat of a chunk (spec/07_collectives.md R225). -/
def chunkVat (stream chunk : Nat) : Nat := crc32c (beBytes (stream * 2 ^ 24 + chunk) 6) % 1536

/-- The member hash of R106. -/
def memberHash (src dest vc : Nat) : Nat := crc32c (beBytes (src * 2 ^ 22 + dest * 2 ^ 4 + vc * 2) 5)

/-- The lowest n numbers from `c` on that a list does not hold, looked for in as many steps as the first argument of the recursion. -/
def freeNumbers (used : List Nat) : Nat → Nat → Nat → List Nat
  | 0, _, _ => []
  | f + 1, n, c =>
    if n = 0 then [] else if used.contains c then freeNumbers used f n (c + 1) else c :: freeNumbers used f (n - 1) (c + 1)

/-- The crossbar output of a copy's destination (R138). -/
def outUnit (o : Nat) : Nat := if o < 1024 then o / 64 else 16 + (o - 1024)

/-- The unit that discards one copy of a packet: the egress pipeline or the vat bank where the copy has crossed, else the crossbar input's (R614). -/
def copyUnit (k : Pkt) (c : Copy) : Nat := match c.stage with | .voq | .cross => k.unit | _ => outUnit c.out

/-- Where a packet is discarded whole: the unit that holds it, and the output that it waits for, where it has one copy; else the unit that it entered at, and
none (DESIGN CHOICE, log entry 85). -/
def heldAt (k : Pkt) : Nat × Nat := match k.copies with | [c] => (copyUnit k c, c.out) | _ => (k.unit, 0x3FF)

/-- Cells of the main pool and of the whole packet buffer (R168); cell numbers below the first are the main pool's (log entry 67). -/
def mainCells : Nat := 917504
def allCells : Nat := 1310720

namespace Dev

/-! The packets held. -/

/-- Replace the list of packets. -/
def setPkts (d : Dev) (l : List Pkt) : Dev := { d with core := { d.core with pkts := l } }

/-- The packet of a number. -/
def pkt? (d : Dev) (id : Nat) : Option Pkt := d.core.pkts.find? fun k => k.id = id

/-- Replace a packet in its place. -/
def putPkt (d : Dev) (k : Pkt) : Dev := d.setPkts (d.core.pkts.map fun q => if q.id = k.id then k else q)

/-! Lake's cells and the pointers by which they return (spec/05_lake.md R169, R190, R191). -/

/-- The record of a bad pointer. -/
def badPointer (d : Dev) (check : Nat) (gran : Bool) (addr unit : Nat) : Dev :=
  let last := check * 2 ^ 30 + b2n gran * 2 ^ 29 + addr % 2 ^ 29
  let d := (d.inc R.LK_PTR_BAD).setNum R.LK_PTR_LAST last
  let d := d.setNum R.LK_PTR_UNIT unit
  d.error 0x08 0 0x28 2 [last, unit]

/-- The check of R190 that a cell pointer fails, 0 for none: 1 range, 2 alignment, 3 ownership; of several the first in the order of the list (DESIGN CHOICE, log
entry 91). -/
def cellCheck (d : Dev) (unit addr : Nat) : Nat :=
  if 335544320 ≤ addr then 1 else if addr % 256 ≠ 0 then 2 else if Sparse.find d.core.cells (addr / 256) = some unit then 0 else 3

/-- A unit returns a cell pointer. -/
def cellBack (d : Dev) (unit addr : Nat) : Dev :=
  if d.cellCheck unit addr = 0 then { d with core := { d.core with cells := Sparse.del d.core.cells (addr / 256) } }
  else d.badPointer (d.cellCheck unit addr) false addr unit

/-- Allocate n cells of the pool that begins at `base` to a unit: the lowest free numbers (log entry 67). -/
def cellsFor (d : Dev) (base n unit : Nat) : List Nat × Dev :=
  let used := d.core.cells.map (·.1)
  let l := freeNumbers used (n + used.length) n base
  (l, { d with core := { d.core with cells := l.foldl (fun c a => Sparse.ins c a unit) d.core.cells } })

/-- The cells of a packet become those of another crossbar unit (R170). -/
def cellsMove (d : Dev) (l : List Nat) (unit : Nat) : Dev :=
  { d with core := { d.core with cells := d.core.cells.map fun x => if l.contains x.1 then (x.1, unit) else x } }

/-- Take a packet out; its cells return to Lake (R169), or stay with a NACK that shares them (R170). `ptr`: a wrong pointer that the unit returns in
place of the first. The cells are those of the crossbar unit at which the packet was admitted, whichever unit ends its last copy, and of the vat bank after a deflection
(DESIGN CHOICE, log entry 91). -/
def takeWith (d : Dev) (id : Nat) (ptr : Option Nat) : Dev :=
  match d.pkt? id with
  | none => d
  | some k =>
    let d := d.setPkts (d.core.pkts.filter fun q => q.id ≠ id)
    match d.core.pkts.find? fun q => q.share = some id with
    | some q => d.putPkt { q with main := k.main, hr := k.hr, owners := k.owners, occ := k.occ, cellsAt := k.cellsAt, share := none }
    | none =>
      let l := k.cellsAt.map (256 * ·)
      (match ptr with | none => l | some a => l.drop 1 ++ [a]).foldl (fun d a => d.cellBack k.unit a) d

/-- Take a packet out. -/
def takePkt (d : Dev) (id : Nat) : Dev := d.takeWith id none

/-- Put a packet at the end of the list: admission order (R142). -/
def addPkt (d : Dev) (k : Pkt) : Dev := d.setPkts (d.core.pkts.filter (fun q => q.id ≠ k.id) ++ [k])

/-- A fresh packet number. -/
def freshId (d : Dev) : Nat × Dev := (d.core.nextId, { d with core := { d.core with nextId := d.core.nextId + 1 } })

/-- Count an event of R94 in the pipeline and at the port (R607). -/
def count2 (d : Dev) (pl port a b : Nat) : Dev := if port < 1024 then (d.inc (a + 0x1000000 * pl)).inc (b + 0x400 * port) else d.inc (a + 0x1000000 * pl)

/-- Age of a packet in local counts (R161, R663). -/
def age (d : Dev) (k : Pkt) : Nat := d.lc - k.age0

/-- The age limit of a VC in local counts (R162). -/
def ageLimit (d : Dev) (v : Nat) : Nat := usCounts (d.fld (R.SC_AGE v) F.SC_AGE_US)

/-- The longest age limit of any VC, in microseconds (R40, R125). -/
def maxAgeUs (d : Dev) : Nat := (List.range 8).foldl (fun m v => max m (d.fld (R.SC_AGE v) F.SC_AGE_US)) 0

/-- The link of a port code beside its registers. -/
def lk (d : Dev) (c : Nat) : Lk := Sparse.get {} d.link.lk c
def setLk (d : Dev) (c : Nat) (l : Lk) : Dev := { d with link := { d.link with lk := Sparse.put {} d.link.lk c l } }

/-- Whether a physical port is in split mode: the mode in use while a link trains or is up, else the mode SPLIT selects. -/
def isSplit (d : Dev) (p : Nat) : Bool :=
  let live (c : Nat) := 1 ≤ d.linkState c && d.linkState c ≤ 5
  if live (2 * p) || live (2 * p + 1) then Sparse.get false d.link.mode p else d.on (R.YZ_CTRL p) F.YZ_CTRL_SPLIT

/-- Whether a port code names a port (R100). -/
def namesPort (d : Dev) (c : Nat) : Bool := c < 1024 && (c % 2 = 0 || d.isSplit (c / 2))

/-- Whether the link of a port code is UP; a port of an Indigo circuit counts as down (R396). -/
def linkUp (d : Dev) (c : Nat) : Bool := c < 1024 && d.linkState c = 5 && d.namesPort c

/-- The rate of one direction of a port code in Gb/s, `st` its lane state: with seven logical lanes 840 in full mode (R368, R383, R425, R429). -/
def dirRate (d : Dev) (c st : Nat) : Nat := if d.isSplit (c / 2) then 480 else if st = 2 then 840 else 960

/-- The rate at which a port code receives. -/
def rateIn (d : Dev) (c : Nat) : Nat := d.dirRate c (d.lk c).rxSt

/-- The rate at which a port code sends. -/
def rateOut (d : Dev) (c : Nat) : Nat := d.dirRate c (d.lk c).txSt

/-- Whether Lake works: it is not quiesced (R38, R41). -/
def lakeOn (d : Dev) : Bool := !d.on R.QSTAT_LAKE F.QACK

/-- Whether the units that serve a port code, Lake and its optical engine, are quiesced, so that its traffic stops (R41, log entry 68). -/
def portShut (d : Dev) (c : Nat) : Bool := !d.lakeOn || d.on (R.QSTAT_OE (c / 32)) F.QACK

/-- Whether a port drains or is quiesced, by its own QREQ or by that of its pipeline, or is held by the units that serve it (01_architecture.md, R41). -/
def portHeld (d : Dev) (c : Nat) : Bool := d.on (R.QCTRL_PORT (c / 2)) F.QREQ || d.on (R.QCTRL_PL (plOf c)) F.QREQ || d.portShut c

/-- Whether a packet stands at or beyond the age limit of its VC (R162). A packet that waits for its cells has no age yet (R663). The limit is SC_AGE as it
stands now: R37 does not say whether a packet that waits in a queue at a boundary has begun in that block, and the model takes it that it has not (DESIGN
CHOICE, log entry 87). -/
def aged (d : Dev) (k : Pkt) : Bool := k.place ≠ .waitCells && d.ageLimit k.h.vc ≤ d.age k

end Dev
end Sys2Proof.Machine
end

