-- ==== Sys2Proof/Machine/Lake.lean ====
section
/-! DEFINITION. The Lake buffer pool manager: cells, owners, thresholds, admission and push-out (spec/05_lake.md R168 to R184), headroom
(spec/04_switch_core.md R154 to R157), the granules of a vat (R173, R185, R186) and the pointer checks (R190, R191). Everything in use is
computed from the packets and contexts held, so that it cannot disagree with them. -/
namespace Sys2Proof.Machine

/-- Add to the use of an owner. -/
def addUse : List (Owner × Nat) → Owner → Nat → List (Owner × Nat)
  | [], o, n => [(o, n)]
  | (p, m) :: r, o, n => if p = o then (p, m + n) :: r else (p, m) :: addUse r o n

namespace Dev

/-- The reserved partition entry that names a partition (R172). -/
def partEntry (d : Dev) (p : Nat) : Option Nat :=
  (List.range 16).find? fun i => d.on (R.LK_PART_A i) F.LK_PART_A_VALID && d.fld (R.LK_PART_A i) F.LK_PART_A_PARTITION = p

/-- The owners of a packet admitted from a port (R171, R172). -/
def portOwners (d : Dev) (port vc part : Nat) : List Owner :=
  .pg (port / 16) vc :: (match d.partEntry part with | some i => [.part i] | none => [])

/-- The minimum of an owner; one of a reserved partition entry counts while the entry is valid. -/
def ownerMin (d : Dev) : Owner → Nat
  | .pg _ v => d.fld (R.LK_PGMIN v) F.LK_PGMIN_LO_MIN
  | .part i => if d.on (R.LK_PART_A i) F.LK_PART_A_VALID then d.fld (R.LK_PART_B i) F.LK_PART_B_CELL_MIN else 0
  | .res _ => d.fld R.LK_VBRES F.LK_VBRES_RESULT_MIN

/-- The sum of all cell minima. -/
def minSum (d : Dev) : Nat :=
  64 * ((List.range 8).map fun v => d.ownerMin (.pg 0 v)).sum + ((List.range 16).map fun i => d.ownerMin (.part i)).sum
    + 16 * d.ownerMin (.res 0)

/-- Main-pool cells in use, owner by owner. -/
def uses (d : Dev) : List (Owner × Nat) :=
  d.core.pkts.foldl (fun l k => if k.main = 0 then l else k.owners.foldl (fun l o => addUse l o k.main) l) []

/-- The outstanding reserve for given uses (R173): each owner contributes max(0, minimum - in use). -/
def reserveFor (d : Dev) (l : List (Owner × Nat)) : Nat :=
  d.minSum - (l.map fun (o, n) => min n (d.ownerMin o)).sum

/-- OUTSTANDING. -/
def outstanding (d : Dev) : Nat := d.reserveFor d.uses

/-- MAIN_FREE; a cell whose pointer has not come back stays out of service (R191). -/
def mainFree (d : Dev) : Nat := mainCells - d.core.cells.countP fun x => x.1 < mainCells

/-- Headroom cells that no packet holds and that have not come back (R191). -/
def hrLost (d : Dev) : Nat := d.core.cells.countP fun x => mainCells ≤ x.1 && !d.core.pkts.any fun k => k.cellsAt.contains x.1

/-- Whether R173 grants n cells charged to owners; Lake grants none while it is quiesced (R41). -/
def grants (d : Dev) (n : Nat) (os : List Owner) : Bool :=
  d.lakeOn && n ≤ d.mainFree && d.reserveFor (os.foldl (fun l o => addUse l o n) d.uses) ≤ d.mainFree - n

/-- The stop threshold of a VC (R176). -/
def stopThr (d : Dev) (v : Nat) : Nat :=
  min (d.fld (R.LK_ITH v) F.LK_ITH_LO_STOP_MAX) ((d.mainFree - d.outstanding) * d.fld (R.LK_ITH v) F.LK_ITH_LO_ALPHA / 16)

/-- Ingress occupancy of (port code, VC). -/
def occOf (d : Dev) (port vc : Nat) : Nat := ((d.core.pkts.filter fun k => k.occ = some (port, vc)).map (·.main)).sum

/-- Headroom in use of a port code. -/
def hrUse (d : Dev) (port : Nat) : Nat := ((d.core.pkts.filter fun k => k.port = port).map (·.hr)).sum

/-- POOL_WARN (R182). -/
def poolWarn (d : Dev) : Bool := d.mainFree < d.fld R.LK_WARN F.LK_WARN_WARN_LEVEL

/-- The egress depth: the cells that have been granted across the crossbar to (output, VC) of the packets that are not completed there. Of a packet part-way
across those count that have crossed (DEDUCED, log entry 31). -/
def depth (d : Dev) (out vc : Nat) : Nat :=
  ((d.core.pkts.filter fun k => k.h.vc = vc).map fun k => ((k.copies.filter fun c => c.out = out).map fun c =>
    match c.stage with | .voq => 0 | .cross => c.n | .egress => k.cells | .sending => k.cells | _ => 0).sum).sum

/-- Cells in the virtual output queues of every input and in the egress queue of (output, VC) together (R183). A copy in transmission still counts among them, as
in egress depth (DESIGN CHOICE, log entry 89). -/
def backlog (d : Dev) (out vc : Nat) : Nat :=
  ((d.core.pkts.filter fun k => k.h.vc = vc).map fun k => ((k.copies.filter fun c => c.out = out).map fun _ => k.cells).sum).sum

/-- A packet that may be pushed out (R165, R183): its copy. -/
def victimCopy (k : Pkt) (vc : Nat) : Option Copy :=
  if k.h.vc = vc ∧ k.place = .queued ∧ ¬ k.h.m then
    match k.copies with
    | [c] => if c.stage = .voq ∨ c.stage = .egress then some c else none
    | _ => none
  else none

/-- The output of a packet that may be pushed out. -/
def victimOut (k : Pkt) (vc : Nat) : Option Nat := (victimCopy k vc).map (·.out)

/-- A packet that is pushed out is captured at the unit that holds it (R614 cause 0x0C). -/
def pushCapture (d : Dev) (k : Pkt) : Dev :=
  match victimCopy k k.h.vc with
  | some c => d.captureAt (copyUnit k c) k c.out 0x0C
  | none => d

/-- The next victim of a class: of the (output, VC) with the greatest backlog among those that hold a candidate, the packet admitted
last. Equal backlogs: the lowest port code (log entry 11). -/
def victim (d : Dev) (vc : Nat) : Option Pkt :=
  let outs := d.core.pkts.filterMap fun k => victimOut k vc
  match outs.foldl (fun best o =>
      match best with
      | none => some o
      | some b => if d.backlog b vc < d.backlog o vc ∨ (d.backlog b vc = d.backlog o vc ∧ o < b) then some o else some b) none with
  | none => none
  | some o => (d.core.pkts.reverse).find? fun k => victimOut k vc = some o

/-- Push out packets of lower classes until the arrival is granted (R183, R184); `n` victims are left. -/
def pushOut (vc need : Nat) (os : List Owner) : Nat → Dev → Dev
  | 0, d => d
  | n + 1, d =>
    if d.grants need os then d
    else
      let v5 := if vc = 5 then none else d.victim 5
      let v := match v5 with | some k => some k | none => if vc = 5 ∨ vc = 6 then none else d.victim 6
      match v with
      | none => d
      | some k => pushOut vc need os n (((d.takePkt k.id).inc R.LK_PUSHOUT).pushCapture k)

/-- A packet charged to the main pool, with its cells. -/
def chargeMain (d : Dev) (k : Pkt) (os : List Owner) (occ : Bool) : Pkt × Dev :=
  match d.cellsFor 0 k.cells k.unit with
  | (l, d) => ({ k with main := k.cells, hr := 0, owners := os, occ := if occ then some (k.port, k.h.vc) else none, cellsAt := l }, d)

/-- A packet charged to the headroom of its port, with its cells. -/
def chargeHr (d : Dev) (k : Pkt) : Pkt × Dev :=
  match d.cellsFor mainCells k.cells k.unit with
  | (l, d) => ({ k with main := 0, hr := k.cells, owners := [], occ := none, cellsAt := l }, d)

/-- Count an admission to the main pool. -/
def countAdmit (d : Dev) (k : Pkt) : Dev := (d.inc R.LK_ADMIT_MAIN).pm .lake 0x0301 (some k.h.vc) k.cells

/-- Whether packets admitted on the way from `d` to `e` take more headroom of a port than is reserved for it: the results are unpredictable (the controller errors of
spec/05_lake.md, R157, R178). A quiesced port has none reserved; what it takes all the same is no such error of the controller, and is charged to headroom like any other
(DESIGN CHOICE, log entry 91). -/
def overdraws (d e : Dev) : Bool :=
  let use (x : Dev) (p : Nat) : Nat := x.hrUse (2 * p) + x.hrUse (2 * p + 1)
  e.core.pkts.any fun k =>
    let p := k.port / 2
    let n := Sparse.get 0 e.core.hr p
    k.port < 1024 && 0 < n && use d p < use e p && n < use e p

/-- Admission of a packet from a port towards an egress port code, 0x3FF for none or for several (R178, R179). Answers the packet with its charges, or none when
it is discarded. A best-effort packet from a port that drains or is quiesced is discarded (01_architecture.md). An arrival that is refused only because Lake is
quiesced pushes out as any other does (R183; DESIGN CHOICE, log entry 89). -/
def admitPkt (d : Dev) (k : Pkt) (out : Nat) : Dev × Option Pkt :=
  let v := k.h.vc
  let drop (d : Dev) := (d.inc R.LK_BE_DROP).captureDrop k out 0x0B
  let hr (d : Dev) : Dev × Option Pkt := match d.chargeHr k with | (k, d) => (d.inc R.LK_ADMIT_HR, some k)
  if ¬ lossless v ∧ d.portHeld k.port then (drop d, none)
  else if d.stopThr v ≤ d.occOf k.port v then
    if lossless v then hr d else (drop d, none)
  else
    let os := d.portOwners k.port v k.h.part
    let d := if ¬ d.grants k.cells os ∧ d.on R.LK_PUSH F.LK_PUSH_PUSH_EN
      then pushOut v k.cells os (d.fld R.LK_PUSH F.LK_PUSH_PUSH_MAX) d else d
    if d.grants k.cells os then match d.chargeMain k os true with | (k, d) => (d.countAdmit k, some k)
    else if lossless v then hr d
    else (drop d, none)

/-- Cells reserved for one port of a mode and its lengths (R156). -/
def headroomCells (split : Bool) (l0 l1 : Nat) : Nat :=
  let one (r l : Nat) := ceilDiv (r * (10 * l + 500) + 8448) 256
  if split then one 60 l0 + one 60 l1 else one 120 l0

/-! Granules (R173, R185, R186). -/

/-- What a context holds in its vat: class, partition entry, first granule and run. -/
structure GranUse where
  cls : Nat
  part : Option Nat
  first : Nat
  run : Nat
deriving DecidableEq, Repr

/-- Granule minima of the classes and of the partition entries. -/
def classMin (d : Dev) (c : Nat) : Nat := bits (d.reg R.LK_CLASSMIN).toNat (8 * c + 7) (8 * c)
def granMin (d : Dev) (i : Nat) : Nat :=
  if d.on (R.LK_PART_A i) F.LK_PART_A_VALID then d.fld (R.LK_PART_B i) F.LK_PART_B_GRAN_MIN else 0

/-- The outstanding granule reserve of a vat. -/
def granReserve (d : Dev) (l : List GranUse) : Nat :=
  ((List.range 4).map fun c => d.classMin c - ((l.filter fun g => g.cls = c).map (·.run)).sum).sum
    + ((List.range 16).map fun i => d.granMin i - ((l.filter fun g => g.part = some i).map (·.run)).sum).sum

/-- The run size for tally bytes. -/
def runFor (b : Nat) : Nat :=
  let k := ceilDiv b 4096
  if k ≤ 1 then 1 else if k ≤ 2 then 2 else if k ≤ 4 then 4 else 8

/-- The lowest free aligned run of g granules in a vat, when R173 grants it (log entry 67). -/
def allocRun (d : Dev) (l : List GranUse) (cls : Nat) (part : Option Nat) (g : Nat) : Option Nat :=
  let free := 64 - (l.map (·.run)).sum
  if g ≤ free ∧ d.granReserve (l ++ [⟨cls, part, 0, g⟩]) ≤ free - g then
    ((List.range (64 / g)).map (· * g)).find? fun f => l.all fun u => f + g ≤ u.first || u.first + u.run ≤ f
  else none

/-- The check of R190 that a granule pointer fails, 0 for none: `own` is the physical vat, first granule and run of the context that returns it, which may return a part
of its run. Of several checks the first in the order of the list counts, and a run of 0 granules fails the second (DESIGN CHOICE, log entry 91). -/
def granCheck (own : Nat × Nat × Nat) (vat first run : Nat) : Nat :=
  if 64 ≤ first ∨ 1600 ≤ vat then 1 else if run = 0 ∨ first % run ≠ 0 then 2
  else if vat = own.1 ∧ own.2.1 ≤ first ∧ first + run ≤ own.2.1 + own.2.2 then 0 else 3

/-! Flow control (R153 to R155, R177, R182). -/

/-- POOL_WARN's event, at most once in a beat (R182). -/
def warnUpdate (d : Dev) : Dev :=
  let w := d.poolWarn
  let first := w ∧ ¬ d.core.warn ∧ d.core.warnBeat ≠ d.time.beat + 1
  let d := if first then d.event 2 0x8005 (beBytes d.mainFree 4) else d
  { d with core := { d.core with warn := w, warnBeat := if first then d.time.beat + 1 else d.core.warnBeat } }

/-- The XOFF bit of a lossless VC by its thresholds alone (R177). -/
def xoffBit (d : Dev) (c v : Nat) (old : Bool) : Bool :=
  let t := d.stopThr v
  let o := d.occOf c v
  let gap := d.fld (R.LK_IRES v) F.LK_IRES_RESUME_GAP
  if t ≤ o then true else if gap ≤ t ∧ o + gap ≤ t then false else old

/-- The XOFF vector of a port code and its headroom stop (R153 to R155, R177). The stop and the thresholds hold their bits whatever the link; a hold of the port
does while the link is UP (R152). Before UP no vector is sent (`ctlSlot`). The thresholds go on acting while all bits are held, so that afterwards each bit is as they
alone give it. -/
def xoffUpdate (d : Dev) (c : Nat) : Dev :=
  let a := R.SC_XOFF c
  let stop : Bool := 0 < d.hrUse c
  let thr := ((losslessVcs.filter fun v => d.xoffBit c v (bit (Sparse.get 0 d.core.xoffThr c) v)).map (2 ^ ·)).sum
  let v := if stop || (d.linkState c = 5 && d.portHeld c) then 0x9F else thr
  let d := { d with core := { d.core with xoffThr := Sparse.put 0 d.core.xoffThr c thr } }
  let d := if stop && !d.on a F.SC_XOFF_HR_STOP then d.inc R.SC_HR_STOP else d
  (d.setFld a F.SC_XOFF_XOFF_SENT v).setFld a F.SC_XOFF_HR_STOP (b2n stop)

/-- The port codes whose vector can differ from zero: those that are UP, those that have one and those with packets here; every logical port where a stop
threshold is zero, which no occupancy is below. -/
def xoffCodes (d : Dev) : List Nat :=
  (((if losslessVcs.any fun v => d.stopThr v = 0 then (List.range 1024).filter fun c => c % 2 = 0 || d.isSplit (c / 2) else []) ++ d.csr.regs.filterMap fun (x : Nat × Word) =>
    let o := x.1 - 0x05000000
    if 0x05000000 ≤ x.1 ∧ o < 0x20000 then
      (if o % 0x100 = 0x14 then some (2 * (o / 0x100)) else if o % 0x100 = 0x28 then some (2 * (o / 0x100) + 1) else none)
    else if 0x02002000 ≤ x.1 ∧ x.1 < 0x02003000 then some ((x.1 - 0x02002000) / 4) else none) ++
    d.core.pkts.filterMap fun k => if k.port < 1024 then some k.port else none).eraseDups

/-- Flow control at every port code. -/
def flow (d : Dev) : Dev := if d.powered then d.warnUpdate.xoffCodes.foldl xoffUpdate d.warnUpdate else d

end Dev
end Sys2Proof.Machine
end

