-- ==== Sys2Proof/Machine/Tables.lean ====
section
/-! DEFINITION. The forwarding tables and the exact-match table with their access windows (spec/03_forwarding.md R95 to R102,
R114 to R123, R128 to R137). -/
namespace Sys2Proof.Machine

/-! Exact-match entries, as their 16 bytes. -/

def emMac (e : List Byte) : List Byte := slice e 0 6
def emPart (e : List Byte) : Nat := bits (leNat (slice e 6 2)) 11 0
def emValid (e : List Byte) : Bool := bit (leNat (slice e 6 2)) 12
def emStatic (e : List Byte) : Bool := bit (leNat (slice e 6 2)) 13
def emPort (e : List Byte) : Nat := bits (leNat (slice e 8 2)) 9 0
def emStamp (e : List Byte) : Nat := leNat (slice e 10 2)

/-- An entry with VALID one. -/
def mkEm (part : Nat) (mac : List Byte) (port stamp : Nat) : List Byte :=
  slice mac 0 6 ++ leBytes (part % 4096 + 2 ^ 12) 2 ++ leBytes (port % 1024) 2 ++ leBytes stamp 2 ++ [0, 0, 0, 0]

/-- The bucket of a key (R114). -/
def emBucket (part : Nat) (mac : List Byte) : Nat := crc32c (beBytes (part % 4096) 2 ++ slice mac 0 6) % 16384

/-- Whether an entry holds a key. -/
def emIs (part : Nat) (mac : List Byte) (e : List Byte) : Bool := emValid e && emPart e = part % 4096 && emMac e = slice mac 0 6

/-- The overflow entries without one: the last entry of its bucket takes its place (R623). Entries of a bucket stand in the list in the order of
their block. -/
def ovfDrop (l : List (List Byte)) (part : Nat) (mac : List Byte) : List (List Byte) :=
  match (l.filter fun e => emBucket (emPart e) (emMac e) = emBucket part mac).getLast? with
  | none => l
  | some z => if emIs part mac z then l.filter fun e => !emIs part mac e else (l.erase z).map fun e => if emIs part mac e then z else e

/-- Entries and bytes of each table of R132's TABLE codes. -/
def tblSize (t : Nat) : Nat × Nat :=
  if t = 1 then (262144, 4) else if t = 2 then (4096, 64) else if t = 3 then (4096, 144) else if t = 4 then (4096, 4) else (65536, 16)

namespace Dev

/-- Current epoch and PREV_HELD of a pipeline. -/
def curEpoch (d : Dev) (p : Nat) : Nat := d.fld (R.FW_EPOCH p) F.FW_EPOCH_CUR_EPOCH
def prevHeld (d : Dev) (p : Nat) : Bool := d.on (R.FW_EPOCH p) F.FW_EPOCH_PREV_HELD

/-- The bank of R97 that the current or the previous epoch uses. -/
def bankOf (d : Dev) (p : Nat) (prev : Bool) : Nat := (d.curEpoch p + b2n prev) % 2

/-- Entries as a lookup reads them. -/
def chipEntry (d : Dev) (p bank chip : Nat) : Nat := Sparse.get 0 d.tab.chip ((2 * p + bank) * 262144 + chip)
def bundleEntry (d : Dev) (p bank b : Nat) : List Byte := Sparse.get (List.replicate 64 0) d.tab.bundle ((2 * p + bank) * 4096 + b)
def treeEntry (d : Dev) (p bank t : Nat) : List Byte := Sparse.get (List.replicate 144 0) d.tab.tree ((2 * p + bank) * 4096 + t)

/-- Whether a tree has a valid entry in a bank. -/
def treeValid (d : Dev) (p bank t : Nat) : Bool := t < 4096 && bit (leNat (slice (d.treeEntry p bank t) 0 4)) 31

/-- The port codes a tree selects, those that name no port left out (R112). -/
def treePorts (d : Dev) (p bank t : Nat) : List Nat :=
  let e := d.treeEntry p bank t
  if d.treeValid p bank t then
    (List.range 128).flatMap fun k =>
      let b := byteAt e (16 + k)
      if b = 0 then [] else ((List.range 8).map (8 * k + ·)).filter fun c => bit b (c % 8) && d.namesPort c
  else []

/-! The exact-match table. -/

/-- The on-die slot of a key's own bucket that holds it. One that a WRITE put elsewhere is not found by EM_INSERT, EM_DELETE, EM_FIND and learning (DESIGN CHOICE, log entry 90). -/
def emSlot (d : Dev) (part : Nat) (mac : List Byte) : Option Nat :=
  ((List.range 4).map (4 * emBucket part mac + ·)).find? fun i =>
    match Sparse.find d.tab.em i with | some e => emIs part mac e | none => false

/-- An on-die entry. -/
def emAt (d : Dev) (i : Nat) : List Byte := Sparse.get (List.replicate 16 0) d.tab.em i

/-- The overflow entry of a key. -/
def emOvf (d : Dev) (part : Nat) (mac : List Byte) : Option (List Byte) := d.tab.ovf.find? (emIs part mac)

/-- The spill count of a bucket (R115). -/
def spill (d : Dev) (bucket : Nat) : Nat := d.tab.ovf.countP fun e => emBucket (emPart e) (emMac e) = bucket

/-- Whether one of the first `n` entries of the overflow block of a bucket lies in a channel that takes no access (R623, R627). -/
def ovfShut (d : Dev) (b n : Nat) : Bool := d.ddrShut (ovfBase b) (16 * n)

/-- Whether an operation on a key waits for a channel in which its overflow entries or, with `ins`, the entry that it adds lie (R627). -/
def emWaits (d : Dev) (part : Nat) (mac : List Byte) (ins : Bool) : Bool :=
  let b := emBucket part mac
  let adds := ins && (d.emOvf part mac).isNone && (List.range 4).all fun i => emValid (d.emAt (4 * b + i))
  (d.emSlot part mac).isNone && d.ovfShut b (d.spill b + b2n adds)

/-- An entry wherever it is. -/
def emFind (d : Dev) (part : Nat) (mac : List Byte) : Option (List Byte) :=
  match d.emSlot part mac with | some i => some (d.emAt i) | none => d.emOvf part mac

/-- Set an on-die slot in all 16 copies (R96): what it holds then is no entry that a WRITE put there. -/
def setEm (d : Dev) (i : Nat) (e : List Byte) : Dev :=
  { d with tab := { d.tab with em := Sparse.put (List.replicate 16 0) d.tab.em i e, emWr := d.tab.emWr.filter (· ≠ i) } }

/-- A slot's entry is one that a WRITE put there. -/
def emWritten (d : Dev) (i : Nat) : Dev := { d with tab := { d.tab with emWr := d.tab.emWr ++ [i] } }

/-- Replace the overflow store: place i of the block of bucket b is written. -/
def setOvf (d : Dev) (l : List (List Byte)) (b i : Nat) : Dev := { d with tab := { d.tab with ovf := l } }.ddrWrite (ovfBase b + 16 * i) 16

/-- The overflow entries of a bucket in the order of their block, one by its place there, and the place of a key: the spill count where it has none. -/
def ovfBlock (d : Dev) (b : Nat) : List (List Byte) := d.tab.ovf.filter fun e => emBucket (emPart e) (emMac e) = b
def ovfAt (d : Dev) (b i : Nat) : Option (List Byte) := (d.ovfBlock b)[i]?
def ovfPlace (d : Dev) (part : Nat) (mac : List Byte) : Nat := (d.ovfBlock (emBucket part mac)).findIdx (emIs part mac)

/-- An overflow entry is removed (R623): the last entry of the block is written into its place, unless it is the last itself. -/
def ovfRemove (d : Dev) (part : Nat) (mac : List Byte) : Dev :=
  let b := emBucket part mac
  let l := ovfDrop d.tab.ovf part mac
  if d.ovfPlace part mac + 1 < d.spill b then d.setOvf l b (d.ovfPlace part mac) else { d with tab := { d.tab with ovf := l } }

/-- An access to LPDDR6 waits (R627). -/
def later (d : Dev) (w : DdrWait) : Dev := { d with ddr := { d.ddr with late := d.ddr.late ++ [w] } }

/-- Entries of a bucket that cannot be read are removed, at once or when the channels of their block are released (R625, R627). -/
def ovfGone (d : Dev) (b : Nat) (l : List (List Byte)) : Dev :=
  if l = [] then d
  else if d.ovfShut b (d.spill b) then d.later (.lose b l)
  else l.foldl (fun (d : Dev) e => if d.tab.ovf.contains e then d.ovfRemove (emPart e) (emMac e) else d) d

/-- Those in given places of its block are. -/
def ovfLose (d : Dev) (b : Nat) (l : List Nat) : Dev := d.ovfGone b (l.filterMap (d.ovfAt b))

/-- The live entries of a block are read (R115, R118, R623): whether all came. Those in bursts that are uncorrectable are removed, and the spill count is
corrected (R625). -/
def ovfRead (d : Dev) (b : Nat) : Bool × Dev :=
  match d.burstsRead (ddrBursts (ovfBase b) (16 * d.spill b)) with
  | ([], d) => (true, d)
  | (l, d) => (false, d.ovfLose b (l.flatMap fun x => [2 * (x % 32), 2 * (x % 32) + 1]))

/-- An operation looks for a key: where no on-die slot holds it the entries of its overflow block are read (log entry 84). -/
def emLook (d : Dev) (part : Nat) (mac : List Byte) : Dev := if (d.emSlot part mac).isSome then d else (d.ovfRead (emBucket part mac)).2

/-- Place an entry by its key, replacing one with that key; false when the bucket and its 64 overflow entries (R623) are
full. Of several free slots the lowest
is taken (log entry 12). -/
def emInsert (d : Dev) (e : List Byte) : Dev × Bool :=
  let part := emPart e
  let mac := emMac e
  match d.emSlot part mac with
  | some i => (d.setEm i e, true)
  | none =>
    let b := emBucket part mac
    if (d.emOvf part mac).isSome then (d.setOvf (d.tab.ovf.map fun x => if emIs part mac x then e else x) b (d.ovfPlace part mac), true)
    else
      match ((List.range 4).map (4 * b + ·)).find? fun i => ¬ emValid (d.emAt i) with
      | some i => (d.setEm i e, true)
      | none => if d.spill b < 64 then (d.setOvf (d.tab.ovf ++ [e]) b (d.spill b), true) else (d, false)

/-- VALID of an on-die slot is cleared; its other bytes stay. -/
def emClear (d : Dev) (i : Nat) : Dev :=
  d.setEm i (splice (d.emAt i) 6 (leBytes (putBits (leNat (slice (d.emAt i) 6 2)) 12 12 0) 2))

/-- Remove an entry. -/
def emRemove (d : Dev) (part : Nat) (mac : List Byte) : Dev × Bool :=
  match d.emSlot part mac with
  | some i => (d.emClear i, true)
  | none =>
    if (d.emOvf part mac).isSome then (d.ovfRemove part mac, true) else (d, false)

/-- Whether EM_FLUSH of a partition, or of all, removes an entry: a dynamic one. -/
def emFlushed (all : Bool) (part : Nat) (e : List Byte) : Bool := emValid e && !emStatic e && (all || emPart e = part)

/-- The buckets whose spill count is not zero. -/
def spilled (d : Dev) : List Nat := (d.tab.ovf.map fun e => emBucket (emPart e) (emMac e)).eraseDups

/-- Remove dynamic entries of a partition, or of all (EM_FLUSH), after every overflow block with an entry has been read: on die slot by slot, so that one which a
WRITE put outside its key's bucket goes too. -/
def emFlush (d : Dev) (all : Bool) (part : Nat) : Dev :=
  let hit := emFlushed all part
  let d := d.spilled.foldl (fun (d : Dev) b => (d.ovfRead b).2) d
  let d := (d.tab.ovf.filter hit).foldl (fun (d : Dev) e => d.ovfRemove (emPart e) (emMac e)) d
  (d.tab.em.filter fun x => hit x.2).foldl (fun d x => d.emClear x.1) d

/-- Bits [31:16] of the current beat: the STAMP of R120. -/
def stampNow (d : Dev) : Nat := bits d.beatNo 31 16

/-- Queue a learn (R120, R121). -/
def learnQueue (d : Dev) (p part : Nat) (mac : List Byte) (port : Nat) : Dev :=
  if d.on (R.EM_CTRL p) F.EM_CTRL_LEARN_EN ∧ ¬ bit (byteAt mac 0) 0 then
    if 256 ≤ (d.tab.learnQ.filter fun l => l.pl = p).length then d.inc (R.EM_LEARN_DROP p)
    else { d with tab := { d.tab with learnQ := d.tab.learnQ ++ [⟨p, part, mac, port⟩] } }
  else d

/-- Make one learn (R120). A refresh leaves an entry that a WRITE put there one that a WRITE put there (log entry 89). -/
def learnApply (d : Dev) (l : Learn) : Dev :=
  let d := d.emLook l.part l.mac
  match d.emFind l.part l.mac with
  | none =>
    match d.emInsert (mkEm l.part l.mac l.port d.stampNow) with
    | (d, true) => d.inc (R.EM_LEARN l.pl)
    | (d, false) => d.inc (R.EM_LEARN_DROP l.pl)
  | some e =>
    let renew (d : Dev) := (d.emInsert (splice (splice e 8 (leBytes l.port 2)) 10 (leBytes d.stampNow 2))).1
    if emStatic e then if emPort e = l.port then d else d.inc (R.EM_STATIC_CONFLICT l.pl)
    else if emPort e = l.port then { renew d with tab := { (renew d).tab with emWr := d.tab.emWr } }
    else if d.on (R.EM_CTRL l.pl) F.EM_CTRL_MOVE_EN then (renew d).inc (R.EM_MOVE l.pl)
    else d.inc (R.EM_MOVE_BLOCKED l.pl)

/-- The oldest pending learn of a pipeline is made (R121, R123), unless the table is off (R557) or a channel that it needs takes no access (R627). -/
def learnNext (d : Dev) (p : Nat) : Dev :=
  match d.tab.learnQ.find? fun l => l.pl = p with
  | none => d
  | some l => if ¬ d.powered ∨ d.emWaits l.part l.mac true then d else ({ d with tab := { d.tab with learnQ := d.tab.learnQ.erase l } }).learnApply l

/-- Whether a dynamic entry is due to age (R122). -/
def emAged (d : Dev) (e : List Byte) : Bool := !emStatic e && d.fld (R.EM_CTRL 0) F.EM_CTRL_AGE ≤ (d.stampNow + 65536 - emStamp e) % 65536

/-- Ageing looks at a key and removes each entry of it that is due (R122), wherever it is: on die slot by slot, so that one which a WRITE put outside its key's
bucket goes too, and in overflow, which is read where no slot of its bucket holds it; unless the table is off (R557) or a channel that it needs takes no
access (R627). -/
def emAgeOut (d : Dev) (part : Nat) (mac : List Byte) : Dev :=
  if d.powered ∧ ¬ d.emWaits part mac false ∧ d.on (R.EM_CTRL 0) F.EM_CTRL_AGE_EN then
    let here := (d.emSlot part mac).isSome
    let d := d.emLook part mac
    let d := (d.tab.em.filter fun x => emIs part mac x.2 && d.emAged x.2).foldl (fun (d : Dev) x => (d.emClear x.1).inc (R.EM_AGED 0)) d
    if !here && (d.emOvf part mac).any d.emAged then (d.ovfRemove part mac).inc (R.EM_AGED 0) else d
  else d

/-! Table operations: the window's OP codes (03_forwarding.md), shared by the UCP opcodes of 14_control_protocol.md R490. -/

/-- The result that an operation is refused with when it starts, 0 when it is not (R128, R136). A bank from 2 up of a banked table, and an INDEX of EM_FLUSH
from 2^18 up, which only the UCP commands can name, are RANGE (DESIGN CHOICE, log entry 50). An OP that the table of operations does not define is BAD_OP (DESIGN
CHOICE, log entry 91: R136 names it for an operation that does not apply to TABLE). -/
def tblCheck (d : Dev) (p op table bank index : Nat) : Nat :=
  let entryOp := op = 1 ∨ op = 2 ∨ op = 3
  let emOp := 5 ≤ op ∧ op ≤ 8
  let banked := 1 ≤ table ∧ table ≤ 3
  if ¬ (entryOp ∨ emOp ∨ op = 4) ∨ (entryOp ∧ ¬ (1 ≤ table ∧ table ≤ 5)) ∨ (emOp ∧ table ≠ 5)
      ∨ (op = 4 ∧ ¬ (banked ∨ table = 15)) ∨ (op = 4 ∧ d.prevHeld p) then 5
  else if (entryOp ∧ (tblSize table).1 ≤ index) ∨ (entryOp ∧ banked ∧ 2 ≤ bank) ∨ (op = 8 ∧ 2 ^ 18 ≤ index) then 2
  else if (op = 2 ∨ op = 3) ∧ banked ∧ (bank = d.bankOf p false ∨ d.prevHeld p) then 1
  else 0

/-- The bytes of an entry. -/
def tblGet (d : Dev) (p table bank index : Nat) : List Byte :=
  if table = 1 then leBytes (d.chipEntry p bank index) 4
  else if table = 2 then d.bundleEntry p bank index
  else if table = 3 then d.treeEntry p bank index
  else if table = 4 then leBytes (Sparse.get 0 d.tab.part (4096 * p + index)) 4
  else d.emAt index

/-- The key of an entry of a table of R132 in the state's lists. -/
def tblKey (p table bank index : Nat) : Nat := if table = 4 then 4096 * p + index else (2 * p + bank) * (tblSize table).1 + index

/-- Write a whole entry on the die (R98, R134). -/
def tblSet (d : Dev) (p table bank index : Nat) (v : List Byte) : Dev :=
  let key := tblKey p table bank index
  let t := d.tab
  if table = 1 then { d with tab := { t with chip := Sparse.put 0 t.chip key (leNat v) } }
  else if table = 2 then { d with tab := { t with bundle := Sparse.put (List.replicate 64 0) t.bundle key v } }
  else if table = 3 then { d with tab := { t with tree := Sparse.put (List.replicate 144 0) t.tree key v } }
  else if table = 4 then { d with tab := { t with part := Sparse.put 0 t.part key (leNat v) } }
  else if emValid v then (d.setEm index v).emWritten index
  else d.setEm index v

/-! The copies in LPDDR6 of the banks and of the admission entries (R99, R532). -/

/-- The contents of an entry's copy. -/
def copySet (d : Dev) (p table bank index : Nat) (v : List Byte) : Dev :=
  let key := tblKey p table bank index
  let t := d.tab
  if table = 1 then { d with tab := { t with chipC := Sparse.put 0 t.chipC key (leNat v) } }
  else if table = 2 then { d with tab := { t with bundleC := Sparse.put (List.replicate 64 0) t.bundleC key v } }
  else if table = 3 then { d with tab := { t with treeC := Sparse.put (List.replicate 144 0) t.treeC key v } }
  else { d with tab := { t with partC := Sparse.put 0 t.partC key (leNat v) } }

/-- The bytes of an entry's copy. -/
def tblCopy (d : Dev) (p table bank index : Nat) : List Byte :=
  let key := tblKey p table bank index
  if table = 1 then leBytes (Sparse.get 0 d.tab.chipC key) 4
  else if table = 2 then Sparse.get (List.replicate 64 0) d.tab.bundleC key
  else if table = 3 then Sparse.get (List.replicate 144 0) d.tab.treeC key
  else leBytes (Sparse.get 0 d.tab.partC key) 4


/-- Whether the copy of an entry lies, in part, in a channel that takes no access. -/
def copyShut (d : Dev) (p table bank index : Nat) : Bool := d.ddrShut (copyAddr p table bank index) (tblSize table).2

/-- The copy of an entry is written, its bytes counted where no bulk counts them. -/
def copyPut (d : Dev) (p table bank index : Nat) (v : List Byte) (counted : Bool) : Dev :=
  let d := d.copySet p table bank index v
  if counted then d.ddrWrite (copyAddr p table bank index) (tblSize table).2 else d

/-- An entry that has been written is not restored any more by a refill of its row that still waits: what it holds is newer (R99). -/
def unrestore (d : Dev) (p table bank index : Nat) : Dev :=
  { d with ddr := { d.ddr with late := d.ddr.late.map fun w => match w with
      | .restore p' t b l errs ref => .restore p' t b (if p' = p ∧ t = table ∧ b = bank then l.filter (· ≠ index) else l) errs ref
      | w => w } }

/-- A write to an entry is mirrored (R99), at once or when its channels are released. -/
def mirror (d : Dev) (p table bank index : Nat) (v : List Byte) (counted : Bool) : Dev :=
  let d := d.unrestore p table bank index
  if d.copyShut p table bank index then d.later (.mirror p table bank index v counted) else d.copyPut p table bank index v counted

/-- Write a whole entry, in its LPDDR6 copy too (R98, R99, R134, R532). -/
def tblPut (d : Dev) (p table bank index : Nat) (v : List Byte) : Dev :=
  let v := slice v 0 (tblSize table).2
  let d := d.tblSet p table bank index v
  if 1 ≤ table ∧ table ≤ 4 then d.mirror p table bank index v true else d

/-- The bytes of a bank's copy that lie on one slot are written (WRITE_BYTES of R606): a bank spreads over all 64 slots alike. -/
def bulkPut (d : Dev) (p table bank slot : Nat) : Dev :=
  let a := copyAddr p table bank 0
  let n := (tblSize table).1 * (tblSize table).2
  if (d.ddrMap slot 0).2.2 then d
  else
    let hit (b : Nat) : Bool := a / 32 ≤ b && b < (a + n) / 32 && ddrSlot (32 * b) = slot
    { d.wrote (unitsOn a n slot) with ddr := { d.ddr with bad := d.ddr.bad.filter fun b => !hit b } }.pm .ddr 0x0602 none (n / 64 * d.ddrPlaces (256 * slot))

/-- Whether a slot of the copies takes no access. -/
def slotShut (d : Dev) (slot : Nat) : Bool := !(d.ddrMap slot 0).2.2 && d.chShut (d.ddrMap slot 0).1

/-- All bytes of a bank's copy are written, on each slot at once or when its channel is released. -/
def bulk (d : Dev) (p table bank : Nat) : Dev :=
  (List.range 64).foldl (fun (d : Dev) s => if d.slotShut s then d.later (.bulk p table bank s) else d.bulkPut p table bank s) d

/-- The entries of a bank that are not zero, on the die or in its copy. -/
def bankKeys (d : Dev) (p table bank : Nat) : List Nat :=
  let n := (tblSize table).1
  let t := d.tab
  let keys : List Nat :=
    if table = 1 then t.chip.map (·.1) ++ t.chipC.map (·.1)
    else if table = 2 then t.bundle.map (·.1) ++ t.bundleC.map (·.1)
    else t.tree.map (·.1) ++ t.treeC.map (·.1)
  ((keys.filter fun k => k / n = 2 * p + bank).map (· % n)).eraseDups

/-- A row of entries is written again from the LPDDR6 copies, an entry whose copy cannot be read with zeros (R99, R532): how many of these there were. -/
def tblRestore (d : Dev) (p table bank : Nat) (entries : List Nat) : Nat × Dev :=
  let n := (tblSize table).2
  let bursts (i : Nat) : List Nat := ddrBursts (copyAddr p table bank i) n
  match d.burstsRead (entries.flatMap bursts).eraseDups with
  | (l, d) =>
    let lost := entries.filter fun i => (bursts i).any l.contains
    (lost.length, entries.foldl (fun (d : Dev) i =>
      if lost.contains i then d.tblPut p table bank i (List.replicate n 0) else d.tblSet p table bank i (d.tblCopy p table bank i)) d)

/-- INVALIDATE of an entry. -/
def tblInval (d : Dev) (p table bank index : Nat) : Dev :=
  let v := d.tblGet p table bank index
  if table = 1 ∨ table = 3 then d.tblPut p table bank index (splice v 3 [BitVec.ofNat 8 (byteAt v 3 % 128)])
  else if table = 5 then d.tblPut p table bank index (splice v 7 [BitVec.ofNat 8 (putBits (byteAt v 7) 4 4 0)])
  else d.tblPut p table bank index []

/-- BANK_COPY of one table from the current bank into the idle one, each write mirrored (R99). -/
def bankCopyOf (d : Dev) (p table : Nat) : Dev :=
  let src := d.bankOf p false
  let dst := (src + 1) % 2
  ((d.bankKeys p table src ++ d.bankKeys p table dst).eraseDups.foldl (fun (d : Dev) i =>
    let v := d.tblGet p table src i
    (d.tblSet p table dst i v).mirror p table dst i v false) d).bulk p table dst

/-- BANK_COPY of one banked table, or of all three. -/
def bankCopy (d : Dev) (p table : Nat) : Dev :=
  ([1, 2, 3].filter fun n => table = n || table = 15).foldl (fun (d : Dev) n => d.bankCopyOf p n) d

/-- A WRITE of a valid exact-match entry is the later operation on its key and determines the key's entry (R123; DEDUCED, log entry 89): an entry that learning
or EM_INSERT gave the key goes, on die and in overflow. -/
def emTake (d : Dev) (i : Nat) (v : List Byte) : Dev :=
  let part := emPart v
  let mac := emMac v
  let d := ((d.tab.em.map (·.1)).filter fun j => j ≠ i && emIs part mac (d.emAt j)).foldl emClear d
  if (d.emOvf part mac).isSome then
    let d := (d.ovfRead (emBucket part mac)).2
    if (d.emOvf part mac).isSome then d.ovfRemove part mac else d
  else d

/-- A WRITE. -/
def tblWrite (d : Dev) (p table bank index : Nat) (v : List Byte) : Dev :=
  (if table = 5 ∧ emValid v then d.emTake index v else d).tblPut p table bank index v

/-- Carry out an operation that has passed `tblCheck`: the device, the result and the entry returned. `ecc`: the entry read has an uncorrectable
error. The operations by key look for it first. -/
def tblDo (d : Dev) (p op table bank index : Nat) (v : List Byte) (ecc : Bool) : Dev × Nat × List Byte :=
  if op = 1 then (d, if ecc then 6 else 0, d.tblGet p table bank index)
  else if op = 2 then (d.tblWrite p table bank index v, 0, [])
  else if op = 3 then (d.tblInval p table bank index, 0, [])
  else if op = 4 then (d.bankCopy p table, 0, [])
  else if op = 5 then
    match (d.emLook (emPart v) (emMac v)).emInsert (splice (slice v 0 16) 7 [BitVec.ofNat 8 (putBits (byteAt v 7) 4 4 1)]) with
    | (d, true) => (d, 0, [])
    | (d, false) => (d, 4, [])
  else if op = 6 then
    match (d.emLook (emPart v) (emMac v)).emRemove (emPart v) (emMac v) with
    | (d, true) => (d, 0, [])
    | (d, false) => (d, 3, [])
  else if op = 7 then
    let d := d.emLook (emPart v) (emMac v)
    match d.emFind (emPart v) (emMac v) with
    | some e => (d, 0, e)
    | none => (d, 3, [])
  else (d.emFlush (bit index 17) (index % 4096), 0, [])

/-! The window of a pipeline (R132, R133). -/

/-- The TW_DATA words as bytes. -/
def twData (d : Dev) (p : Nat) : List Byte := (List.range 36).flatMap fun i => leBytes (d.reg (R.TW_DATA p i)).toNat 4

/-- Start an operation on an entry: BUSY at once; a write while BUSY is ignored and sets OVERRUN. -/
def twBegin (d : Dev) (p op table bank index : Nat) : Dev :=
  if d.on (R.TW_STAT p) F.TW_STAT_BUSY then d.setFld (R.TW_STAT p) F.TW_STAT_OVERRUN 1
  else
    let o : TwOp := ⟨op, table, bank, index, d.twData p, d.tblCheck p op table bank index⟩
    { d.setFld (R.TW_STAT p) F.TW_STAT_BUSY 1 with tab := { d.tab with tw := Sparse.ins d.tab.tw p o } }

/-- Start an operation on the entry at INDEX. -/
def twStart (d : Dev) (p op table bank : Nat) : Dev := d.twBegin p op table bank (d.fld (R.TW_INDEX p) F.TW_INDEX_INDEX)

/-- Whether an exact-match operation waits for a channel that takes no access (R627). -/
def twWaits (d : Dev) (o : TwOp) : Bool :=
  if o.result ≠ 0 then false
  else if o.op = 2 then
    o.table = 5 && emValid o.data && (d.emOvf (emPart o.data) (emMac o.data)).isSome &&
      (let b := emBucket (emPart o.data) (emMac o.data); d.ovfShut b (d.spill b))
  else if 5 ≤ o.op ∧ o.op ≤ 7 then d.emWaits (emPart o.data) (emMac o.data) (o.op = 5)
  else if o.op = 8 then d.spilled.any fun b => d.ovfShut b (d.spill b)
  else false

/-- Whether the operation of a pipeline's window writes an exact-match entry whose key another slot holds by a WRITE (03_forwarding.md): the results are
unpredictable. -/
def twTwice (d : Dev) (p : Nat) : Bool :=
  match Sparse.find d.tab.tw p with
  | none => false
  | some o => d.powered && o.result = 0 && o.op = 2 && o.table = 5 && emValid o.data &&
      d.tab.emWr.any fun i => i ≠ o.index && emIs (emPart o.data) (emMac o.data) (d.emAt i)

/-- An operation completes: RESULT set, data in TW_DATA, BUSY cleared. A READ that ends with ECC leaves TW_DATA as it was (DESIGN CHOICE, log entry 50). It
stays BUSY while the pipeline is off (R557) or a channel that it needs takes no access (R627). -/
def twComplete (d : Dev) (p : Nat) (ecc : Bool) : Dev :=
  match Sparse.find d.tab.tw p with
  | none => d
  | some o =>
    if ¬ d.powered ∨ d.twWaits o then d
    else
    let d := { d with tab := { d.tab with tw := Sparse.del d.tab.tw p } }
    let (d, r, v) := if o.result = 0 then d.tblDo p o.op o.table o.bank o.index o.data ecc else (d, o.result, [])
    let d := if r = 0 ∧ (o.op = 1 ∨ o.op = 7) then
        (List.range (v.length / 4)).foldl (fun d i => d.setNum (R.TW_DATA p i) (leNat (slice v (4 * i) 4))) d else d
    (d.setFld (R.TW_STAT p) F.TW_STAT_RESULT r).setFld (R.TW_STAT p) F.TW_STAT_BUSY 0

/-- Whether a BANK_COPY into a bank of a pipeline runs (R124). -/
def copying (d : Dev) (p : Nat) : Bool :=
  match Sparse.find d.tab.tw p with | some o => o.op = 4 && o.result = 0 | none => false

end Dev
end Sys2Proof.Machine
end

