-- ==== Sys2Proof/Machine/Ddr.lean ====
section
/-! DEFINITION. The history rings as they lie in LPDDR6, the patrol scrub, and what is lost with a part of LPDDR6 (spec/18_telemetry.md R612, R613,
spec/19_lpddr6.md R625, R626, spec/15_faults_sparing.md R535). -/
namespace Sys2Proof.Machine
namespace Dev

/-! Boot storage (R577; spec/20_package_electrical.md R650). -/

/-- An operation on the serial flash: reads go in single- or quad-I/O mode, everything else in single-I/O mode. -/
def spi (d : Dev) (op addr len : Nat) (data : List Byte) : Dev :=
  d.emit (.spi op (if op = 0 ∧ Config.spiQuad addr then 4 else 1) addr len data d.lc)

/-- Read a slot out of boot storage. -/
def spiRead (d : Dev) (s : Nat) : Dev := d.spi 0 (0x1000000 * s) (d.mgmt.slots.getD s []).length []

/-! Image copies in LPDDR6 (R344, R588, R622). -/

/-- Whether the firmware copy of a slot is read whole and is the image that boot storage holds there (R588): LPDDR6 is not in self-refresh. -/
def fwRead (d : Dev) (s : Nat) : Bool × Dev :=
  let img := d.mgmt.slots.getD s []
  if img = [] ∨ d.ddrShut (0x1000000 * s) img.length then (false, d)
  else match d.burstsRead (ddrBursts (0x1000000 * s) img.length) with
    | (l, d) => (l = [] && d.ddr.fw.getD s [] = img, d)

/-- The firmware writes the copy of a slot again from boot storage, at once or when its channels are released (R627). -/
def fwCopy (d : Dev) (s : Nat) : Dev :=
  let img := d.mgmt.slots.getD s []
  if d.ddrShut (0x1000000 * s) img.length then (if d.ddr.late.contains (.fwCopy s) then d else d.later (.fwCopy s))
  else ({ d with ddr := { d.ddr with fw := d.ddr.fw.set s img } }.spiRead s).ddrWrite (0x1000000 * s) img.length

/-- It writes those that are not the images of boot storage. -/
def fwCopies (d : Dev) : Dev :=
  (List.range 2).foldl (fun (d : Dev) s => if d.ddr.fw.getD s [] = d.mgmt.slots.getD s [] then d else d.fwCopy s) d

/-- The copy of a loaded recipe image is written, at once or when its channels are released (R344, R627). -/
def imageCopy (d : Dev) (n : Nat) : Dev := if d.ddrShut 0x2000000 n then d.later (.imageCopy n) else d.ddrWrite 0x2000000 n

/-! Rings 0 and 1 (R612, R613). -/

/-- The records of ring 0 or 1, oldest first, and the offset in the ring of the one in place i of the list: a ring is written in order and wraps at its size. -/
def ringRecs (d : Dev) (r : Nat) : List (List Byte) := if r = 0 then d.tel.ring0 else d.tel.ring1
def ringAt (d : Dev) (r i : Nat) : Nat :=
  ((d.ringRecs r).headD []).length * (Sparse.get 0 d.tel.turns r - (d.ringRecs r).length + i) % max (d.ringBytes r) 1

def setRecs (d : Dev) (r : Nat) (l : List (List Byte)) : Dev :=
  { d with tel := { d.tel with ring0 := if r = 0 then l else d.tel.ring0, ring1 := if r = 1 then l else d.tel.ring1 } }

/-- The pieces, as logical address and length, that `n` bytes from an offset of a ring take: the second is there where they pass the ring's end. -/
def ringPieces (d : Dev) (r o n : Nat) : List (Nat × Nat) :=
  let m := min n (d.ringBytes r - o)
  if m < n then [(d.ringBase r + o, m), (d.ringBase r, n - m)] else [(d.ringBase r + o, n)]

/-- The byte at an offset of ring 0 or 1, that of the newest record which covers it; zero where there is none. -/
def ringByte (d : Dev) (r o : Nat) : Byte :=
  let size := d.ringBytes r
  let recs := d.ringRecs r
  let pos (i : Nat) : Nat := (o + size - d.ringAt r i) % size
  match (List.range recs.length).reverse.find? fun i => pos i < (recs.getD i []).length with
  | some i => (recs.getD i []).getD (pos i) 0
  | none => 0

/-- The records of ring 0 or 1 that `hit` names by their places in the list are lost whole, and the ring marks the gap (R535). -/
def ringGap (d : Dev) (r : Nat) (hit : Nat → Bool) : Dev :=
  let recs := d.ringRecs r
  let d := d.setRecs r (recs.mapIdx fun i (x : List Byte) => if hit i then List.replicate x.length 0 else x)
  let n := (List.range recs.length).countP fun i => hit i && (recs.getD i []).any (· ≠ 0)
  { d with tel := { d.tel with missed := Sparse.put 0 d.tel.missed r (Sparse.get 0 d.tel.missed r + n) } }

/-! What is written again after a loss (R535). -/

/-- Whether some of `n` bytes from a logical address lie in one of the segments. -/
def inSegs (segs : List Nat) (a n : Nat) : Bool := segs.any fun i => inSegment a n (i / 16) (i % 16)

/-- The copies of the tables that lie in some segments are those of the die. -/
def copyAgain (d : Dev) (segs : List Nat) : Dev :=
  let hit (table bank p i : Nat) : Bool := inSegs segs (copyAddr p table bank i) (tblSize table).2
  let d := (List.range 16).foldl (fun (d : Dev) p => [1, 2, 3].foldl (fun (d : Dev) t => [0, 1].foldl (fun (d : Dev) b =>
    (d.bankKeys p t b).foldl (fun (d : Dev) i => if hit t b p i then d.copySet p t b i (d.tblGet p t b i) else d) d) d) d) d
  ((d.tab.part.map (·.1) ++ d.tab.partC.map (·.1)).eraseDups).foldl (fun (d : Dev) k =>
    if hit 4 0 (k / 4096) (k % 4096) then d.copySet (k / 4096) 4 0 (k % 4096) (d.tblGet (k / 4096) 4 0 (k % 4096)) else d) d

/-- The regions of LPDDR6 that are written again from elsewhere: the firmware copies, the copy of a recipe image, the copies of the tables. -/
def refillRegions (d : Dev) : List (Nat × Nat) :=
  [(0, (d.mgmt.slots.getD 0 []).length), (0x1000000, (d.mgmt.slots.getD 1 []).length), (0x2000000, d.vat.image.length)] ++
    (List.range 16).flatMap fun p => [(copyAddr p 1 0 0, 0x200000), (copyAddr p 2 0 0, 0x80000), (copyAddr p 3 0 0, 0x120000), (copyAddr p 4 0 0, 0x4000)]

/-- What lies in the low segment of a slot is written again after the segment was lost: the slot's part of each of these regions, where the segment is mapped. -/
def slotRefill (d : Dev) (slot : Nat) : Dev :=
  let d := ((d.spiRead 0).spiRead 1).copyAgain [16 * slot]
  if (d.ddrMap slot 0).2.2 then d else (d.wrote (d.refillRegions.flatMap fun x => unitsOn x.1 x.2 slot)).pm .ddr 0x0602 none (d.refillRegions.map fun x => slotBytes x.1 x.2 slot).sum

/-! The bursts that a command writes (R624). -/

/-- The byte of the copies of a pipeline's tables at an offset in them (`copyAddr`). -/
def copyByte (d : Dev) (p o : Nat) : Byte :=
  let at' (table o : Nat) : Byte :=
    let (n, size) := tblSize table
    if o / size / n < 2 then (d.tblCopy p table (o / size / n) (o / size % n)).getD (o % size) 0 else 0
  if o < 0x200000 then at' 1 o
  else if o < 0x280000 then at' 2 (o - 0x200000)
  else if o < 0x3A0000 then at' 3 (o - 0x280000)
  else if o < 0x3A4000 then at' 4 (o - 0x3A0000)
  else 0

/-- The byte that LPDDR6 holds at a logical address, by the region that it lies in (R622, R623); zero where nothing has been written. -/
def ddrByte (d : Dev) (a : Nat) : Byte :=
  match d.ddrKind a with
  | 1 => (d.ddr.fw.getD (a / 0x1000000) []).getD (a % 0x1000000) 0
  | 2 => d.vat.image.getD (a - 0x2000000) 0
  | 3 => d.copyByte ((a - 0x4000000) / 0x800000) (a % 0x800000)
  | 4 => ((d.ovfBlock ((a - 0xC000000) / 1024)).getD (a % 1024 / 16) []).getD (a % 16) 0
  | 5 => if a < d.ringBase 1 then d.ringByte 0 (a - d.ringBase 0) else d.ringByte 1 (a - d.ringBase 1)
  | 6 =>
    match d.tel.flight.find? fun f => f.place = (a - d.ringBase 2) / 64 with
    | some f => (flightBytes f).getD ((a - d.ringBase 2) % 64) 0
    | none => 0
  | _ => 0

/-- The parts of LPDDR6, as logical address and length, outside which every byte is zero. -/
def ddrHeld (d : Dev) : List (Nat × Nat) :=
  let copy (table : Nat) (k : Nat) : Nat × Nat :=
    let n := (tblSize table).1
    (if table = 4 then copyAddr (k / 4096) 4 0 (k % 4096) else copyAddr (k / n / 2) table (k / n % 2) (k % n), (tblSize table).2)
  [(0, (d.ddr.fw.getD 0 []).length), (0x1000000, (d.ddr.fw.getD 1 []).length), (0x2000000, d.vat.image.length)]
    ++ d.tab.chipC.map (copy 1 ·.1) ++ d.tab.bundleC.map (copy 2 ·.1) ++ d.tab.treeC.map (copy 3 ·.1) ++ d.tab.partC.map (copy 4 ·.1)
    ++ d.tab.ovf.map (fun e => (ovfBase (emBucket (emPart e) (emMac e)) + 16 * d.ovfPlace (emPart e) (emMac e), 16))
    ++ ([0, 1].flatMap fun r => (List.range (d.ringRecs r).length).flatMap fun i => d.ringPieces r (d.ringAt r i) ((d.ringRecs r).getD i []).length)
    ++ d.tel.flight.map fun f => (d.ringBase 2 + 64 * f.place, 64)

/-- The byte address on its channel of a burst, in segment g there. -/
def burstAddr (g b : Nat) : Nat := g * 2 ^ 28 + ddrOffset (32 * b) % 2 ^ 28

/-- The 36 symbols of a burst in segment g of a channel: 32 bytes of data and 4 of check, with the channel byte address folded in (R624). -/
def burstSyms (d : Dev) (g b : Nat) : List Nat := burstEncode (burstAddr g b) ((List.range 32).map fun i => (d.ddrByte (32 * b + i)).toNat)

/-- The bursts of a part of LPDDR6 that has been written, as they go out: each to every location of R534, a unit of 256 bytes of zeros as a whole. -/
def partOuts (d : Dev) (held : List (Nat × Nat)) (a n : Nat) : List Out :=
  (ddrUnits a n).flatMap fun u =>
    let lo := max (a / 32) (8 * u)
    let k := min (ceilDiv (a + n) 32) (8 * u + 8) - lo
    let zero := decide (k = 8) && held.all fun x => x.1 + x.2 ≤ 256 * u || 256 * u + 256 ≤ x.1
    (d.ddrPlaced (256 * u)).flatMap fun x =>
      if zero then [.ddrFill x.1 d.lc (burstAddr x.2 lo) 256 []]
      else (List.range k).map fun i => .ddr x.1 d.lc (burstAddr x.2 (lo + i)) (d.burstSyms x.2 (lo + i))

/-- Zeros that follow one another on a channel go out as one. -/
def joinFills (l : List Out) : List Out :=
  l.foldr (fun o r => match o, r with
    | .ddrFill c lc a n [], .ddrFill c' _ a' n' [] :: r' => if c = c' ∧ a + n = a' then .ddrFill c lc a (n + n') [] :: r' else o :: r
    | _, _ => o :: r) []

/-- The bursts that the command has written go out, as they stand when it is over (log entry 90). -/
def burstOuts (d : Dev) : Dev :=
  if d.seen.wrote = [] then d
  else
    let held := d.ddrHeld
    { d with out := d.out ++ joinFills (d.seen.wrote.flatMap fun x => d.partOuts held x.1 x.2) }

/-- A logical segment goes out whole to segment g of a channel: its bursts with the check symbols of their new addresses (R624, R628). -/
def segmentOut (d : Dev) (i c g : Nat) : Dev :=
  let l := ((d.ddrHeld.flatMap fun x => ddrBursts x.1 x.2).filter fun b => ddrSeg (32 * b) = i).eraseDups
  d.emit (.ddrFill c d.lc (g * 2 ^ 28) (2 ^ 28)
    ((l ++ d.ddr.bad.filter fun b => ddrSeg (32 * b) = i && !l.contains b).map fun b => (burstAddr g b, if d.ddr.bad.contains b then [] else d.burstSyms g b)))

/-! The patrol scrub (R626). -/

/-- A burst of a spare segment that holds nothing is corrected, or is uncorrectable (R625). -/
def spareFixed (d : Dev) (c : Nat) : Dev := (d.inc R.DD_CORR).error 0x0F c 0x50 1 [0xFFFFFFFF]
def spareFail (d : Dev) (c : Nat) : Dev := (d.inc R.DD_UNCORR).error 0x0F c 0x51 2 [0xFFFFFFFF, 0]

/-- A burst is good again. -/
def burstGood (d : Dev) (b : Nat) : Dev := { d with ddr := { d.ddr with bad := d.ddr.bad.filter (· ≠ b) } }

/-- A read of a burst that the scrub finds uncorrectable: the record, and what R625 removes. -/
def scrubBad (d : Dev) (b : Nat) : Dev :=
  let d := (d.burstBad b).burstFail b
  if d.ddrKind (32 * b) = 4 then d.ovfLose ((32 * b - 0xC000000) / 1024) [2 * (b % 32), 2 * (b % 32) + 1] else d

/-- Local counts in an hour. -/
def hourCounts : Nat := 3600 * 1250000000

/-- A pass of the scrub lasts SCRUB_H hours; after it a new one begins, in which every burst is read once more (R626; DESIGN CHOICE, log entry 90). -/
def scrubPass (d : Dev) : Dev :=
  if d.ddr.pass + d.fld R.DD_CTRL F.DD_CTRL_SCRUB_H * hourCounts ≤ d.lc then { d with ddr := { d.ddr with pass := d.lc, scrubbed := [] } } else d

/-- The patrol scrub reads a burst at a channel address (R626): its 36 symbols as read, checked under R624; `newer` says that a write came between the
read and the rewrite. A channel that is quiesced, in self-refresh or retired is not read, and no burst twice in a pass. -/
def scrub (d : Dev) (c addr : Nat) (burst : List Nat) (newer : Bool) : Dev :=
  let a := addr / 32 * 32
  let d' := d.scrubPass
  if d.chShut c ∨ d.chState c = 3 ∨ d'.ddr.scrubbed.contains (c, a) then d
  else
    let d := { d' with ddr := { d'.ddr with scrubbed := (c, a) :: d'.ddr.scrubbed } }.pm .ddr 0x0601 none 32
    let held := (d.ddrHolds c (addr / 2 ^ 28)).map fun x => ddrLogical x.1 x.2 (a % 2 ^ 28) / 32
    match burstDecode a burst with
    | some (_, false) => match held with | some b => d.burstGood b | none => d
    | some (data, true) =>
      let d := match held with | some b => (d.burstGood b).burstFixed b | none => d.spareFixed c
      if newer then d else ((d.inc R.DD_SCRUB_FIX).pm .ddr 0x0602 none 32).emit (.ddr c d.lc a (burstEncode a data))
    | none => match held with | some b => d.scrubBad b | none => d.spareFail c

end Dev
end Sys2Proof.Machine
end

