-- ==== Sys2Proof/Machine/Ingress.lean ====
section
/-! DEFINITION. The ingress pipeline: receive checks, routing, spraying, the fence, admission, exact-match lookups, the payload check and
own-chip delivery (spec/02_fabric_protocol.md R69 to R90, spec/03_forwarding.md R103 to R120, spec/04_switch_core.md R158 to R163,
spec/10_memory_semantics.md R346 to R362). -/
namespace Sys2Proof.Machine

/-- The launch time of R58: the one time t in [a - 2^39 ns, a + 2^39 ns) with t mod 2^40 ns the field, in units of 2^-16 ns; `a` is a fabric
time in those units. -/
def launchAt (a field : Nat) : Int :=
  let lo : Int := (ceilDiv a 65536 : Nat) - 2 ^ 39
  (lo + ((field : Int) - lo) % 2 ^ 40) * 65536

/-- Member port code of a bundle entry. -/
def bundleMember (e : List Byte) (i : Nat) : Nat := bits (leNat (slice e (16 + 2 * i) 2)) 9 0

/-- The first index with the greatest credit (R108). -/
def bestCredit (l : List Int) : Nat :=
  ((List.range l.length).foldl (fun b i => if l.getD b 0 < l.getD i 0 then i else b) 0)

/-- One pick of the smooth weighted round robin (R108): the credits after it and the member picked. -/
def swrr (w : List Nat) (credit : List Int) : List Int × Nat :=
  let c := List.zipWith (fun (x : Nat) (y : Int) => (x : Int) + y) w credit
  let k := bestCredit c
  (c.set k (c.getD k 0 - (w.sum : Int)), k)

namespace Dev

/-- The effective weight of a bundle member (R107). -/
def memberWeight (d : Dev) (e : List Byte) (i : Nat) : Nat :=
  let c := bundleMember e i
  let b := byteAt e (48 + i)
  if ¬ d.linkUp c ∨ b = 0 then 0
  else if ¬ bit (byteAt e 1) 0 then b
  else
    let dep := d.fld (R.EG_SAMPLE_A (plOf c) (8 * (c % 64) + 5)) F.EG_SAMPLE_A_DEPTH_END * 256
    let q := min 255 (dep / (byteAt e 2 * 1024))
    max 1 (b * (256 - q) / 256)

/-- The effective weights of a bundle. -/
def bundleWeights (d : Dev) (e : List Byte) : List Nat := (List.range (byteAt e 0)).map (d.memberWeight e)

/-- A port code that the lists of controller errors leave unpredictable: a free value. -/
def freePort (d : Dev) : Nat × Dev := match d.draw with | (v, d) => (v.toNat % 1024, d)

/-- A port code of a controller's entry, a free value where it names no port (the controller errors of 03_forwarding.md). -/
def entryPort (d : Dev) (c : Nat) : Nat × Dev := if d.namesPort c then (c, d) else d.freePort

/-- Whether a bundle entry is free of the controller errors of 03_forwarding.md: one to sixteen members, each a port, and no DEPTH_UNIT of zero
with ADAPT one. -/
def bundleOk (d : Dev) (e : List Byte) : Bool :=
  let n := byteAt e 0
  1 ≤ n && n ≤ 16 && (List.range n).all (fun i => d.namesPort (bundleMember e i)) && !(bit (byteAt e 1) 0 && byteAt e 2 = 0)

/-- The member of a packet that is not sprayed (R106). A bundle entry that is a controller error gives an unpredictable output: a free value. -/
def fixedMember (d : Dev) (e : List Byte) (h : Hdr) : Nat × Dev :=
  if d.bundleOk e then (bundleMember e (memberHash h.src h.dest h.vc % byteAt e 0), d) else d.freePort

/-- The member of a sprayed packet (R108, R109). -/
def sprayMember (d : Dev) (key : Nat) (e : List Byte) (h : Hdr) : Nat × Dev :=
  let n := byteAt e 0
  if d.bundleOk e then
    let s := match Sparse.find d.tab.spray key with
      | some s => { s with used := true }
      | none => { w := d.bundleWeights e, credit := List.replicate n 0, used := true }
    if s.w.all (· = 0) then
      { d with tab := { d.tab with spray := Sparse.ins d.tab.spray key s } }.fixedMember e h
    else
      match swrr s.w s.credit with
      | (c, k) => (bundleMember e k, { d with tab := { d.tab with spray := Sparse.ins d.tab.spray key { s with credit := c } } })
  else d.fixedMember e h

/-- Route by the chip table of a pipeline (R103): none when the entry is not valid. -/
def chipRoute (d : Dev) (p bank : Nat) (h : Hdr) (spray : Bool) : Option Nat × Dev :=
  let c := d.chipEntry p bank h.dest
  if ¬ bit c 31 then (none, d)
  else if bit c 30 then match d.entryPort (c % 1024) with | (o, d) => (some o, d)
  else
    let b := c % 4096
    let e := d.bundleEntry p bank b
    let (o, d) := if spray then d.sprayMember ((2 * p + bank) * 4096 + b) e h else d.fixedMember e h
    (some o, d)

/-- Place a packet in virtual output queues; its place in the list is its order of admission (R142). -/
def queueTo (d : Dev) (k : Pkt) (outs : List Nat) : Dev :=
  d.addPkt { k with place := .queued, copies := outs.map fun o => { out := o } }

/-- Where a packet goes is known: the sampler's record of it is taken, where it is due (R614, R615). -/
def routed (d : Dev) (k : Pkt) (out : Nat) : Pkt × Dev := ({ k with sampled := false }, d.sampleNow k out)

/-- Admit a packet from a port towards an egress port code, then do `f` with it. -/
def admitThen (d : Dev) (k : Pkt) (out : Nat) (f : Dev → Pkt → Dev) : Dev :=
  match d.admitPkt k out with
  | (d, some k) => f d k
  | (d, none) => d.takePkt k.id

/-- Count requests and responses routed onward (R362). -/
def countMem (d : Dev) (p : Nat) (h : Hdr) : Dev :=
  if h.vc = 3 then (if h.m then d.inc (R.MS_MCAST_REQ p) else d).inc (R.MS_REQ p)
  else if h.vc = 4 then d.inc (R.MS_RESP p) else d

/-- A packet with its output chosen: lost when the link is down (R105), else admitted and queued. -/
def sendTo (d : Dev) (k : Pkt) (o : Nat) : Dev :=
  let p := plOf k.port
  let (k, d) := d.routed k o
  if ¬ d.linkUp o then ((d.inc (R.FW_PORT_DOWN p)).captureDrop k o 0x09).takePkt k.id
  else
    let d := if k.bankPrev then d.inc (R.FW_PREV_ROUTED p) else d
    (d.countMem p k.h).admitThen k o fun d k => d.queueTo k [o]

/-- Route a unicast packet by the chip table of the bank that check 5 chose (R37, R103, R104). -/
def routeChip (d : Dev) (k : Pkt) : Dev :=
  let p := plOf k.port
  match d.chipRoute p k.bank k.h (k.h.vc = 5 && k.h.s) with
  | (some o, d) => d.sendTo k o
  | (none, d) =>
    let (k, d) := (d.inc (R.FW_NO_ROUTE p)).routed k 0x3FF
    if lossless k.h.vc then d.admitThen k 0x3FF fun d k => d.addPkt { k with place := .noRoute }
    else (d.captureDrop k 0x3FF 0x09).takePkt k.id

/-- The egress port code that a record gives for a packet with these outputs: of several none (DESIGN CHOICE, log entry 85). -/
def oneCode (l : List Nat) : Nat := match l with | [o] => o | _ => 0x3FF

/-- A multicast packet (R111 to R113). FW_PREV_ROUTED counts one of the previous bank also when every port it selects is down: it was routed by that bank, though
nothing of it goes on (DESIGN CHOICE, log entry 15). -/
def routeTree (d : Dev) (k : Pkt) : Dev :=
  let p := plOf k.port
  let outs := d.treePorts p k.bank k.h.dest
  let up := outs.filter d.linkUp
  let (k, d) := d.routed k (oneCode outs)
  let d := d.incBy (R.FW_PORT_DOWN p) (outs.length - up.length)
  let d := if k.bankPrev then d.inc (R.FW_PREV_ROUTED p) else d
  if up.isEmpty then (d.captureDrop k (oneCode outs) 0x09).takePkt k.id
  else (d.countMem p k.h).admitThen k (oneCode up) fun d k => d.queueTo k up

/-- The outcome of an exact-match lookup (R116, R117). -/
def emOutcome (d : Dev) (k : Pkt) (found : Option (List Byte)) : Dev :=
  let p := plOf k.port
  match found with
  | some e =>
    let d := d.inc (R.EM_HIT p)
    if emPort e = k.port then ((d.inc (R.EM_FILTERED p)).captureDrop k 0x3FF 0x0A).takePkt k.id
    else if emStatic e then match d.entryPort (emPort e) with | (o, d) => d.sendTo k o
    else d.sendTo k (emPort e)
  | none => (d.inc (R.EM_MISS p)).routeChip k

/-- Whether an own-chip packet goes to a vat bank, and to which (R29, R225, R247). -/
def bankFor (h : Hdr) : Option Nat :=
  if (h.vc = 1 ∧ isContrib h.kind) ∨ (h.vc = 7 ∧ h.kind = 0x41) then some (chunkVat h.stream h.chunk / 96) else none

/-- Whether a packet is own-chip at a pipeline (R70). -/
def ownChip (d : Dev) (p : Nat) (h : Hdr) : Bool := !h.m && d.idValid p && h.dest = d.chipId p

/-! NACKs (R79, R163, R347). -/

/-- The header of a NACK for a request. R79 copies the request's extension and is silent on a VC3 request that has none (a PATH_MARKER with X zero): its NACK has
one of zeros (DESIGN CHOICE, log entry 85). -/
def nackHdr (d : Dev) (k : Pkt) (reason : Nat) : Hdr :=
  let p := plOf k.port
  { vc := 4, epoch := d.curEpoch p, x := true, part := k.h.part, dest := k.h.src, src := d.chipId p, sub := reason, kind := 0x3B,
    stream := k.h.stream, chunk := k.h.chunk, off := k.h.off, anchor := k.h.anchor, ofmt := k.h.ofmt, rank := k.h.rank }

/-- Queue a packet that holds its cells already, towards its destination chip by the current bank of a pipeline's tables, at a crossbar
input (R163, R237): without a route it is held (R104), towards a port that is down it is lost (R105). -/
def routeHeld (d : Dev) (p : Nat) (k : Pkt) : Dev :=
  match d.chipRoute p (d.bankOf p false) k.h false with
  | (none, d) => (d.inc (R.FW_NO_ROUTE p)).addPkt { k with place := .noRoute, copies := [] }
  | (some o, d) =>
    if d.linkUp o then d.queueTo k [o] else (((d.addPkt k).inc (R.FW_PORT_DOWN p)).captureDrop k o 0x09).takePkt k.id

/-- A request becomes a NACK in its own buffer (R163, R170, R347). It keeps the rate that the request entered at (R149, log entry 69), and all cells of the
request: they cross and count in egress depth with it (DESIGN CHOICE, log entry 89). -/
def becomeNack (d : Dev) (k : Pkt) (reason age0 : Nat) : Dev :=
  let p := plOf k.port
  d.routeHeld p { k with h := d.nackHdr k reason, raw := [], pay := [], unit := p, age0 := age0, launch := none, prevKey := none,
                         bankPrev := false, sampled := false, ended := true, bad := false, counted := false, orig := true,
                         copies := [] }

/-! The payload check and own-chip delivery. -/

/-- Hand a checked own-chip packet to its handler (R71, R85). One without a handler is counted in PL_UNCLAIMED only here: where its check failed, or Lake refused
it before, PL_PAYLOAD_BAD, PL_PAYLOAD_STOMPED or LK_BE_DROP alone has counted it (DESIGN CHOICE, log entry 87). -/
def deliverOwn (d : Dev) (k : Pkt) : Dev :=
  let p := plOf k.port
  if k.bad then (d.captureDrop k 0x3FF 0x08).takePkt k.id
  else if k.h.vc = 3 then (d.inc (R.MS_NO_TARGET p)).becomeNack k 0x02 k.age0
  else
    let d' := d.takePkt k.id
    if k.h.vc = 0 ∧ k.h.kind = 0x03 ∧ k.mgmt then
      { d' with mgmt := { d'.mgmt with inbox := d'.mgmt.inbox ++ [({ kind := 2, chip := k.h.src, port := k.port }, k.pay)] } }
    else if k.h.vc = 7 ∧ k.h.kind = 0x43 then
      { d' with time := { d'.time with inbox := d'.time.inbox ++ [(k.port, k.pay, k.arrT, k.age0)] } }
    else (d'.count2 p k.port (R.PL_UNCLAIMED 0) (R.P_UNCLAIMED 0)).captureDrop k 0x3FF 0x07

/-- A packet that is past the receive checks and the fence is delivered locally or routed. An own-chip packet that has no handler takes its cells and is held to its
payload check like any other (R85, R169). -/
def forward (d : Dev) (k : Pkt) : Dev :=
  let p := plOf k.port
  if d.ownChip p k.h then
    let (k, d) := d.routed k 0x3FF
    match bankFor k.h with
    | some b => d.admitThen k 0x3FF fun d k => d.queueTo k [1024 + b]
    | none => d.admitThen k 0x3FF fun d k =>
        let k := { k with place := .own }
        if k.ended then (d.addPkt k).deliverOwn k else d.addPkt k
  else if k.h.m then d.routeTree k
  else if k.h.vc = 6 ∧ k.h.kind = 0x02 ∧ ¬ bit (byteAt k.pay 0) 0 then
    let mac := slice k.pay 0 6
    match d.emSlot k.h.part mac with
    | some i => d.emOutcome k (some (d.emAt i))
    | none =>
      if d.spill (emBucket k.h.part mac) = 0 then d.emOutcome k none
      else if 64 ≤ (d.core.pkts.filter fun q => q.place = .emWait && plOf q.port = p).length then
        (d.inc (R.EM_OVF_SKIP p)).emOutcome k none
      else (d.pm (.pl p) 0x0106 none 1).addPkt { k with place := .emWait }
  else d.routeChip k

/-- VC6 packets of one port wait behind a pending overflow lookup (R119). -/
def forwardInOrder (d : Dev) (k : Pkt) : Dev :=
  if k.h.vc = 6 ∧ d.core.pkts.any (fun q => q.id ≠ k.id && q.port = k.port && (q.place = .emWait || q.place = .emBehind)) then
    d.addPkt { k with place := .emBehind }
  else d.forward k

/-- Let packets waiting behind a finished lookup go on, up to the next one that has to wait (R119). -/
def releaseBehind (port : Nat) : Nat → Dev → Dev
  | 0, d => d
  | n + 1, d =>
    if d.core.pkts.any (fun q => q.port = port && q.place = .emWait) then d
    else match d.core.pkts.find? fun q => q.port = port && q.place = .emBehind with
      | none => d
      | some k => releaseBehind port n (d.forward k)

/-- Packets whose lookup is over, or whose packet in front has gone by another way, go on at every port (R119). -/
def behindAll (d : Dev) : Dev :=
  (((d.core.pkts.filter fun q => q.place = .emBehind).map (·.port)).eraseDups).foldl (fun d c => releaseBehind c d.core.pkts.length d) d

/-- Previous-epoch packets counted for (port, VC) (R158), the packet itself left out. -/
def prevCount (d : Dev) (port vc self : Nat) : Nat :=
  d.core.pkts.countP fun k => k.prevKey = some (port, vc) && k.id ≠ self

/-- Packets in the fence list of a pipeline. -/
def fenceUse (d : Dev) (p : Nat) : Nat := d.core.pkts.countP fun k => k.place = .fence && plOf k.port = p

/-- A packet past the receive checks, with the fence hold (R159, R160). A packet that the fence holds, or that waits for an overflow lookup, is not
admitted yet: Lake charges it when it is routed (R148, log entry 69). -/
def fenceThen (d : Dev) (k : Pkt) : Dev :=
  let p := plOf k.port
  let v := k.h.vc
  if d.core.pkts.any fun q => q.place = .stall && q.port = k.port && q.h.vc = v then d.addPkt { k with place := .stall }
  else if k.h.f ∧ d.prevHeld p ∧ 0 < d.prevCount k.port v k.id then
    if d.fenceUse p < 1024 then (d.inc R.SC_FENCE_HELD).addPkt { k with place := .fence }
    else (d.inc R.SC_FENCE_STALL).addPkt { k with place := .stall, stalled := true }
  else d.forwardInOrder k

/-- The bank check 5 of R86 chooses: some true the previous bank, some false the current one, which a TIME_ANNOUNCE to the own chip has whatever its epoch. -/
def epochBank (d : Dev) (p : Nat) (h : Hdr) : Option Bool :=
  if h.epoch = d.curEpoch p ∨ (d.ownChip p h = true ∧ h.kind = 0x43) then some false
  else if h.epoch = (d.curEpoch p + 3) % 4 ∧ d.prevHeld p then some true
  else none

/-- Whether the partition is admitted on a port (R72, R101). -/
def partOk (d : Dev) (port : Nat) (h : Hdr) : Bool :=
  (h.part = 0 && (h.vc = 0 || h.vc = 7)) || bit (Sparse.get 0 d.tab.part (4096 * plOf port + h.part)) (port / 2 % 32)

/-- The receive checks of R86, but for the header CRC: the number of the first check that fails, or the bank chosen. -/
def checks (d : Dev) (port : Nat) (h : Hdr) : Except Nat Bool :=
  let p := plOf port
  if ¬ wellFormedHdr h then .error 2
  else if d.fld (R.FP_CTRL p) F.FP_CTRL_HOP_LIMIT ≤ h.hop then .error 3
  else if ¬ d.partOk port h then .error 4
  else match d.epochBank p h with
    | none => .error 5
    | some prev => if h.m ∧ (d.treePorts p (d.bankOf p prev) h.dest).isEmpty then .error 6 else .ok prev

/-- Count a failed check at the port and in the pipeline (R86, R607). -/
def countCheck (d : Dev) (port n : Nat) : Dev :=
  let p := plOf port
  if n = 1 then d.count2 p port (R.PL_HDR_CRC 0) (R.P_HDR_CRC 0)
  else if n = 3 then d.count2 p port (R.PL_HOP_LIMIT 0) (R.P_HOP_LIMIT 0)
  else if n = 4 then d.count2 p port (R.PL_FOREIGN_PART 0) (R.P_FOREIGN_PART 0)
  else if n = 5 then d.count2 p port (R.PL_STALE_EPOCH 0) (R.P_STALE_EPOCH 0)
  else d.count2 p port (R.PL_MALFORMED 0) (R.P_MALFORMED 0)

/-- One packet in SAMPLE_N of those that pass R86 is captured (R614): whether this one is. Its record is taken when its egress port is known. -/
def sample (d : Dev) (k : Pkt) : Pkt × Dev :=
  let n := d.fld R.TM_FR_CTRL F.TM_FR_CTRL_SAMPLE_N
  if n = 0 then (k, d)
  else
    let c := Sparse.get 0 d.tel.sampleN k.unit + 1
    ({ k with sampled := decide (n ≤ c) }, { d with tel := { d.tel with sampleN := Sparse.put 0 d.tel.sampleN k.unit (if n ≤ c then 0 else c) } })

/-- PL_PAYLOAD_BAD counts a packet once (R94), at the port that received it and in that port's pipeline, whichever unit it crosses from. A packet that no port received
counts in neither, since the ports' counts add up to the pipeline's (R607; log entry 39). -/
def countBad (d : Dev) (k : Pkt) : Dev :=
  if k.counted ∨ 1024 ≤ k.port then d else d.count2 (plOf k.port) k.port (R.PL_PAYLOAD_BAD 0) (R.P_PAYLOAD_BAD 0)

/-- What a port code is receiving. -/
def setRx (d : Dev) (port : Nat) (r : Option Rx) : Dev :=
  { d with core := { d.core with rx := match r with | some r => Sparse.ins d.core.rx port r | none => Sparse.del d.core.rx port } }

/-- The row in which the last byte framed lies (R379). -/
def headerRow (d : Dev) (port : Nat) : Nat :=
  let l := d.lk port
  ((l.rxMark.reverse.find? fun (x : Nat × Nat) => x.2 < l.rxAbs).map (·.1)).getD l.rowRx

/-- A packet's header has arrived at a port (R86). `raw` holds the bytes of header and extension as received, and for an ETH packet the
first twelve payload bytes behind them; `lost` says that a byte of them was lost (R372). After a header that fails check 1 the receiver skips the
data stream until framing resumes (R379). -/
def headerArrival (d : Dev) (port : Nat) (raw : List Byte) (lost : Bool) : Dev :=
  if (d.lk port).skip then d else
  let p := plOf port
  let h := parseHdr raw
  let hl := 32 + (if h.x then 16 else 0)
  let (id, d) := d.freshId
  let k : Pkt := { id := id, unit := p, port := port, h := h, raw := raw.take hl, pay := raw.drop hl, age0 := d.lc, arrT := d.fabT,
                   cells := pktCells h, inRate := d.rateIn port, place := .own }
  let fail (d : Dev) n := (d.countCheck port n).captureDrop k 0x3FF n
  if lost ∨ ¬ hdrCrcOk raw then
    ((fail d 1).setRx port none).setLk port { d.lk port with skip := true, skipRow := d.headerRow port }
  else
    let d := d.setRx port (some ⟨id, h.vc, pktLen h⟩)
    match d.checks port h with
    | .error n => fail d n
    | .ok prev =>
      let k := { k with bankPrev := prev, bank := d.bankOf p prev, prevKey := if prev then some (port, h.vc) else none,
                        mgmt := bit (d.reg (R.FP_MGMT_EN p)).toNat (port / 2 % 32),
                        launch := if h.l && h.x && (h.vc = 2 || h.vc = 5 || h.vc = 6) then some (launchAt k.arrT h.launch) else none }
      let d := (d.pm (.pl p) 0x0101 (some h.vc) 1).pm (.pl p) 0x0102 (some h.vc) (pktLen h)
      let (k, d) := d.sample k
      let d := if h.kind = 0x02 then d.learnQueue p h.part (slice k.pay 6 6) port else d
      if 1 ≤ h.vc ∧ h.vc ≤ 6 ∧ d.on R.ER_STAT F.ER_STAT_FATAL then (d.inc R.DF_DISCARD).captureDrop k 0x3FF 0x10
      else if 1 ≤ h.vc ∧ h.vc ≤ 6 ∧ d.partAborted h.part then (d.inc R.CE_ABORT_DISCARD).captureDrop k 0x3FF 0x10
      else d.fenceThen k

/-- The copies of a packet that stand in a front end have arrived there whole now (R227, R232). -/
def feArrive (d : Dev) (k : Pkt) : Pkt × Dev :=
  if k.copies.any fun c => c.stage = .fe then
    ({ k with copies := k.copies.map fun c => if c.stage = .fe then { c with eseq := d.core.eseq } else c },
      { d with core := { d.core with eseq := d.core.eseq + 1 } })
  else (k, d)

/-- The payload check of the packet that a port is receiving has arrived (R83 to R85): `pay` and the four bytes of the check as received, most
significant first (R81), `lost` when a byte of them was lost (R372). A packet discarded before is in neither count of bad checks, and one that an
uncorrectable cell part has put into PL_PAYLOAD_BAD is not counted there again (R94, log entry 39). One that arrives stomped after such a part has damaged it counts
in PL_PAYLOAD_STOMPED as well (log entry 87). -/
def payloadEnd (d : Dev) (port : Nat) (pay check : List Byte) (lost : Bool) : Dev :=
  match Sparse.find d.core.rx port with
  | none => d
  | some r =>
    let d := d.setRx port none
    let d := (d.inc (R.RX_PKT port r.vc)).incBy (R.RX_BYTE port r.vc) r.len
    match d.pkt? r.id with
    | none => d
    | some k =>
      let p := plOf port
      let pay := slice pay 0 k.h.plen
      let c := crc32c pay
      let good := !lost && slice check 0 4 = beBytes c 4
      let stomped := !lost && slice check 0 4 = beBytes (c ^^^ stompMask) 4
      let d := if good then d
        else if stomped then d.count2 p port (R.PL_PAYLOAD_STOMPED 0) (R.P_PAYLOAD_STOMPED 0)
        else d.countBad k
      let k := { k with pay := pay, ended := true, bad := k.bad || !good, counted := k.counted || !(good || stomped) }
      if k.place = .own then d.deliverOwn k else match d.feArrive k with | (k, d) => d.putPkt k

/-! Releases. -/

/-- A packet leaves the fence list (R159): the epoch check runs again, and for a multicast packet check 6 with it, by the bank then chosen (log
entry 69). -/
def fenceRelease (d : Dev) (k : Pkt) : Dev :=
  let p := plOf k.port
  match d.epochBank p k.h with
  | none => ((d.count2 p k.port (R.PL_STALE_EPOCH 0) (R.P_STALE_EPOCH 0)).captureDrop k 0x3FF 5).takePkt k.id
  | some prev =>
    if k.h.m ∧ (d.treePorts p (d.bankOf p prev) k.h.dest).isEmpty then
      ((d.count2 p k.port (R.PL_MALFORMED 0) (R.P_MALFORMED 0)).captureDrop k 0x3FF 6).takePkt k.id
    else d.forwardInOrder { k with bankPrev := prev, bank := d.bankOf p prev, prevKey := if prev then some (k.port, k.h.vc) else none, place := .own }

/-- Whether the fence holds a packet no longer: the bank of its epoch has retired since (R127), or none of the packets that it waits for is left. -/
def fenceOpen (d : Dev) (k : Pkt) : Bool := k.opened || !d.prevHeld (plOf k.port) || d.prevCount k.port k.h.vc k.id = 0

/-- Whether a stalled packet may move on: it is the first of its port and VC, and, where it would enter the fence list, an entry is free. -/
def stallOpen (d : Dev) (k : Pkt) : Bool :=
  (match d.core.pkts.find? fun q => q.place = .stall && q.port = k.port && q.h.vc = k.h.vc with | some q => q.id = k.id | none => false) &&
    (!k.h.f || d.fenceOpen k || d.fenceUse (plOf k.port) < 1024)

/-- The first stalled F packet of a port and VC that finds the list full is counted when its turn has come (R160). -/
def stallNote (d : Dev) : Dev :=
  d.core.pkts.foldl (fun d k =>
    if k.place = .stall ∧ ¬ k.stalled ∧ k.h.f ∧ ¬ d.fenceOpen k ∧ 1024 ≤ d.fenceUse (plOf k.port)
        ∧ ((d.core.pkts.find? fun q => q.place = .stall && q.port = k.port && q.h.vc = k.h.vc).map (·.id)) = some k.id then
      (d.putPkt { k with stalled := true }).inc R.SC_FENCE_STALL
    else d) d

/-- A stalled packet moves on (R160). One that the fence does not hold passes checks 5 and 6 again, as a fenced one does (log entry 69). -/
def stallRelease (d : Dev) (k : Pkt) : Dev :=
  if k.h.f ∧ ¬ d.fenceOpen k then (d.inc R.SC_FENCE_HELD).addPkt { k with place := .fence } else d.fenceRelease k

/-- The packet of a number leaves the fence list, and a stalled one moves on, where it may. -/
def fenceGo (d : Dev) (id : Nat) : Dev := match d.pkt? id with | some k => if k.place = Place.fence && d.fenceOpen k then d.fenceRelease k else d | none => d
def stallGo (d : Dev) (id : Nat) : Dev := match d.pkt? id with | some k => if k.place = Place.stall && d.stallOpen k then d.stallRelease k else d | none => d

/-- A pending overflow lookup completes (R118). It is a miss, counted in EM_OVF_SKIP, when it needs a channel that is quiesced (R627), and a miss when
a burst of the block is uncorrectable (R625, R630). -/
def overflowDone (d : Dev) (k : Pkt) : Dev :=
  let mac := slice k.pay 0 6
  let b := emBucket k.h.part mac
  let (d, found) : Dev × Option (List Byte) :=
    if d.ovfShut b (d.spill b) then (d.inc (R.EM_OVF_SKIP (plOf k.port)), none)
    else match d.ovfRead b with
      | (true, d) => (d, d.emFind k.h.part mac)
      | (false, d) => (d, none)
  releaseBehind k.port d.core.pkts.length (d.emOutcome k found)

end Dev
end Sys2Proof.Machine
end

