-- ==== Sys2Proof/Machine/Crossbar.lean ====
section
/-! DEFINITION. The crossbar: virtual output queues, the central scheduler, trains, cell part errors, age limits (spec/04_switch_core.md
R138 to R147, R161 to R164, spec/06_scheduling_shaping.md R215). -/
namespace Sys2Proof.Machine

/-- A copy that still has cells to cross. -/
def crossing (k : Pkt) (c : Copy) : Bool := c.stage = .voq || (c.stage = .cross && c.n < k.cells)

/-- The copy of a packet towards an output. -/
def copyTo (k : Pkt) (o : Nat) : Option Copy := k.copies.find? fun c => c.out = o

/-- Replace the copy towards an output. -/
def setCopy (k : Pkt) (c : Copy) : Pkt := { k with copies := k.copies.map fun x => if x.out = c.out then c else x }

/-- First element at or after `s` in an order that wraps at 32. -/
def firstFrom (s : Nat) (f : Nat → Bool) : Option Nat := (rotate 32 s).find? f

namespace Dev

/-- The active slices in ascending order: part k of every cell travels on the k-th of them (R140). -/
def activeSlices (d : Dev) : List Nat := (List.range 17).filter (· ≠ d.fld R.SC_SLICE F.SC_SLICE_SPARE)

/-- The part of every cell that a slice carries; none on the slice that SPARE names. -/
def partOn (d : Dev) (s : Nat) : Option Nat := d.activeSlices.findIdx? (· = s)

/-- Whether the crossbar carries cells (R42): QREQ is zero in each active slice; Lake, whose cells cross, is not quiesced (R41). -/
def xbarOn (d : Dev) : Bool := d.lakeOn && d.activeSlices.all fun s => !d.on (R.QCTRL_XS s) F.QREQ

/-- The head of the queue (input, output, VC). -/
def voqHead (d : Dev) (u o v : Nat) : Option (Pkt × Copy) :=
  d.core.pkts.findSome? fun k =>
    if k.unit = u ∧ k.h.vc = v ∧ k.place = .queued then
      match copyTo k o with | some c => if crossing k c then some (k, c) else none | none => none
    else none

/-- HELD of a pipeline (R215): launch-timed packets from the grant of their first cell until they begin or are discarded. A multicast packet counts once for each of
its copies towards the pipeline (DESIGN CHOICE, log entry 89). -/
def held (d : Dev) (p : Nat) : Nat :=
  (d.core.pkts.map fun k => if k.launch.isSome then
      k.copies.countP fun c => outUnit c.out = p && (c.stage = .cross || c.stage = .egress) else 0).sum

/-- Whether a head waits at LAUNCH_MAX (R215); a packet that counts already goes on. -/
def launchBlocked (d : Dev) (k : Pkt) (c : Copy) : Bool :=
  k.launch.isSome && c.stage = .voq && c.out < 1024 &&
    d.fld (R.EG_LAUNCH (plOf c.out)) F.EG_LAUNCH_LAUNCH_MAX ≤ d.held (plOf c.out)

/-- EGR_LIMIT as it holds for a copy of VC v: the value in effect, or the one with which its crossing began (R37). -/
def egrLimit (d : Dev) (c : Copy) (v : Nat) : Nat := if c.stage = .cross then c.limit else d.fld (R.LK_ETH v) F.LK_ETH_EGR_LIMIT

/-- Whether a copy has room at its output (R143, R181); `full` lists the vat banks whose front ends have no room for a train. -/
def roomAt (d : Dev) (full : List Nat) (c : Copy) (v : Nat) : Bool :=
  if c.out < 1024 then d.depth c.out v < d.egrLimit c v else !full.contains (c.out - 1024)

/-- Eligibility of a queue (R143, R181). A pipeline that is quiesced sends no cells (01_architecture.md). -/
def voqEligible (d : Dev) (full : List Nat) (u o v : Nat) : Bool :=
  match d.voqHead u o v with
  | none => false
  | some (k, c) => d.roomAt full c v && !d.launchBlocked k c && !(u < 16 && d.on (R.QSTAT_PL u) F.QACK)

/-- The queues that hold packets: (input, output, VC). -/
def voqs (d : Dev) : List (Nat × Nat × Nat) :=
  (d.core.pkts.flatMap fun k => if k.place = .queued then (k.copies.filter (crossing k)).map fun c => (k.unit, c.out, k.h.vc) else []).eraseDups

/-- The matching of one slot (R144): the pairs matched, with the pointers moved for pairs accepted in the first iteration. `req` lists the pairs
(input, output) that have an eligible queue; `n` iterations are left. -/
def matchIter (req : List (Nat × Nat)) : Nat → Bool → List (Nat × Nat) → List Nat → List Nat → List (Nat × Nat) × List Nat × List Nat
  | 0, _, m, g, a => (m, g, a)
  | n + 1, first, m, g, a =>
    let freeIn i := m.all fun x => x.1 ≠ i
    let freeOut j := m.all fun x => x.2 ≠ j
    let grant (j : Nat) : Option Nat :=
      if freeOut j then firstFrom (g.getD j 0) fun i => freeIn i && req.contains (i, j) else none
    let grants := (List.range 32).map grant
    let acc := (List.range 32).filterMap fun i =>
      if freeIn i then (firstFrom (a.getD i 0) fun j => grants.getD j none = some i).map fun j => (i, j) else none
    let g' := if first then acc.foldl (fun g x => g.set x.2 ((x.1 + 1) % 32)) g else g
    let a' := if first then acc.foldl (fun a x => a.set x.1 ((x.2 + 1) % 32)) a else a
    matchIter req n false (m ++ acc) g' a'

/-- The queue a matched pair serves (R145): VC0, VC7, then VC1 to VC6 from the pair's VC pointer; port codes from the (pair, VC) port
pointer. The pointers are kept under 32 i + j and 8 (32 i + j) + v. -/
def pickQueue (d : Dev) (full : List Nat) (i j : Nat) : Option (Nat × Nat) :=
  let outs := if j < 16 then (List.range 64).map (64 * j + ·) else [1024 + (j - 16)]
  let vcs := [0, 7] ++ (rotate 6 (Sparse.get 0 d.core.vcPtr (32 * i + j))).map (· + 1)
  let act := d.voqs.filter fun q => q.1 = i && outs.contains q.2.1
  vcs.findSome? fun v =>
    let l := (act.filter fun q => q.2.2 = v).map (·.2.1)
    if l.isEmpty then none
    else
      let s := Sparse.get 0 d.core.portPtr (8 * (32 * i + j) + v)
      let order := (rotate outs.length s).map fun n => outs.getD n 0
      (order.find? fun o => l.contains o && d.voqEligible full i o v).map fun o => (o, v)

/-- The pointers after a pair's queue was served (R145): each stands after what was served, and the VC pointer stays where that was VC0 or VC7 (DESIGN CHOICE, log entry 90). -/
def movePtrs (d : Dev) (i j o v : Nat) : Dev :=
  let c := d.core
  let c := if 1 ≤ v ∧ v ≤ 6 then { c with vcPtr := Sparse.put 0 c.vcPtr (32 * i + j) (v % 6) } else c
  let c := if o < 1024 then { c with portPtr := Sparse.put 0 c.portPtr (8 * (32 * i + j) + v) ((o % 64 + 1) % 64) } else c
  { d with core := c }

/-- Take up the largest egress depth of the beat (R217). -/
def noteDepth (d : Dev) (o v : Nat) : Dev :=
  if o < 1024 then
    let q := Sparse.get {} d.core.qstat (8 * o + v)
    let n := d.depth o v
    if q.depthMax < n then { d with core := { d.core with qstat := Sparse.put {} d.core.qstat (8 * o + v) { q with depthMax := n } } } else d
  else d

/-- One cell of a queue's head crosses (R146), the first with EGR_LIMIT as it stands (R37). A packet whose last cell has crossed stands in its egress queue or in
the front end, where its place is that of its arrival. -/
def crossCell (d : Dev) (k : Pkt) (c : Copy) : Dev :=
  let first := c.stage = .voq ∨ (k.cells ≤ c.n + 1 ∧ 1024 ≤ c.out)
  let (es, d) := if first then (d.core.eseq, { d with core := { d.core with eseq := d.core.eseq + 1 } }) else (c.eseq, d)
  let n := c.n + 1
  let last := k.cells ≤ n
  let st : Stage := if ¬ last then .cross else if c.out < 1024 then .egress else .fe
  let k := setCopy k { c with stage := st, n := n, eseq := es, limit := d.egrLimit c k.h.vc }
  (d.putPkt (if last ∧ 1024 ≤ c.out then { k with prevKey := none } else k)).noteDepth c.out k.h.vc

/-- A train from one queue (R145): it ends at its limit, when the queue empties or when it is not eligible any more. Answers the packets that
the cells sent belong to, cell by cell. -/
def train (full : List Nat) (u o v : Nat) : Nat → Dev → List Nat → Dev × List Nat
  | 0, d, ids => (d, ids)
  | m + 1, d, ids =>
    if d.voqEligible full u o v then
      match d.voqHead u o v with
      | none => (d, ids)
      | some (k, c) => train full u o v m (d.crossCell k c) (ids ++ [k.id])
    else (d, ids)

/-- A cell part error of a slot (R140, R141): the slice, the input whose train it falls in, the cell's place in the train, the bits of the part and its
code in error. The code corrects one bit and detects two; the part counts as uncorrectable from two on. -/
structure PartErr where
  slice : Nat
  unit : Nat
  cell : Nat
  bits : Nat
deriving DecidableEq, Repr

/-- A part error in a cell of the copy of a packet towards an output (R141). A packet known to be stomped upstream stays out of PL_PAYLOAD_BAD (R84). One whose
check has not arrived yet is counted there by R141, and in PL_PAYLOAD_STOMPED by R84 when a stomped check follows (DESIGN CHOICE, log entry 87). -/
def partErr (d : Dev) (e : PartErr) (id out : Nat) : Dev :=
  if e.bits = 0 then d
  else if e.bits = 1 then (d.inc R.SC_SLICE_CORR).error 0x07 e.slice 0x21 1 [e.unit]
  else
    let d := (d.inc R.SC_SLICE_UNCORR).error 0x07 e.slice 0x22 2 [e.unit]
    match d.pkt? id with
    | none => d
    | some k =>
      let cnt := out < 1024 && !k.bad
      let d := if cnt then d.countBad k else d
      d.putPkt { k with counted := k.counted || cnt, copies := k.copies.map fun c => if c.out = out then { c with bad := true } else c }

/-- The runs of uncorrectable slots of each slice (R503). -/
def countSliceRuns (d : Dev) (errs : List PartErr) : Dev :=
  { d with core := { d.core with sliceRun := (List.range 17).map fun s =>
      if (errs.any fun e => e.slice = s && 2 ≤ e.bits) = true then d.core.sliceRun.getD s 0 + 1 else 0 } }

/-- The errors of a slot that fall in a cell which a train carried, with the packet and the output: a slice that SPARE names carries no part. -/
def partHits (d : Dev) (errs : List PartErr) (unit out : Nat) (ids : List Nat) : List (PartErr × Nat × Nat) :=
  errs.filterMap fun e => if e.unit = unit ∧ (d.partOn e.slice).isSome then (ids[e.cell]?).map fun id => (e, id, out) else none

/-- One cell slot (R139, R144 to R146). `full` are the vat banks whose front ends have no room: the spec does not say how much one holds (R309; DESIGN CHOICE, log entries
16, 91). EG_LAUNCH_LIMIT counts a slot at whose start a head waits at LAUNCH_MAX; one in which HELD reaches it only part-way is not
counted (R215; DESIGN CHOICE, log entry 87). -/
def slot (d : Dev) (full : List Nat) (errs : List PartErr) : Dev :=
  -- the vat banks whose front ends are full, until the next slot says otherwise (FE_FULL of R606)
  let d := { d with core := { d.core with feFull := full } }
  if ¬ d.xbarOn then d
  else
    let qs := d.voqs
    let elig := qs.filter fun q => d.voqEligible full q.1 q.2.1 q.2.2
    let req := (elig.map fun q => (q.1, outUnit q.2.1)).eraseDups
    let blocked := (List.range 16).filter fun p => qs.any fun q => outUnit q.2.1 = p &&
      match d.voqHead q.1 q.2.1 q.2.2 with | some (k, c) => d.launchBlocked k c | none => false
    let d := blocked.foldl (fun d p => d.inc (R.EG_LAUNCH_LIMIT p)) d
    let (m, g, a) := matchIter req 3 true [] d.core.gptr d.core.aptr
    let d := { d with core := { d.core with gptr := g, aptr := a } }
    let left := (List.range 32).filter fun i => req.any (·.1 = i) && m.all (·.1 ≠ i)
    let d := (left.filter (· < 16)).foldl (fun d p => d.pm (.pl p) 0x0103 none 1) d
    let d := d.pm .sc 0x0202 none left.length
    let r := m.foldl (fun (y : Dev × List (PartErr × Nat × Nat)) x =>
      match y.1.pickQueue full x.1 x.2 with
      | none => y
      | some (o, v) =>
        let (d, ids) := train full x.1 o v (if x.2 < 16 then 12 else 8) y.1 []
        let d := (d.movePtrs x.1 x.2 o v).pm .sc 0x0201 none ids.length
        (d, y.2 ++ d.partHits errs x.1 o ids)) (d, [])
    (r.2.foldl (fun d x => d.partErr x.1 x.2.1 x.2.2) r.1).countSliceRuns (r.2.map (·.1))

/-! Removing one copy. -/

/-- One copy of a packet is gone; with the last, the packet's cells return to Lake (R169), `ptr` a wrong pointer among them. -/
def dropWith (d : Dev) (k : Pkt) (o : Nat) (ptr : Option Nat) : Dev :=
  let l := k.copies.filter fun c => c.out ≠ o
  if l.isEmpty then d.takeWith k.id ptr else d.putPkt { k with copies := l }

/-- One copy of a packet is gone. -/
def dropCopy (d : Dev) (k : Pkt) (o : Nat) : Dev := d.dropWith k o none

/-! Age limits (R162 to R164). -/

/-- A packet, or one copy of it, at its age limit. A copy part-way across the crossbar completes its crossing first; one being sent completes (R150). The
NACK of one copy of a multicast request shares the cells and charges of the packet until the other copies have gone (R170, log entry 18). -/
def ageLimitAt (d : Dev) (k : Pkt) (o : Option Nat) : Dev :=
  let v := k.h.vc
  if ¬ d.aged k then d
  else
    let drop (d : Dev) (unit out : Nat) := (d.inc R.SC_AGE_DROP).captureAt unit k out 0x0D
    let nack (d : Dev) (unit out : Nat) := (d.inc R.SC_AGE_NACK).captureAt unit k out 0x0E
    match o with
    | none =>
      if k.copies ≠ [] then d
      else if v = 3 then (nack d k.unit 0x3FF).becomeNack k 0x01 d.lc
      else (drop d k.unit 0x3FF).takePkt k.id
    | some o =>
      match copyTo k o with
      | none => d
      | some c =>
        if c.stage = .voq ∨ c.stage = .egress ∨ c.stage = .fe ∨ c.stage = .vat then
          if v = 3 ∧ ¬ k.nacked then
            if k.copies.length = 1 then (nack d (copyUnit k c) o).becomeNack k 0x01 d.lc
            else
              let (id, d) := (nack d (copyUnit k c) o).freshId
              let d := d.dropCopy { k with nacked := true } o
              d.becomeNack { k with id := id, main := 0, hr := 0, owners := [], occ := none, cellsAt := [], share := some k.id } 0x01 d.lc
          else (drop d (copyUnit k c) o).dropCopy k o
        else d

end Dev
end Sys2Proof.Machine
end

