-- ==== Sys2Proof/Machine/Egress.lean ====
section
/-! DEFINITION. Egress queues, arbitration, shapers, gate control lists, launch times and transmission (spec/06_scheduling_shaping.md R193 to R217,
spec/04_switch_core.md R149, R150, R152). -/
namespace Sys2Proof.Machine

namespace Dev

/-! Gate control lists. -/

/-- Entry i of bank b of a port code's list: GATES and INTERVAL in ns. -/
def gclEntry (d : Dev) (c b i : Nat) : Nat × Nat :=
  let a := R.GCL_ENTRY (plOf c) (c % 64) (64 * b + i)
  (d.fld a F.GCL_ENTRY_GATES, d.fld a F.GCL_ENTRY_INTERVAL * 16)

/-- The gates at an offset in the cycle, in units of 2^-16 ns, and the offset at which they end (R204): `acc` is where entry i starts. -/
def gclWalk (d : Dev) (c b len cyc off : Nat) : Nat → Nat → Nat → Nat × Nat
  | 0, _, _ => (0xFF, cyc)
  | n + 1, i, acc =>
    let (g, iv) := d.gclEntry c b i
    if off < acc + iv * unitsPerNs then (g, min (acc + iv * unitsPerNs) cyc)
    else if len ≤ i + 1 then (g, cyc)
    else gclWalk d c b len cyc off n (i + 1) (acc + iv * unitsPerNs)

/-- The beat nearest ahead of, or behind, the beat in progress with a number modulo 2^48. -/
def beatAhead (d : Dev) (n : Nat) : Nat := d.time.beat + (n + 2 ^ 48 - d.beatNo) % 2 ^ 48
def beatBehind (d : Dev) (n : Nat) : Nat := d.time.beat - (d.beatNo + 2 ^ 48 - n) % 2 ^ 48

/-- The gates of a port code at fabric time t, and the time until which they stand (R204 to R206). R204 counts cycles from the boundary at which the list took
over; at a fabric time before it, after a backward step (R455), the cycle is taken to extend backwards (DESIGN CHOICE, log entry 85). -/
def gatesAt (d : Dev) (c t : Nat) : Nat × Nat :=
  let p := plOf c
  let k := c % 64
  let oper := d.beatBehind ((d.reg (R.GCL_OPER_LO p k)).toNat + (d.reg (R.GCL_OPER_HI p k)).toNat * 2 ^ 32)
  let cfg := R.GCL_OPER_CFG p k
  let bank := d.fld (R.GCL_STAT p k) F.GCL_STAT_OPER_BANK
  let seg (b len cycB base limit : Nat) : Nat × Nat :=
    if len = 0 then (0xFF, limit)
    else
      let cyc := cycB * beatUnits
      let off := (((t : Int) - (base * beatUnits : Nat)) % (cyc : Int)).toNat
      let (g, e) := d.gclWalk c b len cyc off 64 0 0
      (g, min (t - off + e) limit)
  match Sparse.find d.core.gcl c with
  | some (len, cycB, base) =>
    let b := d.beatAhead base
    if b * beatUnits ≤ t then seg (1 - bank) len cycB b (t + 2 ^ 40)
    else seg bank (d.fld cfg F.GCL_OPER_CFG_LEN) (d.fld cfg F.GCL_OPER_CFG_CYCLE_BEATS) oper (b * beatUnits)
  | none => seg bank (d.fld cfg F.GCL_OPER_CFG_LEN) (d.fld cfg F.GCL_OPER_CFG_CYCLE_BEATS) oper (t + 2 ^ 40)

/-- The time until which the gate of VC v stays open from t on, looked at as far as `lim`; t itself when it is closed (R206). Each look passes at least one unit of time, so
that as many as there are units up to `lim` suffice. -/
def openUntil (d : Dev) (c v lim : Nat) : Nat → Nat → Nat
  | 0, t => t
  | n + 1, t =>
    if lim ≤ t then t
    else match d.gatesAt c t with
      | (g, e) => if v = 0 ∨ v = 7 then lim else if bit g v then (if e ≤ t then t else openUntil d c v lim n e) else t

/-- Bytes per ns of a port code (R206). -/
def portRate (d : Dev) (c : Nat) : Nat := if d.isSplit (c / 2) then 60 else 120

/-- The time a packet's gate must stay open, in units of fabric time. -/
def guardTime (d : Dev) (c len : Nat) : Nat :=
  ceilDiv (len + d.fld (R.EG_GUARD (plOf c)) F.EG_GUARD_GUARD) (d.portRate c) * unitsPerNs

/-- The gate test of a queue: whether the gate is open now, whether the guard test passes, and until when the gate stays open. -/
def gateTest (d : Dev) (c v len : Nat) : Bool × Bool × Nat :=
  let t := d.fabT
  let lim := t + d.guardTime c len
  let e := d.openUntil c v lim (lim - t) t
  (v = 0 || v = 7 || t < e, lim ≤ e, e)

/-- A hand-over is asked for, withdrawn or both by a write of GCL_CTRL (R207, R209): LEN and CYCLE_BEATS, then CANCEL, then GO. A CANCEL that comes too late
sets CANCEL_LATE at once and not when the list takes over (DESIGN CHOICE, log entry 14): R209 does not say which. -/
def gclWrite (d : Dev) (c len cyc : Nat) (cancel go : Bool) : Dev :=
  let p := plOf c
  let k := c % 64
  let st := R.GCL_STAT p k
  let d := (d.setFld (R.GCL_CTRL p k) F.GCL_CTRL_LEN len).setFld (R.GCL_CTRL p k) F.GCL_CTRL_CYCLE_BEATS cyc
  let ahead (n : Nat) := (n + 2 ^ 48 - d.beatNo) % 2 ^ 48
  let d := if cancel then
      match Sparse.find d.core.gcl c with
      | none => d
      | some (_, _, base) =>
        if 2 ≤ ahead base then { d.setFld st F.GCL_STAT_PENDING 0 with core := { d.core with gcl := Sparse.del d.core.gcl c } }
        else d.setFld st F.GCL_STAT_CANCEL_LATE 1
    else d
  if go then
    let base := (d.reg (R.GCL_BASE_LO p k)).toNat + bits (d.reg (R.GCL_BASE_HI p k)).toNat 15 0 * 2 ^ 32
    if (Sparse.find d.core.gcl c).isNone ∧ 2 ≤ ahead base ∧ ahead base < 2 ^ 47 then
      { d.setFld st F.GCL_STAT_PENDING 1 with core := { d.core with gcl := Sparse.ins d.core.gcl c (len, cyc, base) } }
    else d.setFld st F.GCL_STAT_GO_REFUSED 1
  else d

/-- Pending lists whose BASE is the beat in progress take over (R208). -/
def gclHandOver (d : Dev) : Dev :=
  (d.core.gcl.filter fun x => x.2.2.2 = d.beatNo).foldl (fun d x =>
    match x with
    | (c, len, cyc, base) =>
      let p := plOf c
      let k := c % 64
      let st := R.GCL_STAT p k
      let d := d.setFld st F.GCL_STAT_OPER_BANK (1 - d.fld st F.GCL_STAT_OPER_BANK)
      let d := d.setFld st F.GCL_STAT_PENDING 0
      let d := (d.setNum (R.GCL_OPER_LO p k) (base % 2 ^ 32)).setNum (R.GCL_OPER_HI p k) (base / 2 ^ 32)
      let d := (d.setFld (R.GCL_OPER_CFG p k) F.GCL_OPER_CFG_LEN len).setFld (R.GCL_OPER_CFG p k) F.GCL_OPER_CFG_CYCLE_BEATS cyc
      { d.inc (R.EG_GCL_SWAP p) with core := { d.core with gcl := Sparse.del d.core.gcl c } }) d

/-! Shapers (R198 to R201). -/

/-- The level of a shaper, in bytes. -/
def shLevel (d : Dev) (c v : Nat) : Int := sgn 32 (d.reg (R.SH_LEVEL (plOf c) (8 * (c % 64) + v))).toNat

/-- Whether a shaper is enabled. -/
def shOn (d : Dev) (c v : Nat) : Bool := d.on (R.SH_CFG (plOf c) (8 * (c % 64) + v)) F.SH_CFG_EN

/-- Set a shaper's level. -/
def setShLevel (d : Dev) (c v : Nat) (z : Int) : Dev := d.setNum (R.SH_LEVEL (plOf c) (8 * (c % 64) + v)) (unsgn 32 z)

/-- Refill at step 5 of R35: a shaper newly enabled starts from zero (R200). The queues are numbered 8 c + v. -/
def shRefill (d : Dev) (q : Nat) : Dev :=
  let c := q / 8
  let v := q % 8
  let a := R.SH_CFG (plOf c) (8 * (c % 64) + v)
  if d.on a F.SH_CFG_EN then
    let lv := if Sparse.get false d.core.shEnPrev q then d.shLevel c v else 0
    let rate : Int := (d.fld a F.SH_CFG_RATE * 64 : Nat)
    let cap := max ((d.fld a F.SH_CFG_BURST * 4096 : Nat) : Int) rate
    { d.setShLevel c v (min cap (lv + rate)) with core := { d.core with shEnPrev := Sparse.put false d.core.shEnPrev q true } }
  else { d.setShLevel c v 0 with core := { d.core with shEnPrev := Sparse.put false d.core.shEnPrev q false } }

/-- The queues whose shaper is enabled or was at the last boundary. -/
def shapedQueues (d : Dev) : List Nat :=
  ((d.core.shEnPrev.map fun (x : Nat × Bool) => x.1) ++ d.csr.regs.filterMap fun (x : Nat × Word) =>
    let a := x.1 - 0x10010000
    if 0x10010000 ≤ x.1 ∧ a / 0x1000000 < 16 ∧ a % 0x1000000 < 0x1000 ∧ a % 8 = 0 then
      some (512 * (a / 0x1000000) + a % 0x1000000 / 8) else none).eraseDups

/-! Queues. -/

/-- The packets of an egress queue in the order of their grants. R147 orders those of one input; between inputs a packet stands by the crossing of its first
cell (DESIGN CHOICE, log entry 90). -/
def egressQ (d : Dev) (c v : Nat) : List (Pkt × Copy) :=
  let l := d.core.pkts.filterMap fun k => if k.h.vc = v ∧ k.place = .queued then
      (copyTo k c).bind fun x => if x.stage = .cross ∨ x.stage = .egress then some (k, x) else none else none
  l.mergeSort fun a b => a.2.eseq ≤ b.2.eseq

/-- The head of an egress queue. -/
def egressHead (d : Dev) (c v : Nat) : Option (Pkt × Copy) := (d.egressQ c v).head?

/-- XOFF as the neighbour holds it (R152, R153), or as a port acts that has had no good LCS for 1 µs (R378). -/
def xoffRcvd (d : Dev) (c v : Nat) : Bool := lossless v && (bit (d.fld (R.SC_XOFF c) F.SC_XOFF_XOFF_RCVD) v || (d.lk c).starved)

/-- Why a queue may not send (R194). -/
structure Blocks where
  head : Bool
  xoff : Bool
  gate : Bool
  shaped : Bool
  launch : Bool
  openEnd : Nat
  gateShut : Bool
deriving DecidableEq, Repr

/-- The tests of R194 on the head of a queue; a packet at its age limit is never started (R162). -/
def blocks (d : Dev) (c v : Nat) (k : Pkt) (x : Copy) : Blocks :=
  let (op, ok, e) := d.gateTest c v (pktLen k.h)
  { head := x.stage ≠ .egress || d.aged k || !(k.ended || (0 < k.inRate && d.rateOut c ≤ k.inRate)),
    xoff := d.xoffRcvd c v, gate := !ok, shaped := d.shOn c v && d.shLevel c v ≤ 0,
    launch := (match k.launch with | some t => decide ((d.fabT : Int) < t) | none => false), openEnd := e, gateShut := !op }

/-- Whether nothing stops the head. -/
def Blocks.clear (b : Blocks) : Bool := !b.head && !b.xoff && !b.gate && !b.shaped && !b.launch

/-- Eligibility of an egress queue (R194). -/
def egEligible (d : Dev) (c v : Nat) : Bool :=
  match d.egressHead c v with | some (k, x) => (d.blocks c v k x).clear | none => false

/-- The flags of R217 for one queue while time goes on from the present count to `now`: blocked by XOFF, by its shaper, and by its gate or guard test at any
moment on the way. -/
def noteFlags (d : Dev) (now q : Nat) : Dev :=
  let c := q / 8
  let v := q % 8
  match d.egressHead c v with
  | none => d
  | some (k, x) =>
    let b := d.blocks c v k x
    let lim := d.fabAt now - 1 + d.guardTime c (pktLen k.h)
    let shut := v ≠ 0 && v ≠ 7 && decide (d.openUntil c v lim (lim - d.fabT) d.fabT < lim)
    let s := Sparse.get {} d.core.qstat q
    let s := { s with xoff := s.xoff || b.xoff, gate := s.gate || shut, shaped := s.shaped || b.shaped }
    { d with core := { d.core with qstat := Sparse.put {} d.core.qstat q s } }

/-- The queues that hold packets. -/
def heldQueues (d : Dev) : List Nat :=
  (d.core.pkts.flatMap fun (k : Pkt) => (k.copies.filter fun x => x.out < 1024 && (x.stage = .cross || x.stage = .egress)).map fun x =>
    8 * x.out + k.h.vc).eraseDups

/-- The flags of every queue. -/
def noteAll (d : Dev) (now : Nat) : Dev := d.heldQueues.foldl (fun d q => d.noteFlags now q) d

/-- EG_GATE_DEFER at a choice (R206): once for each open period in which a head fails the guard test. -/
def noteDefer (d : Dev) (c v : Nat) : Dev :=
  match d.egressHead c v with
  | none => d
  | some (k, x) =>
    let b := d.blocks c v k x
    if b.gate ∧ ¬ b.gateShut ∧ ¬ (x.deferred ∧ x.openEnd = b.openEnd) then
      (d.putPkt (setCopy k { x with deferred := true, openEnd := b.openEnd })).inc (R.EG_GATE_DEFER (plOf c))
    else d

/-- Whether the head of a queue is kept by its shaper alone. -/
def onlyShaped (d : Dev) (c v : Nat) : Bool :=
  match d.egressHead c v with
  | some (k, x) => let b := d.blocks c v k x; b.shaped && { b with shaped := false }.clear
  | none => false

/-- The transmission state of a port code. -/
def txOf (d : Dev) (c : Nat) : PortTx := Sparse.get {} d.core.tx c
def setTx (d : Dev) (c : Nat) (t : PortTx) : Dev := { d with core := { d.core with tx := Sparse.put {} d.core.tx c t } }

/-- The weight of a VC at a port code (R195). -/
def egWeight (d : Dev) (c v : Nat) : Nat :=
  let p := plOf c
  if v ≤ 4 then bits (d.reg (R.EG_WEIGHT_A p)).toNat (8 * v - 1) (8 * v - 8) else bits (d.reg (R.EG_WEIGHT_B p)).toNat (8 * (v - 4) - 1) (8 * (v - 4) - 8)

/-- The round robin of R196: `el` says of VC1 to VC6 whether it is eligible with the length of its head, `emp` whether its queue is empty. Answers
the VC chosen, the state after it and the VCs passed over on the way. -/
def drr (el : Nat → Option Nat) (emp : Nat → Bool) (w : Nat → Nat) : Nat → PortTx → List Nat → Option Nat × PortTx × List Nat
  | 0, t, l => (none, t, l)
  | n + 1, t, l =>
    let v := t.rr
    let next (t : PortTx) : PortTx := { t with rr := v % 6 + 1, inTurn := false }
    if emp v then drr el emp w n (next { t with deficit := t.deficit.set v 0 }) l
    else match el v with
      | none => drr el emp w n (next t) (l ++ [v])
      | some len =>
        if w v = 0 then drr el emp w n (next t) l
        else
          let q := t.deficit.getD v 0 + (if t.inTurn then 0 else w v * 256)
          if len ≤ q then (some v, { t with inTurn := true, deficit := t.deficit.set v (q - len) }, l)
          else drr el emp w n (next { t with deficit := t.deficit.set v q }) l

/-- The queue a free port chooses (R194 to R197), the round robin's state after it, and the VCs passed over before it. Without an eligible VC of weight above
zero one round of the VCs is made, in which the deficits of empty queues become zero. -/
def chooseVc (d : Dev) (c : Nat) : Option Nat × PortTx × List Nat :=
  let t := d.txOf c
  let el v := if d.egEligible c v then (d.egressHead c v).map fun x => pktLen x.1.h else none
  let emp v := (d.egressQ c v).isEmpty
  if d.egEligible c 0 then (some 0, t, [])
  else if d.egEligible c 7 then (some 7, t, [0])
  else if [1, 2, 3, 4, 5, 6].any fun v => d.egEligible c v && 0 < d.egWeight c v then drr el emp (d.egWeight c) 512 t [0, 7]
  else match drr el emp (d.egWeight c) 6 t [0, 7] with
    | (_, t, l) => ([1, 2, 3, 4, 5, 6].find? fun v => d.egEligible c v, t, l)

/-- The round robin after a step: a queue that has emptied has no deficit, and the turn of a VC that is not eligible any more is over (R196). It is looked at when
each command ends: a queue that is ineligible only between two commands keeps its turn (DESIGN CHOICE, log entry 85). A queue is empty from the moment its last
packet begins, though that is still in transmission (DESIGN CHOICE, log entry 89). -/
def turnSettle (d : Dev) (c : Nat) : Dev :=
  let t := d.txOf c
  let t := { t with deficit := (List.range 8).map fun v => if (d.egressQ c v).isEmpty then 0 else t.deficit.getD v 0 }
  d.setTx c (if t.inTurn ∧ ¬ d.egEligible c t.rr then { t with rr := t.rr % 6 + 1, inTurn := false } else t)

/-- The same at every port that has a deficit or a turn. -/
def turnsSettle (d : Dev) : Dev := (d.core.tx.map (·.1)).foldl turnSettle d

/-- A header goes into the data stream of its port (R374). -/
def streamHeader (d : Dev) (c : Nat) (h : List Byte) : Dev :=
  let l := d.lk c
  if l.streaming then d.setLk c { l with txq := l.txq ++ h.mapIdx (fun i b => (b, decide (i = 0))), txBody := 0 } else d

/-- What is left of a packet goes into the data stream of its port: payload and check. -/
def streamRest (d : Dev) (c : Nat) (body : List Byte) : Dev :=
  let l := d.lk c
  if l.streaming then d.setLk c { l with txq := l.txq ++ (body.drop l.txBody).map fun b => (b, false), txBody := 0 } else d

/-- Begin the transmission of a queue's head (R61, R87, R149, R150, R181, R182, R199, R213); an announcement of this device takes its sending
time now (R452). A late packet that R213 discards leaves the pointer, the turn and the deficits of R196 as they were before it was chosen: choose() of chapter 06
has added its quantum and taken its length off by then, R196 takes lengths off for packets sent (DESIGN CHOICE, log entry 87). -/
def begin (d : Dev) (c v : Nat) (t : PortTx) (k : Pkt) (x : Copy) : Dev :=
  let p := plOf c
  let late : Bool := match k.launch with
    | some l => decide (l + d.fld (R.EG_LATE_TOL p) F.EG_LATE_TOL_LATE_TOL * unitsPerNs < (d.fabT : Int))
    | none => false
  let d := if late then d.inc (R.EG_LAUNCH_LATE p) else d
  if late ∧ (v = 5 ∨ v = 6) ∧ d.on (R.EG_LAUNCH p) F.EG_LAUNCH_LATE_DROP then
    ((d.inc (R.EG_LAUNCH_DROP p)).captureAt p k c 0x11).dropCopy k c
  else
    let len := pktLen k.h
    let dep := d.depth c v
    let mark := d.fld (R.LK_ETH v) F.LK_ETH_MARK
    let e := k.h.e || mark < dep || (d.poolWarn && mark < 2 * dep)
    let h := { k.h with e := e, hop := if k.orig then k.h.hop else (k.h.hop + 1) % 16 }
    let d := if d.shOn c v then d.setShLevel c v (d.shLevel c v - len) else d
    let d := if k.launch.isSome then d.inc (R.EG_LAUNCHED p) else d
    let d := if 16 ≤ k.unit ∨ (0 < k.inRate ∧ k.inRate < d.rateOut c) then d.inc R.SC_SF_PACKETS else d
    let q := Sparse.get {} d.core.qstat (8 * c + v)
    let q := { q with delayMax := max q.delayMax (min (countsNs (d.age k)) (2 ^ 24 - 1)) }
    let d := { d with core := { d.core with qstat := Sparse.put {} d.core.qstat (8 * c + v) q } }
    let d := d.setTx c { t with busy := some (k.id, c) }
    let k : Pkt := if k.orig ∧ k.h.kind = 0x43 then { k with pay := splice k.pay 8 (beBytes (d.fabNs / 10 ^ 9) 8 ++ beBytes (d.fabNs % 10 ^ 9) 4) } else k
    ((d.putPkt (setCopy k { x with stage := .sending })).emit (.txBegin c d.lc k.id (hdrOut h))).streamHeader c (hdrOut h)

/-- Packets of a port's egress queues that stand at their age limit leave before a choice (R162). -/
def expelAged (d : Dev) (c : Nat) : Dev :=
  (d.core.pkts.map (·.id)).foldl (fun d id =>
    match d.pkt? id with
    | none => d
    | some k => if (k.copies.any fun x => x.out = c && x.stage = .egress) = true then d.ageLimitAt k (some c) else d) d

/-- A free port chooses (R194). EG_SHAPED counts a head that the choice passes over for its shaper alone (R219, log entry 41). A port whose Lake or optical
engine is quiesced begins nothing (R41). -/
def choose (d : Dev) (c : Nat) : Dev :=
  if ¬ d.linkUp c ∨ (d.txOf c).busy.isSome ∨ d.portShut c then d
  else
    let d := (List.range 8).foldl (fun d v => d.noteDefer c v) (d.expelAged c)
    match d.chooseVc c with
    | (r, t, l) =>
      let d := (l.eraseDups.filter (d.onlyShaped c)).foldl (fun d _ => d.inc (R.EG_SHAPED (plOf c))) d
      match r.bind fun v => (d.egressHead c v).map fun x => (v, x) with
      | none => d.setTx c t
      | some (v, k, x) => d.begin c v t k x

/-- Whether a packet leaves a port stomped, and its payload check as it leaves, most significant byte first (R81, R83, R141). -/
def outCheck (k : Pkt) (c : Nat) : Bool × List Byte :=
  let ck := crc32c k.pay
  let bad := k.bad || k.copies.any fun x => x.out = c && x.bad
  (bad, beBytes (if bad then ck ^^^ stompMask else ck) 4)

/-- The transmission in progress on a port code completes (R150, R169, R607); the payload check goes out most significant byte first (R81). `ptr`: a wrong
cell pointer returned to Lake in place of one of the packet's (R190, R191). -/
def txComplete (d : Dev) (c : Nat) (ptr : Option Nat) : Dev :=
  let t := d.txOf c
  match t.busy with
  | none => d
  | some (id, _) =>
    match d.pkt? id with
    | none => d.setTx c { t with busy := none }
    | some k =>
      if ¬ k.ended then d
      else
        let (bad, check) := outCheck k c
        let d := d.setTx c { t with busy := none }
        let d := (d.inc (R.TX_PKT c k.h.vc)).incBy (R.TX_BYTE c k.h.vc) (pktLen k.h)
        let d := (d.emit (.txEnd c d.lc id k.pay check bad)).streamRest c (k.pay ++ check)
        d.dropWith k c ptr

/-- A packet whose source stopped is completed with zeros and a stomped check (R375); `got` is its payload as far as rows brought it. -/
def truncate (d : Dev) (k : Pkt) (got : List Byte) : Dev :=
  let sending := k.copies.filter fun x => x.stage = .sending
  let d := sending.foldl (fun d x => d.inc (R.YZ_TX_TRUNC (x.out / 2))) d
  let pay := if got.length < k.pay.length then k.pay else got
  d.putPkt { k with pay := slice pay 0 k.h.plen, ended := true, bad := true }

/-! The samples of step 1 (R217, R361). -/

/-- Queues with something to sample: packets, or a running maximum, or a sample left from the beat before. -/
def sampleQueues (d : Dev) : List Nat :=
  ((d.core.qstat.map fun (x : Nat × QStat) => x.1) ++ (d.core.pkts.flatMap fun (k : Pkt) => (k.copies.filter fun x => x.out < 1024).map fun x => 8 * x.out + k.h.vc)
    ++ d.csr.regs.filterMap fun (x : Nat × Word) =>
      let a := x.1 - 0x10040000
      if 0x10040000 ≤ x.1 ∧ a / 0x1000000 < 16 ∧ a % 0x1000000 < 0x1000 then some (512 * (a / 0x1000000) + a % 0x1000000 / 8) else none).eraseDups

/-- The sample of one queue for the beat that ends; its flags were noted while the beat's time went by. A depth above 65,535 cells, which R217 gives no 16-bit
value for, is taken modulo 65,536 (DESIGN CHOICE, log entry 85); it is reached only where EGR_LIMIT is above what the queue's packets allow (log entry 31). -/
def sampleQueue (d : Dev) (q : Nat) : Dev :=
  let c := q / 8
  let v := q % 8
  let s := Sparse.get {} d.core.qstat q
  let dep := d.depth c v
  let age := match d.egressHead c v with | some (k, _) => min (countsNs (d.age k)) (2 ^ 24 - 1) | none => 0
  let i := 8 * (c % 64) + v
  let d := d.setNum (R.EG_SAMPLE_A (plOf c) i) (max dep s.depthMax % 65536 * 65536 + dep % 65536)
  let d := d.setNum (R.EG_SAMPLE_B (plOf c) i) (b2n s.xoff * 2 ^ 31 + b2n s.gate * 2 ^ 30 + b2n s.shaped * 2 ^ 29 + max age s.delayMax)
  { d with core := { d.core with qstat := Sparse.put {} d.core.qstat q { depthMax := dep } } }

/-- MS_HOT of one pipeline (R361). -/
def sampleHot (d : Dev) (p : Nat) : Dev :=
  let dep k := d.fld (R.EG_SAMPLE_A p (8 * k + 3)) F.EG_SAMPLE_A_DEPTH_END
  let b := (List.range 64).foldl (fun b k => if dep b < dep k then k else b) 0
  let c := 64 * p + b
  let valid := d.fld (R.MS_CTRL p) F.MS_CTRL_HOT_MIN ≤ dep b
  let d := d.setNum (R.MS_HOT_A p) (b2n valid * 2 ^ 31 + c * 2 ^ 16 + dep b)
  let d := d.setNum (R.MS_HOT_B p) (match d.egressHead c 3 with | some (k, _) => b2n k.h.m * 2 ^ 18 + k.h.dest | none => 0)
  if valid then d.inc (R.MS_HOT_BEATS p) else d

/-- All samples of the beat that ends. -/
def sampleAll (d : Dev) : Dev :=
  let d := (d.sampleQueues).foldl sampleQueue d
  (List.range 16).foldl sampleHot d

end Dev
end Sys2Proof.Machine
end

