-- ==== Sys2Proof/Machine/Operands.lean ====
section
/-! DEFINITION. The operand forms of the vats: element formats of contributions and results and the exact values they carry
(spec/08_vat_arithmetic.md R262 to R268, R293). -/
namespace Sys2Proof.Machine

/-- The exact value of an element: a NaN, an infinity, or plus or minus m * 2^e. -/
inductive Val where
  | nan
  | inf (neg : Bool)
  | fin (neg : Bool) (m : Nat) (e : Int)
deriving DecidableEq, Repr

/-- A floating-point format (R263): exponent bits, fraction bits, bias. -/
structure FFmt where
  eb : Nat
  fb : Nat
  bias : Nat
deriving DecidableEq, Repr

/-- The floating-point formats by their code of R57. -/
def ffmt (code : Nat) : FFmt :=
  if code = 1 then ⟨8, 23, 127⟩ else if code = 2 then ⟨8, 7, 127⟩ else if code = 3 then ⟨5, 10, 15⟩
  else if code = 4 then ⟨4, 3, 7⟩ else ⟨5, 2, 15⟩

/-- Whether a code names a floating-point format. -/
def isFloat (code : Nat) : Bool := 1 ≤ code && code ≤ 5

/-- Bytes of an element (R264, R281); BS8 is counted in blocks. -/
def elemSize (code : Nat) : Nat :=
  if code = 2 ∨ code = 3 then 2 else if code = 4 ∨ code = 5 then 1 else if code = 8 ∨ code = 10 ∨ code = 11 then 8 else 4

/-- Bytes of E elements. -/
def elemBytes (code e : Nat) : Nat := if code = 6 then 33 * ceilDiv e 32 else elemSize code * e

/-- The canonical NaN of a format (R263). -/
def canonNaN (code : Nat) : Nat :=
  if code = 1 then 0x7FC00000 else if code = 2 then 0x7FC0 else if code = 3 then 0x7E00 else if code = 4 then 0x7F else 0x7E

/-- The value of the bits of a floating-point element. -/
def floatVal (code n : Nat) : Val :=
  let f := ffmt code
  let s := bit n (f.eb + f.fb)
  let e := bits n (f.eb + f.fb - 1) f.fb
  let m := n % 2 ^ f.fb
  let top := 2 ^ f.eb - 1
  if e = 0 then .fin s m (1 - (f.bias : Int) - f.fb)
  else if code = 4 then if e = top ∧ m = 7 then .nan else .fin s (8 + m) ((e : Int) - f.bias - f.fb)
  else if e = top then if m = 0 then .inf s else .nan
  else .fin s (2 ^ f.fb + m) ((e : Int) - f.bias - f.fb)

/-- The element format of a contribution kind (R65, R264): its code of R57. -/
def kindFmt (kind : Nat) : Nat :=
  if kind = 0x10 then 7 else if kind = 0x11 then 1 else if kind = 0x12 then 2 else if kind = 0x13 then 3 else if kind = 0x14 then 4
  else if kind = 0x15 then 5 else if kind = 0x16 then 6 else if kind = 0x17 then 9 else if kind = 0x18 then 10
  else if kind = 0x19 then 11 else if kind = 0x1A then 2 else if kind = 0x1B then 4 else 5

/-- Whether a kind is an FXR kind. -/
def isFxr (kind : Nat) : Bool := 0x1A ≤ kind && kind ≤ 0x1C

/-- The payload length of a contribution (R264). -/
def contribLen (kind e m n : Nat) : Nat :=
  if kind = 0x1D then 0 else if isFxr kind then elemSize (kindFmt kind) * (m + n) else elemBytes (kindFmt kind) e

/-- The bits of element i of a format, from a byte offset (R262). -/
def elemBits (code : Nat) (pay : List Byte) (off i : Nat) : Nat := beNat (slice pay (off + elemSize code * i) (elemSize code))

/-- Whether a T32 element is a saturated tally (R269). -/
def t32Sat (n : Nat) : Bool := n = 0x7FFFFFFF || n = 0x80000001 || n = 0x80000000

/-- The exact value of element i: a T32 element at its own anchor `a` (R275), saturated tallies and saturated BS8 blocks as infinities
of their sign (R267, R272), which convert to the same saturated tally. A saturated T32 element counts so at whatever anchor it comes (DESIGN CHOICE, log entry 87): R275 would
convert its tally of largest magnitude, R272 adds the largest. -/
def elemVal (code : Nat) (a : Int) (pay : List Byte) (off i : Nat) : Val :=
  if code = 6 then
    let b := off + 33 * (i / 32)
    let x := byteAt pay b
    let q := sgn 8 (byteAt pay (b + 1 + i % 32))
    if x = 255 then .inf (q < 0) else .fin (q < 0) q.natAbs ((x : Int) - 127)
  else
    let n := elemBits code pay off i
    if code = 7 then
      if t32Sat n then .inf (bit n 31) else .fin (bit n 31) (sgn 32 n).natAbs a
    else floatVal code n

/-- The exact product of two values (R289, R290). -/
def Val.mul : Val → Val → Val
  | .nan, _ => .nan
  | _, .nan => .nan
  | .inf s, .inf t => .inf (s != t)
  | .inf s, .fin t m _ => if m = 0 then .nan else .inf (s != t)
  | .fin s m _, .inf t => if m = 0 then .nan else .inf (s != t)
  | .fin s m e, .fin t n f => .fin (s != t) (m * n) (e + f)

/-- A key that orders the bits of a floating-point element as R293 orders their values, -0 below +0. -/
def ordKey (code n : Nat) : Int :=
  let f := ffmt code
  let m := n % 2 ^ (f.eb + f.fb)
  if bit n (f.eb + f.fb) then -(m : Int) - 1 else m

/-- The bits whose key is `k`. -/
def keyBits (code : Nat) (k : Int) : Nat :=
  let f := ffmt code
  if k < 0 then 2 ^ (f.eb + f.fb) + (-k - 1).toNat else k.toNat

/-- Whether the bits of an element are a NaN. -/
def isNaN (code n : Nat) : Bool := floatVal code n = .nan

end Sys2Proof.Machine
end

