-- ==== Sys2Proof/Machine/Flags.lean ====
section
/-! DEFINITION. Conversion into tallies, output rounding, fp32 addition, and the SAT and AMX flags with them
(spec/08_vat_arithmetic.md R269 to R282, R295, R300). Each rounding answers whether it sets SAT. -/
namespace Sys2Proof.Machine

/-- m * 2^k rounded to an integer, ties to even (R270). -/
def rne (m : Nat) (k : Int) : Nat :=
  match k with
  | .ofNat n => m * 2 ^ n
  | .negSucc n =>
    let q := m / 2 ^ (n + 1)
    let r := m % 2 ^ (n + 1)
    if 2 ^ n < r ∨ (r = 2 ^ n ∧ q % 2 = 1) then q + 1 else q

/-- An integer with a sign given apart. -/
def signed (neg : Bool) (n : Nat) : Int := if neg then -(n : Int) else n

/-- Conversion to a T32 tally at anchor A (R270, R271), with whether it sets SAT. -/
def toTally (A : Int) : Val → Int × Bool
  | .nan => (2 ^ 31 - 1, true)
  | .inf s => (signed s (2 ^ 31 - 1), true)
  | .fin s m e =>
    let t := if m = 0 then 0 else rne m (min (e - A) 2048)
    if 2 ^ 31 - 1 ≤ t then (signed s (2 ^ 31 - 1), true) else (signed s t, false)

/-- Rounding of m * 2^e to a floating-point format, ties to even; overflow as R278 gives. Answers the bits and whether SAT is set. -/
def roundFloat (code : Nat) (neg : Bool) (m : Nat) (e : Int) : Nat × Bool :=
  let f := ffmt code
  let s := if neg then 2 ^ (f.eb + f.fb) else 0
  if m = 0 then (s, false)
  else
    let emin : Int := 1 - (f.bias : Int) - f.fb
    let len : Int := Nat.log2 m + 1
    let q0 := max (e + len - (f.fb + 1)) emin
    let t0 := rne m (e - q0)
    let (t, q) := if t0 = 2 ^ (f.fb + 1) then (2 ^ f.fb, q0 + 1) else (t0, q0)
    if t < 2 ^ f.fb then (s + t, false)
    else
      let ex := (q - emin + 1).toNat
      let fr := t - 2 ^ f.fb
      let top := 2 ^ f.eb - 1
      if code = 4 then if 15 < ex ∨ (ex = 15 ∧ fr = 7) then (s + 0x7E, true) else (s + ex * 8 + fr, false)
      else if top ≤ ex then (s + top * 2 ^ f.fb, true)
      else (s + ex * 2 ^ f.fb + fr, false)

/-- Rounding of a value to a floating-point format (R277, R278, R295). -/
def roundVal (code : Nat) : Val → Nat × Bool
  | .nan => (canonNaN code, false)
  | .inf s => if code = 4 then ((if s then 0xFE else 0x7E), true)
      else ((if s then 2 ^ ((ffmt code).eb + (ffmt code).fb) else 0) + (2 ^ (ffmt code).eb - 1) * 2 ^ (ffmt code).fb, false)
  | .fin s m e => roundFloat code s m e

/-- The T32 output of a sum (R279). -/
def roundT32 (S : Int) : Nat × Bool :=
  if S.natAbs ≤ 2 ^ 31 - 2 then (unsgn 32 S, false) else (unsgn 32 (signed (S < 0) (2 ^ 31 - 1)), true)

/-- One output element of a T64 sum at anchor A in a format other than BS8 (R277 to R279): its bits and whether SAT is set. -/
def roundSum (code : Nat) (A S : Int) : Nat × Bool :=
  if isFloat code then roundFloat code (S < 0) S.natAbs A
  else if code = 7 then roundT32 S
  else (unsgn 64 S, false)

/-- The q of a BS8 element at exponent X (R280). -/
def bs8q (A : Int) (X : Nat) (S : Int) : Int := signed (S < 0) (rne S.natAbs (A - X + 127))

/-- A BS8 output block (R280): `q` gives the integers of its up to 32 elements at an exponent, `zero` says that all are zero. Its bytes and how many elements
saturated. -/
def bs8Make (q : Nat → List Int) (zero : Bool) : List Byte × Nat :=
  let pad := List.replicate (32 - (q 0).length) (0 : Byte)
  match if zero then some 0 else (List.range 255).find? fun X => (q X).all fun z => z.natAbs ≤ 127 with
  | some X => (BitVec.ofNat 8 X :: ((q X).map fun z => BitVec.ofNat 8 (unsgn 8 z)) ++ pad, 0)
  | none => (254 :: ((q 254).map fun z => BitVec.ofNat 8 (unsgn 8 (clampI (-127) 127 z))) ++ pad, (q 254).countP fun z => 127 < z.natAbs)

/-- A BS8 output block of sums at anchor A. -/
def bs8Block (A : Int) (l : List Int) : List Byte × Nat := bs8Make (fun X => l.map (bs8q A X)) (l.all (· = 0))

/-- A BS8 output block of values m * 2^e with signs. -/
def bs8Vals (l : List (Bool × Nat × Int)) : List Byte × Nat :=
  bs8Make (fun X => l.map fun x => signed x.1 (rne x.2.1 (x.2.2 - X + 127))) (l.all fun x => x.2.1 = 0)

/-- Split a list into runs of 32; `n` bounds the number of runs. -/
def runs32 {α : Type} : Nat → List α → List (List α)
  | 0, _ => []
  | n + 1, l => if l.isEmpty then [] else l.take 32 :: runs32 n (l.drop 32)

/-- The result bytes of T64 sums at anchor A in a format (R277 to R281) and the number of elements that overflowed or saturated. -/
def roundSums (code : Nat) (A : Int) (l : List Int) : List Byte × Nat :=
  if code = 6 then
    let b := (runs32 l.length l).map (bs8Block A)
    (b.flatMap (·.1), (b.map (·.2)).sum)
  else
    let b := l.map (roundSum code A)
    (b.flatMap fun x => beBytes x.1 (elemSize code), b.countP (·.2))

/-- SUM_INT and SATINT output (R288): the low bits of the sum, or the sum clamped when `sat` is set. -/
def roundInt (code : Nat) (sat : Bool) (S : Int) : Nat × Bool :=
  let w := 8 * elemSize code
  let hi : Int := 2 ^ (w - 1) - 1
  let lo : Int := -(2 ^ (w - 1))
  if sat ∧ (hi < S ∨ S < lo) then (unsgn w (clampI lo hi S), true) else (unsgn w S, false)

/-- fp32 addition, round to nearest even (R300): the bits, and whether finite terms overflowed to an infinity. -/
def fadd32 (x y : Nat) : Nat × Bool :=
  match floatVal 1 x, floatVal 1 y with
  | .nan, _ => (canonNaN 1, false)
  | _, .nan => (canonNaN 1, false)
  | .inf s, .inf t => if s = t then (x, false) else (canonNaN 1, false)
  | .inf _, _ => (x, false)
  | _, .inf _ => (y, false)
  | .fin s m e, .fin t n f =>
    let g := min e f
    let z := signed s (m * 2 ^ (e - g).toNat) + signed t (n * 2 ^ (f - g).toNat)
    if z = 0 then ((if s ∧ t then 2 ^ 31 else 0), false) else roundFloat 1 (z < 0) z.natAbs g

end Sys2Proof.Machine
end

