-- ==== Sys2Proof/Machine/Collective.lean ====
section
/-! DEFINITION. In-network collectives: descriptors, front-end checks, contexts and the chunk record, deflection, notices, timeouts, results
waiting for cells, launch slots (spec/07_collectives.md R220 to R252). -/
namespace Sys2Proof.Machine

/-- The counters of R310: 0 SAT_CHUNKS, 1 AMX_CHUNKS, 2 IN_SAT, 3 OUT_OVF, 4 FXR_CYCLES, 5 FASTFLOAT. -/
def vbCtr (b k : Nat) : Nat := 0x20000400 + 0x1000000 * b + 8 * k

/-- A stream descriptor (R220), read from its bytes. -/
structure SDesc where
  valid : Bool
  group : Nat
  recipe : Nat
  outFmt : Nat
  elems : Nat
  inKind : Nat
  m : Nat
  n : Nat
  param : Nat
deriving DecidableEq, Repr

/-- A group descriptor (R220), read from its bytes; the masks are read where they are used. -/
structure GDesc where
  valid : Bool
  launch : Bool
  notify : Bool
  perPort : Nat
  cls : Nat
  part : Nat
  timeout : Nat
  fallback : Nat
  reporter : Nat
  tree : Nat
  bytes : List Byte
deriving DecidableEq, Repr

/-- The port codes of a mask of 128 bytes (R221). -/
def maskCodes (l : List Byte) (off : Nat) : List Nat :=
  (List.range 128).flatMap fun k =>
    let b := byteAt l (off + k)
    if b = 0 then [] else ((List.range 8).map (8 * k + ·)).filter fun c => bit b (c % 8)

/-- A mask of port codes (R221). -/
def codesMask (l : List Nat) : List Byte :=
  (List.range 128).map fun k => BitVec.ofNat 8 (((List.range 8).map fun j => if l.contains (8 * k + j) then 2 ^ j else 0).sum)

/-- The recipes whose contributions carry an anchor that matters (R274). -/
def anchored (recipe inKind : Nat) : Bool :=
  recipe = 1 || recipe = 3 || recipe = 4 || recipe = 5 || ((recipe = 6 || recipe = 7) && inKind = 0x10)

/-- Whether R283 lists an input kind and an output format for a built-in recipe. -/
def recipeTakes (recipe kind out : Nat) : Bool :=
  let flt := 0x11 ≤ kind && kind ≤ 0x15
  let asSum := 1 ≤ out && out ≤ 8
  let ints := (kind = 0x17 && (out = 9 || out = 10)) || (kind = 0x18 && out = 10)
  if recipe = 1 then 0x10 ≤ kind && kind ≤ 0x16 && asSum
  else if recipe = 2 then ints
  else if recipe = 3 || recipe = 4 then 0x11 ≤ kind && kind ≤ 0x16 && asSum
  else if recipe = 5 then isFxr kind && asSum
  else if recipe = 6 || recipe = 7 then (flt && isFloat out) || ints || (kind = 0x10 && asSum)
  else if recipe = 8 || recipe = 9 then (flt || kind = 0x17) && out = 11
  else if 0x0A ≤ recipe && recipe ≤ 0x0C then kind = 0x19 && out = 11
  else if recipe = 0x0D then 0x11 ≤ kind && kind ≤ 0x13 && 1 ≤ out && out ≤ 3
  else recipe = 0x0E && kind = 0x1D

/-- The bits of RECIPE_PARAM that a built-in recipe has a use for (R285). -/
def paramMask (recipe kind : Nat) : Nat := if anchored recipe kind then 0x83FF0000 else if recipe = 2 then 1 else 0

/-- Whether a stream descriptor is a controller error of 07_collectives.md or 08_vat_arithmetic.md. A code from 80h up that is not loaded is none here,
since R336 gives its effect. -/
def SDesc.bad (s : SDesc) : Bool :=
  s.elems = 0 || 4096 < s.elems || s.inKind < 0x10 || 0x1D < s.inKind || s.outFmt = 0 || 11 < s.outFmt || 8192 < contribLen s.inKind s.elems s.m s.n
    || (isFxr s.inKind && (s.elems ≠ s.m * s.n || 64 < s.m || 64 < s.n))
    || (s.recipe < 0x80 && (!recipeTakes s.recipe s.inKind s.outFmt || Nat.land s.param (paramMask s.recipe s.inKind) ≠ s.param
        || (s.recipe = 2 && s.inKind = 0x17 && s.outFmt = 10 && bit s.param 0)))

/-- The codes of the result mask of a group. -/
def resultCodes (g : GDesc) : List Nat := maskCodes g.bytes 0xA0

namespace Dev

/-- The descriptor of a stream. -/
def sdesc (d : Dev) (s : Nat) : SDesc :=
  let b := Sparse.get (List.replicate 16 0) d.ce.stream s
  let w k := leNat (slice b (4 * k) 4)
  { valid := bit (w 0) 31, group := w 0 % 4096, recipe := bits (w 1) 31 24, outFmt := bits (w 1) 20 16, elems := bits (w 1) 12 0,
    inKind := bits (w 2) 31 24, m := bits (w 2) 13 7, n := bits (w 2) 6 0, param := w 3 }

/-- The descriptor of a group. -/
def gdesc (d : Dev) (g : Nat) : GDesc :=
  let b := Sparse.get (List.replicate 320 0) d.ce.group g
  let w k := leNat (slice b (4 * k) 4)
  { valid := bit (w 0) 31, launch := bit (w 0) 30, notify := bit (w 0) 29, perPort := bits (w 0) 23 20, cls := bits (w 0) 17 16,
    part := bits (w 0) 11 0, timeout := bits (w 1) 15 0, fallback := bits (w 2) 17 0, reporter := bits (w 3) 17 0, tree := bits (w 4) 17 0,
    bytes := b }

/-- Contributing port codes, those that name no port left out (R222). -/
def contribPorts (d : Dev) (g : GDesc) : List Nat := (maskCodes g.bytes 0x20).filter d.namesPort

/-- The timeout of a group in microseconds (R223). -/
def timeoutOf (d : Dev) (g : GDesc) : Nat :=
  if g.timeout ≠ 0 then g.timeout
  else if g.launch then d.fld R.CE_DEFAULTS F.CE_DEFAULTS_LAUNCH_US else d.fld R.CE_DEFAULTS F.CE_DEFAULTS_CHUNK_US

/-- Replace parts of the vats. -/
def setVat (d : Dev) (v : Vats) : Dev := { d with vat := v }

/-- The context of a slot, and of a chunk. -/
def ctxAt (d : Dev) (lv slot : Nat) : Option Ctx := d.vat.ctxs.find? fun c => c.lv = lv && c.slot = slot
def ctxOf (d : Dev) (lv stream chunk : Nat) : Option Ctx := d.vat.ctxs.find? fun c => c.lv = lv && c.stream = stream && c.chunk = chunk

/-- Replace a context. -/
def putCtx (d : Dev) (c : Ctx) : Dev :=
  d.setVat { d.vat with ctxs := d.vat.ctxs.map fun x => if x.lv = c.lv ∧ x.slot = c.slot then c else x }

/-- The physical vat of a logical one. -/
def physOf (d : Dev) (lv : Nat) : Nat := 100 * (lv / 96) + d.fld (R.VB_MAP (lv / 96) (lv % 96)) F.VB_MAP_PVAT

/-- Discard a context with everything queued or running for it; its granules and slot return to Lake (R188, R314). -/
def flushCtx (d : Dev) (lv slot : Nat) : Dev :=
  d.setVat { d.vat with
    ctxs := d.vat.ctxs.filter fun x => ¬ (x.lv = lv ∧ x.slot = slot)
    steps := d.vat.steps.filter fun x => ¬ (x.lv = lv ∧ x.slot = slot)
    arrays := d.vat.arrays.filter fun x => ¬ (x.lv = lv ∧ x.slot = slot)
    runs := d.vat.runs.filter fun x => ¬ (x.lv = lv ∧ x.slot = slot)
    wait := d.vat.wait.filter fun x => x.ctx ≠ some (lv, slot) }

/-- The granules in use in a logical vat, with the runs of its physical vat whose pointers have not come back (R191): these count for no owner (DESIGN CHOICE, log entry 91). -/
def granUses (d : Dev) (lv : Nat) : List GranUse :=
  ((d.vat.ctxs.filter fun c => c.lv = lv).map fun c => ⟨c.cls, c.pe, c.first, c.run⟩) ++
    (d.vat.lostRuns.filter fun x => x.1 = d.physOf lv).map fun x => ⟨4, none, x.2.1, x.2.2⟩

/-- A context that has left returns its granules by the pointer given, its own where there is none (R188, R190, R191). What of its run a good pointer does not name has not
come back. -/
def granBack (d : Dev) (c : Ctx) (ptr : Option (Nat × Nat × Nat)) : Dev :=
  match ptr with
  | none => d
  | some (v, f, r) =>
    let n := granCheck (d.physOf c.lv, c.first, c.run) v f r
    let lose (l : List (Nat × Nat)) : Dev :=
      d.setVat { d.vat with lostRuns := d.vat.lostRuns ++ (l.filter fun x => 0 < x.2).map fun x => (d.physOf c.lv, x.1, x.2) }
    if n = 0 then lose [(c.first, f - c.first), (f + r, c.first + c.run - (f + r))]
    else (lose [(c.first, c.run)]).badPointer n true
      (v % 2048 * 2 ^ 18 + f % 64 * 2 ^ 12 + r % 16 * 2 ^ 8) (16 + c.lv / 96)

/-! The chunk record (R229, R233). -/

/-- The record entry of a chunk. -/
def recEntry (d : Dev) (lv stream chunk : Nat) : Option RecEnt :=
  d.vat.recs.find? fun r => r.lv = lv && r.stream = stream && r.chunk = chunk

/-- Make a record entry, in place of one of the same chunk, evicting one when all 256 are in use. -/
def recMake (d : Dev) (e : RecEnt) : Dev :=
  let d := d.setVat { d.vat with recs := d.vat.recs.filter fun r => !(r.lv = e.lv && r.stream = e.stream && r.chunk = e.chunk) }
  let mine := d.vat.recs.filter fun r => r.lv = e.lv
  let d := if mine.length < 256 then d
    else
      let old := match mine.find? fun r => r.st ≠ .deflected with | some r => some r | none => mine.head?
      match old with
      | some r => (d.setVat { d.vat with recs := d.vat.recs.erase r }).inc R.CE_REC_EVICT
      | none => d
  d.setVat { d.vat with recs := d.vat.recs ++ [e] }

/-- A record entry for a chunk of a group, made now. Where TIMEOUT_US of the group is zero its life is that of CHUNK_US as it stands now (R223, R229; DESIGN CHOICE,
log entry 89: R223 names the moment for contexts and slots only). -/
def recNow (d : Dev) (lv stream chunk group : Nat) (st : RecState) : RecEnt :=
  let g := d.gdesc group
  { lv := lv, stream := stream, chunk := chunk, st := st, group := group, part := g.part, since := d.lc, life := d.timeoutOf g }

/-! Notices (R239, R243, R244). -/

/-- Put a packet behind those that wait in its vat bank. Its outputs are the codes of the mask as the group has it; which of them name ports is judged when it is
sent (R222). -/
def waitFor (d : Dev) (w : WaitRes) : Dev := d.setVat { d.vat with wait := d.vat.wait ++ [w] }

/-- The header of a packet that a vat bank originates; its epoch is set when it is admitted. -/
def bankHdr (d : Dev) (b : Nat) (vc kind sub part stream chunk dest : Nat) (x m : Bool) (plen : Nat) : Hdr :=
  { vc := vc, x := x, m := m, part := part, dest := dest, plen := plen, src := d.chipId b, sub := sub, kind := kind, stream := stream,
    chunk := chunk }

/-- A status notice with its outcome, to REPORTER and, with NOTIFY_TREE, to the receivers of results. There is none for a group that the command has found no
correct copy of (log entry 77). -/
def notice (d : Dev) (b group stream chunk outcome : Nat) (pay : List Byte) : Dev :=
  if d.seen.gone.contains group then d else
  let g := d.gdesc group
  let d := d.waitFor { bank := b, h := d.bankHdr b 2 0x20 outcome g.part stream chunk g.reporter true false pay.length, pay := pay, outs := none }
  if g.notify ∧ outcome ≠ 3 then
    d.waitFor { bank := b, h := d.bankHdr b 2 0x20 outcome g.part stream chunk g.tree true true pay.length, pay := pay,
                outs := some (resultCodes g) }
  else d

/-- The missing ports of arrival counts (R243). -/
def missing (d : Dev) (group perPort : Nat) (counts : List (Nat × Nat)) : List Nat :=
  (d.contribPorts (d.gdesc group)).filter fun c => Sparse.get 0 counts c < perPort

/-- The payload of an INCOMPLETE notice. -/
def incompletePay (miss : List Nat) (expected got openNs : Nat) : List Byte :=
  codesMask miss ++ beBytes expected 2 ++ beBytes got 2 ++ [0, 0, 0, 0] ++ beBytes openNs 8

/-! Front-end checks (R227, R247). -/

/-- The counter of the first check that a contribution fails, or its descriptors. -/
def ceCheck (d : Dev) (k : Pkt) : Except Nat (SDesc × GDesc) :=
  let s := d.sdesc k.h.stream
  let g := d.gdesc s.group
  if ¬ (s.valid ∧ g.valid ∧ ¬ g.launch) then .error R.CE_NO_STREAM
  else if k.h.part ≠ g.part then .error R.CE_PART_MISMATCH
  else if k.h.d then .error R.CE_DEFL_RCVD
  else if ¬ (d.contribPorts g).contains k.port then .error R.CE_BAD_PORT
  else if k.h.kind ≠ s.inKind ∨ ¬ (k.h.ofmt = 0 ∨ k.h.ofmt = s.outFmt) ∨ k.h.plen ≠ contribLen s.inKind s.elems s.m s.n then
    .error R.CE_BAD_SHAPE
  else .ok (s, g)

/-- The same for an acknowledgement. -/
def ackCheck (d : Dev) (k : Pkt) : Except Nat (SDesc × GDesc) :=
  let s := d.sdesc k.h.stream
  let g := d.gdesc s.group
  let r := byteAt k.pay 1
  if ¬ (s.valid ∧ g.valid ∧ g.launch) then .error R.CE_NO_STREAM
  else if k.h.part ≠ g.part then .error R.CE_PART_MISMATCH
  else if ¬ (d.contribPorts g).contains k.port then .error R.CE_BAD_PORT
  else if 32 < r ∨ k.h.plen ≠ 8 + 132 * r then .error R.CE_BAD_SHAPE
  else .ok (s, g)

/-- A front end or a vat discards a packet (R614 cause 0x0F). -/
def feDiscard (d : Dev) (b : Nat) (k : Pkt) (counter cause : Nat) : Dev :=
  ((if counter = 0 then d else d.inc counter).captureDrop { k with unit := 16 + b } 0x3FF cause).takePkt k.id

/-- A descriptor entry becomes not valid in every front end (R505). ABORTED of a partition, which only a write clears (R256), stays. -/
def descInvalid (d : Dev) (table index : Nat) : Dev :=
  let clr (b : List Byte) := splice b 3 [BitVec.ofNat 8 (byteAt b 3 % 128)]
  if table = 1 then
    let b := Sparse.get (List.replicate 16 0) d.ce.stream index
    { d with ce := { d.ce with stream := Sparse.put (List.replicate 16 0) d.ce.stream index (clr b) } }
  else if table = 2 then
    let b := Sparse.get (List.replicate 320 0) d.ce.group index
    { d with ce := { d.ce with group := Sparse.put (List.replicate 320 0) d.ce.group index (clr b) } }
  else { d with ce := { d.ce with part := Sparse.put 0 d.ce.part index (putBits (Sparse.get 0 d.ce.part index) 31 31 0) } }

/-- The record of an uncorrectable entry and the repair of its row (R505, R532): `part` is the partition that the read was made for, `grp` the group it was made for, where one can be read. -/
def descError (d : Dev) (e : DescErr) (part grp : Option Nat) : Dev :=
  if ¬ e.allBad then (d.error 0x10 e.macroNo 0x40 1 [e.row]).softRepair e.macroNo e.row
  else
    let d := d.softRepair e.macroNo e.row
    let inst := if e.table = 2 then e.index else grp.getD 0xFFFF
    let d := d.descInvalid e.table e.index
    match if e.table = 3 then some e.index else part with
    | some p => d.partitionFatal 0x0B inst 0x34 [e.table, e.index] p
    | none => d.error 0x0B inst 0x34 2 [e.table, e.index]

/-- An error met, if one is. -/
def descMet (d : Dev) (e : Option DescErr) (part grp : Option Nat) : Dev :=
  match e with | some e => d.descError e part grp | none => d

/-- A descriptor is read in the handling of a context, a launch slot or an abort: the error that the command meets there, told once, by the first handling that
reads the entry in error. A group that no copy gives is gone for this command. -/
def descRead (d : Dev) (part grp : Option Nat) (reads : DescErr → Bool) : Dev :=
  match d.seen.desc.filter reads with
  | none => d
  | some e =>
    let gone := if e.allBad ∧ e.table = 2 then e.index :: d.seen.gone else d.seen.gone
    ({ d with seen := { d.seen with desc := none, gone := gone } }).descError e part grp

/-- The group that a packet's stream names: none when the stream's own entry cannot be read. -/
def groupFor (d : Dev) (e : Option DescErr) (stream : Nat) : Option Nat :=
  if e.any fun x => x.table = 1 then none else some (d.sdesc stream).group

/-- Of packets with a copy, the one whose copy arrived first. -/
def firstIn (l : List (Pkt × Copy)) : Option Pkt :=
  (l.foldl (fun (b : Option (Pkt × Copy)) x => match b with | some y => if y.2.eseq ≤ x.2.eseq then some y else some x | none => some x) none).map (·.1)

/-- The contributions, or the acknowledgements, that have reached the front end of a bank whole, first come first. -/
def feHead (d : Dev) (b : Nat) (ack : Bool) : Option Pkt :=
  firstIn (d.core.pkts.filterMap fun k =>
    if k.ended && (k.h.vc = 7) = ack then (k.copies.find? fun c => c.out = 1024 + b && c.stage = .fe).map fun c => (k, c) else none)

/-- Whether a packet reached its front end with a bad payload check or a damaged cell (R85, R141). -/
def feBad (k : Pkt) : Bool := k.bad || k.copies.any (·.bad)

/-- Whether the front end would judge its next contribution by a descriptor that is a controller error: the results are unpredictable. -/
def contribBad (d : Dev) (b : Nat) (err : Option DescErr) : Bool :=
  match d.feHead b false with
  | none => false
  | some k =>
    let s := d.sdesc k.h.stream
    let g := d.gdesc s.group
    !feBad k && !err.any (·.allBad) && s.valid && g.valid && !g.launch && (s.bad || g.perPort = 0)

/-- The same for its next LAUNCH_ACK. -/
def ackBad (d : Dev) (b : Nat) (err : Option DescErr) : Bool :=
  match d.feHead b true with
  | none => false
  | some k =>
    let s := d.sdesc k.h.stream
    let g := d.gdesc s.group
    !feBad k && !err.any (·.allBad) && s.valid && g.valid && g.launch && g.perPort = 0

/-- The front end of a bank takes its next contribution (R85, R227). One discarded because no copy of an entry is correct (R505) counts in no counter of R261
(DESIGN CHOICE, log entry 85). -/
def contribAccept (d : Dev) (b : Nat) (err : Option DescErr) : Dev :=
  match d.feHead b false with
  | none => d
  | some k =>
    if feBad k then d.feDiscard b k 0 0x08
    else
      let d := d.descMet err (some k.h.part) (d.groupFor err k.h.stream)
      if err.any (·.allBad) then d.feDiscard b k 0 0x0F
      else match d.ceCheck k with
        | .error c => d.feDiscard b k c 0x0F
        | .ok _ =>
          let e := { d with core := { d.core with eseq := d.core.eseq + 1 } }
          e.putPkt { k with feLc := d.lc, feNs := d.fabNs, copies := k.copies.map fun c => { c with stage := .vat, eseq := d.core.eseq } }

/-! Contributions in their vat (R230). -/

/-- Deflect a contribution (R33, R78, R170, R237). R78 says nothing of the flags F, S and L and of the sub-status, which stay as they were received (DESIGN CHOICE,
log entry 85). Its cells belong to the vat bank from now on. -/
def deflect (d : Dev) (b : Nat) (k : Pkt) (g : GDesc) : Dev :=
  let h := { k.h with d := true, dest := g.fallback, epoch := d.curEpoch b, hop := 0, e := false }
  let k := { k with h := h, raw := [], unit := 16 + b, launch := none, prevKey := none, bankPrev := false, inRate := 0, orig := true, copies := [] }
  ((((d.inc R.CE_DEFLECT).pm .ce 0x0402 none 1).cellsMove k.cellsAt (16 + b)).addPkt k).routeHeld b k

/-- The recipe table entry of a loaded code. -/
def rcpOf (d : Dev) (code : Nat) : Option Rcp := d.vat.rcps.find? fun r => r.code = code

/-- Tally bytes of a chunk (R283, R321). -/
def tallyBytes (d : Dev) (s : SDesc) : Nat :=
  if 0x80 ≤ s.recipe then (match d.rcpOf s.recipe with | some r => r.bpe * s.elems + r.bfix | none => 0)
  else if s.recipe = 0x0E then 0
  else if s.recipe = 0x05 then 8 * s.m * s.n
  else if s.recipe = 0x02 ∧ s.inKind = 0x18 ∧ bit s.param 0 then 16 * s.elems
  else 8 * s.elems

/-- The chunk anchor that an opening contribution fixes (R274, R329). A recipe for which R274 gives none carries that contribution's anchor in its results (DESIGN
CHOICE, log entry 85). -/
def chunkAnchor (d : Dev) (s : SDesc) (h : Hdr) : Int :=
  let fixed := if 0x80 ≤ s.recipe then (match d.rcpOf s.recipe with | some r => r.anchored | none => false) else anchored s.recipe s.inKind
  if fixed ∧ bit s.param 31 then sgn 10 (bits s.param 25 16) else sgn 10 h.anchor

/-- Counters of the watch slots at a completion (R245). Times are differences of the local count, floored to whole nanoseconds (DESIGN CHOICE, log entry 89). -/
def watchUpdate (d : Dev) (c : Ctx) (code : Nat) : Dev :=
  (List.range 16).foldl (fun d i =>
    if d.on (R.CE_WATCH i) F.CE_WATCH_VALID ∧ d.fld (R.CE_WATCH i) F.CE_WATCH_GROUP = c.group then
      let d := (d.inc (R.CE_W_CHUNKS i)).incBy (R.CE_W_SPREAD i) (countsNs (c.lastLc - c.firstLc))
      let w := Sparse.get (0, 0) d.ce.watch (1024 * i + code)
      let hold := if c.total ≤ 1 then 0 else countsNs (c.lastLc - c.prevLc)
      { d with ce := { d.ce with watch := Sparse.put (0, 0) d.ce.watch (1024 * i + code) ((w.1 + 1) % 2 ^ 32, (w.2 + hold) % 2 ^ 64) } }
    else d) d

/-- Count and take in a contribution of an open context (R230 to R232). Its cells are charged until then (R169: delivered to a vat bank; DESIGN CHOICE, log entry 91).
A recipe for which R274 gives no chunk anchor never sets AMX (R275; DESIGN CHOICE, log entry 91). -/
def addTo (d : Dev) (c : Ctx) (k : Pkt) : Dev :=
  let a := sgn 10 k.h.anchor
  let amx := (0x80 ≤ c.recipe || anchored c.recipe c.inKind) && decide (a ≠ c.anchor)
  let c := { c with counts := Sparse.put 0 c.counts k.port (Sparse.get 0 c.counts k.port + 1), total := c.total + 1, steps := c.steps + 1,
                    firstLc := if c.total = 0 then k.feLc else c.firstLc, prevLc := c.lastLc, lastLc := k.feLc, amx := c.amx || amx,
                    done := c.total + 1 = c.expected }
  let d := ((d.putCtx c).inc R.CE_CONTRIB).takePkt k.id
  let d := d.setVat { d.vat with steps := d.vat.steps ++ [⟨c.lv, c.slot, k.port, k.h, k.pay, c.total⟩] }
  if c.done then (d.recMake (d.recNow c.lv c.stream c.chunk c.group .done)).watchUpdate c k.port else d

/-- Whether a vat takes new contexts: Lake works, its bank is released and it does not drain (01_architecture.md, R41, R522). -/
def vatOpen (d : Dev) (lv : Nat) : Bool :=
  let a := R.VB_MAP (lv / 96) (lv % 96)
  d.lakeOn && !d.on (R.QCTRL_VB (lv / 96)) F.QREQ && d.on a F.VB_MAP_MAPPED && !d.on a F.VB_MAP_DRAINING

/-- The record, notice and registers of a recipe fault (R336, R343). -/
def faultRecord (d : Dev) (lv slot stream chunk group cause pc : Nat) (miss : List Nat) (expected got openNs : Nat) : Dev :=
  let b := lv / 96
  let d := d.setNum (R.VB_SEQ_FAULT b) (cause * 2 ^ 28 + slot * 2 ^ 22 + lv)
  let d := (d.setNum (R.VB_SEQ_PC b) pc).inc (R.VB_RECIPE_FAULT b)
  let d := d.recMake (d.recNow lv stream chunk group .timedOut)
  let d := d.notice b group stream chunk 1 (incompletePay miss expected got openNs)
  d.error 0x0B group 0x32 2 [cause, pc, slot * 2 ^ 24 + lv] (some (d.gdesc group).part)

/-- Whether one of the arrays of a vat can take another contribution: fewer wait for an array than are free (R309, R315). The contributions of a BARRIER
use none. -/
def arrayFor (d : Dev) (lv recipe : Nat) : Bool :=
  recipe = 0x0E || (d.vat.steps.countP fun s => s.lv = lv) + (d.vat.arrays.countP fun j => j.lv = lv) < 4

/-- A chunk is deflected from now on: its record entry and its notice (R33, R230, R239). -/
def deflectChunk (d : Dev) (lv stream chunk group : Nat) : Dev :=
  ((d.recMake (d.recNow lv stream chunk group .deflected)).inc R.CE_DEFL_CHUNKS).notice (lv / 96) group stream chunk 2 []

/-- A handler of a built-in recipe has run (0 INIT, 1 STEP, 2 FINAL): its cycles count in SEQ_BUSY, how many they are the spec does not say. -/
def builtinRan (d : Dev) (b recipe h : Nat) : Dev :=
  if recipe < 0x80 then d.pm (.vb b) 0x0503 none (Config.builtinCycles recipe h) else d

/-- A contribution is handled in its owning vat (R230). One whose chunk an unmapped vat owns is deflected whatever its record says (R522), the chunk with its notice
when it is the first (R239). A chunk deflected because its bank drains, its vat drains or Lake is quiesced was refused no allocation, and counts not in
LK_GRAN_DENY (DESIGN CHOICE, log entry 89). VALID was judged at the front end (R227) and is not again, so that a contribution which came before an INVALIDATE may open a
context after its flush (R258; DESIGN CHOICE, log entry 91). -/
def vatHandle (d : Dev) (lv : Nat) (k : Pkt) : Dev :=
  let b := lv / 96
  let s := d.sdesc k.h.stream
  let g := d.gdesc s.group
  let unmapped := !d.on (R.VB_MAP (lv / 96) (lv % 96)) F.VB_MAP_MAPPED
  match d.recEntry lv k.h.stream k.h.chunk with
  | some r =>
    if r.st = .deflected then
      let d := d.setVat { d.vat with recs := d.vat.recs.map fun x => if x = r then { x with since := d.lc, life := d.timeoutOf g } else x }
      d.deflect b k g
    else if unmapped then (d.deflectChunk lv k.h.stream k.h.chunk s.group).deflect b k g
    else d.feDiscard b k R.CE_LATE 0x0F
  | none =>
    match d.ctxOf lv k.h.stream k.h.chunk with
    | some c =>
      if c.perPort ≤ Sparse.get 0 c.counts k.port then d.feDiscard b k R.CE_EXCESS 0x0F
      else if d.arrayFor lv c.recipe then d.addTo c k else d
    | none =>
      let expected := g.perPort * (d.contribPorts g).length
      let rcpFault (d : Dev) (cause : Nat) :=
        (d.faultRecord lv 0 k.h.stream k.h.chunk s.group cause 0 (d.contribPorts g) expected 0 k.feNs).feDiscard b k 0 0x0F
      let loadedBad := 0x80 ≤ s.recipe && match d.rcpOf s.recipe with
        | none => true
        | some r => !(bit r.kinds (s.inKind - 0x10) && bit r.fmts s.outFmt)
      if unmapped then (d.deflectChunk lv k.h.stream k.h.chunk s.group).deflect b k g
      else if loadedBad then rcpFault d 1
      else if 0x80 ≤ s.recipe ∧ 32768 < d.tallyBytes s then rcpFault d 6
      else
        let gr := runFor (d.tallyBytes s)
        let pe := d.partEntry g.part
        match if d.vatOpen lv then d.allocRun (d.granUses lv) g.cls pe gr else none with
        | none =>
          let d := if d.vatOpen lv then d.inc R.LK_GRAN_DENY else d
          (d.deflectChunk lv k.h.stream k.h.chunk s.group).deflect b k g
        | some first =>
          if ¬ d.arrayFor lv s.recipe then d else
          let slot := ((List.range 64).find? fun n => (d.ctxAt lv n).isNone).getD 0
          let c : Ctx := { lv := lv, slot := slot, stream := k.h.stream, chunk := k.h.chunk, group := s.group, part := g.part, cls := g.cls,
                           pe := pe, first := first, run := gr, expected := expected, perPort := g.perPort, openT := d.fabNs, openLc := d.lc,
                           timeout := d.timeoutOf g, lastLc := k.feLc, recipe := s.recipe, inKind := s.inKind, elems := s.elems,
                           outFmt := s.outFmt, fxrM := s.m, fxrN := s.n, param := s.param, anchor := d.chunkAnchor s k.h,
                           inited := s.recipe < 0x80 }
          let d := ((d.inc R.LK_GRAN_ALLOC).pm .lake 0x0303 none gr).pm .ce 0x0401 none 1
          let d := d.builtinRan b s.recipe 0
          (d.setVat { d.vat with ctxs := d.vat.ctxs ++ [c] }).addTo c k

/-- The next contribution of a vat, in the order in which they reached it (R232). -/
def vatHead (d : Dev) (lv : Nat) : Option Pkt :=
  firstIn (d.core.pkts.filterMap fun k =>
    if chunkVat k.h.stream k.h.chunk = lv then (k.copies.find? fun c => c.stage = .vat).map fun c => (k, c) else none)

/-- Whether a vat would open a context by a descriptor that is a controller error: the results are unpredictable. -/
def vatBad (d : Dev) (lv : Nat) (err : Option DescErr) : Bool :=
  match d.vatHead lv with
  | none => false
  | some k =>
    let s := d.sdesc k.h.stream
    !err.any (·.allBad) && (d.ctxOf lv k.h.stream k.h.chunk).isNone && (d.recEntry lv k.h.stream k.h.chunk).isNone &&
      (s.bad || (d.gdesc s.group).perPort = 0)

/-- A vat handles its next contribution; an uncorrectable entry met on the way aborts the partition of the group (R505). A contribution that is to be added
and finds no array for itself stays in the front end, where it ages (R309). -/
def vatContribution (d : Dev) (lv : Nat) (err : Option DescErr) : Dev :=
  match d.vatHead lv with
  | none => d
  | some k =>
    let (part, grp) := match d.ctxOf lv k.h.stream k.h.chunk with
      | some c => (c.part, some c.group)
      | none => (k.h.part, d.groupFor err k.h.stream)
    let d := d.descMet err (some part) grp
    if err.any (·.allBad) then d.feDiscard (lv / 96) k 0 0x0F else d.vatHandle lv k

/-- A context at its timeout (R242); it counts in CE_TIMEOUT and not in CE_FLUSHED (DESIGN CHOICE, log entry 85). An uncorrectable entry that is read for it is an error in the handling of an open context (R505); a group that no copy
gives sends no notice. -/
def chunkTimeout (d : Dev) (lv slot : Nat) (ptr : Option (Nat × Nat × Nat)) (err : Option DescErr) : Dev :=
  match d.ctxAt lv slot with
  | none => d
  | some c =>
    if c.done ∨ d.lc < c.openLc + usCounts c.timeout ∨ ¬ d.powered then d
    else
      let d := d.descMet err (some c.part) (some c.group)
      let miss := d.missing c.group c.perPort c.counts
      let d := (d.flushCtx lv slot).inc R.CE_TIMEOUT
      let d := d.recMake (d.recNow lv c.stream c.chunk c.group .timedOut)
      let d := if err.any fun e => e.allBad && e.table = 2 then d
        else d.notice (lv / 96) c.group c.stream c.chunk 1 (incompletePay miss c.expected c.total c.openT)
      let d := d.error 0x0B c.group 0x30 2 [c.stream, c.chunk, c.total * 65536 + c.expected] (some c.part)
      d.granBack c ptr

/-- A record entry at the end of its life (R229). -/
def recExpire (d : Dev) (lv stream chunk : Nat) : Dev :=
  match d.recEntry lv stream chunk with
  | none => d
  | some r => if d.lc < r.since + usCounts r.life ∨ ¬ d.powered then d else d.setVat { d.vat with recs := d.vat.recs.erase r }

/-! Results (R234 to R238). -/

/-- The payloads of a result with the index of their first element (R235). -/
def splitResult (fmt : Nat) (pay : List Byte) : List (Nat × List Byte) :=
  let sz := if fmt = 6 then 33 else elemSize fmt
  let n := 8192 / sz * sz
  if pay.isEmpty then [(0, [])]
  else (List.range (ceilDiv pay.length n)).map fun i =>
    (i * (8192 / sz) * (if fmt = 6 then 32 else 1), (pay.drop (i * n)).take n)

/-- A chunk that has completed and is rounded counts, whether or not its result can be sent (R261), with its SAT and AMX (R310). -/
def chunkFlags (d : Dev) (c : Ctx) : Dev :=
  let d := d.inc R.CE_RESULTS
  let d := if c.sat then d.inc (vbCtr (c.lv / 96) 0) else d
  if c.amx then d.inc (vbCtr (c.lv / 96) 1) else d

/-- A completed context has no result: it goes with the abort of its partition, or now where partition 0 has none (R504, R518). -/
def resultLost (d : Dev) (c : Ctx) : Dev :=
  if c.part = 0 then (d.flushCtx c.lv c.slot).inc R.CE_FLUSHED else d.putCtx { c with sent := true }

/-- The result packets of a completed context wait for cells (R180, R234). A group that no copy gives sends none (R505, log entry 77). -/
def sendResult (d : Dev) (c : Ctx) (pay : List Byte) : Dev :=
  let d := (d.descRead (some c.part) (some c.group) c.reads).chunkFlags c
  if d.seen.gone.contains c.group then d.resultLost c else
  let b := c.lv / 96
  let g := d.gdesc c.group
  let parts := splitResult c.outFmt pay
  let d := d.putCtx { c with sent := true }
  (List.range parts.length).foldl (fun d i =>
    let (off, p) := parts.getD i (0, [])
    let h := { d.bankHdr b 2 0x20 (b2n c.sat * 2 ^ 5 + b2n c.amx * 2 ^ 4) g.part c.stream c.chunk g.tree true true p.length with
      off := off, anchor := unsgn 10 c.anchor, ofmt := c.outFmt }
    d.waitFor { bank := b, h := h, pay := p, outs := some (resultCodes g), ctx := some (c.lv, c.slot), last := i + 1 = parts.length,
                group := c.group }) d

/-- What is found wrong when a result is admitted (R504, CHARGE_UNCORR of R503, R190). -/
inductive ResErr where
  | result
  | charge (entry : Nat)
  | pointer (vat first run : Nat)
deriving DecidableEq, Repr

/-- Whether the oldest waiting packet of a bank is an ABORT that would be routed now by an ABORT_TREE with no valid entry in PL0's current bank: the results are
unpredictable (the controller errors of spec/07_collectives.md). -/
def resultBad (d : Dev) (b : Nat) : Bool :=
  match d.vat.wait.find? fun w => w.bank = b with
  | some w => w.isAbort && d.grants (pktCells w.h) [.res b] && !d.treeValid 0 (d.bankOf 0 false) w.h.dest
  | none => false

/-- The oldest waiting result of a bank is admitted when R173 grants its cells (R180). -/
def resultAdmit (d : Dev) (b : Nat) (err : Option ResErr) : Dev :=
  match d.vat.wait.find? fun w => w.bank = b with
  | none => d
  | some w =>
    let take (d : Dev) := d.setVat { d.vat with wait := d.vat.wait.erase w }
    if err = some .result ∧ w.ctx.isSome then
      -- the result is withheld; its context goes with the abort, or now where partition 0 has none (R518)
      let (lv, slot) := w.ctx.getD (0, 0)
      let d := d.setVat { d.vat with wait := d.vat.wait.filter fun x => x.ctx ≠ w.ctx }
      let d := if w.h.part = 0 then (d.flushCtx lv slot).inc R.CE_FLUSHED else d
      d.partitionFatal 0x0B w.group 0x33 [w.h.stream, w.h.chunk] w.h.part
    else
      let d := match err with
        | some (.charge i) =>
          let p := d.fld (R.LK_PART_A i) F.LK_PART_A_PARTITION
          d.partitionFatal 0x0C p 0x29 [i] p
        | _ => d
      let n := pktCells w.h
      if ¬ d.grants n [.res b] then d
      else
        let (id, d) := (take d).freshId
        let h := { w.h with epoch := d.curEpoch b, src := d.chipId b }
        let (k, d) := d.chargeMain { id := id, unit := 16 + b, port := 1024, h := h, pay := w.pay, age0 := d.lc, arrT := d.fabT, cells := n,
                                     ended := true, orig := true } [.res b] false
        let d := (d.addPkt k).countAdmit k
        let d := match if w.isAbort then some (d.treePorts 0 (d.bankOf 0 false) w.h.dest) else w.outs.map (·.filter d.namesPort) with
          | some outs =>
            let up := outs.filter d.linkUp
            let d := d.incBy (R.FW_PORT_DOWN b) (outs.length - up.length)
            if up.isEmpty then (d.captureDrop k (oneCode outs) 0x09).takePkt k.id else d.queueTo k up
          | none => d.routeHeld b k
        if w.last then
          let (lv, slot) := w.ctx.getD (0, 0)
          match d.ctxAt lv slot with
          | none => d
          | some c => (d.flushCtx lv slot).granBack c (match err with | some (.pointer v f r) => some (v, f, r) | _ => none)
        else d

/-! Launch slots (R247 to R252). -/

/-- The launch slot of a (stream, chunk sequence). -/
def slotOf (d : Dev) (b stream chunk : Nat) : Option LSlot :=
  d.ce.launch.find? fun s => s.bank = b && s.stream = stream && s.chunk = chunk

/-- Replace a launch slot, and free one. -/
def putSlot (d : Dev) (s : LSlot) : Dev :=
  { d with ce := { d.ce with launch := d.ce.launch.map fun x => if x.bank = s.bank ∧ x.stream = s.stream ∧ x.chunk = s.chunk then s else x } }
def freeSlot (d : Dev) (s : LSlot) : Dev :=
  { d with ce := { d.ce with launch := d.ce.launch.filter fun x => ¬ (x.bank = s.bank ∧ x.stream = s.stream ∧ x.chunk = s.chunk) } }

/-- The combined LAUNCH_ACK of a slot (R249 to R251), with this GS5's own report when it timed out. -/
def sendAck (d : Dev) (s : LSlot) (own : Option (List Byte)) : Dev :=
  let g := d.gdesc s.group
  let reps := own.toList ++ s.reports
  let om := min (s.omitted + (reps.length - 32)) 65535
  let reps := reps.take 32
  let pay := [BitVec.ofNat 8 (b2n (own.isSome || s.bad)), BitVec.ofNat 8 reps.length] ++ beBytes om 2 ++ beBytes s.acked 4 ++ reps.flatten
  let d := d.putSlot { s with closed := true, closedLc := d.lc }
  d.waitFor { bank := s.bank, h := d.bankHdr s.bank 7 0x41 0 g.part s.stream s.chunk g.reporter false false pay.length, pay := pay, outs := none }

/-- The front end of a bank takes its next LAUNCH_ACK. One discarded because no copy of an entry is correct (R505) counts in no counter of R261 (DESIGN CHOICE, log
entry 85). -/
def ackAccept (d : Dev) (b : Nat) (err : Option DescErr) : Dev :=
  match d.feHead b true with
  | none => d
  | some k =>
    if feBad k then d.feDiscard b k 0 0x08
    else
      let d := d.descMet err (some k.h.part) (d.groupFor err k.h.stream)
      if err.any (·.allBad) then d.feDiscard b k 0 0x0F
      else match d.ackCheck k with
        | .error c => d.feDiscard b k c 0x0F
        | .ok (sd, g) =>
          let old := d.slotOf b k.h.stream k.h.chunk
          let new : LSlot :=
            { bank := b, stream := k.h.stream, chunk := k.h.chunk, group := sd.group, part := g.part,
              expected := g.perPort * (d.contribPorts g).length, perPort := g.perPort, openT := d.fabNs, openLc := d.lc, timeout := d.timeoutOf g }
          let s := old.getD new
          if s.closed then d.feDiscard b k R.CE_LATE 0x0F
          else if old.isNone ∧ 256 ≤ (d.ce.launch.filter fun x => x.bank = b).length then d.feDiscard b k R.CE_LAUNCH_NOSLOT 0x0F
          else if s.perPort ≤ Sparse.get 0 s.counts k.port then d.feDiscard b k R.CE_EXCESS 0x0F
          else
            let r := byteAt k.pay 1
            let reps := s.reports ++ (List.range r).map fun i => slice k.pay (8 + 132 * i) 132
            let s := { s with counts := Sparse.put 0 s.counts k.port (Sparse.get 0 s.counts k.port + 1), total := s.total + 1,
                              acked := min (s.acked + beNat (slice k.pay 4 4)) (2 ^ 32 - 1), bad := s.bad || byteAt k.pay 0 = 1,
                              omitted := min (s.omitted + beNat (slice k.pay 2 2) + (reps.length - 32)) 65535, reports := reps.take 32 }
            let d := d.takePkt k.id
            let d := if old.isNone then { d with ce := { d.ce with launch := d.ce.launch ++ [s] } } else d.putSlot s
            if s.total = s.expected then (d.sendAck s none).inc R.CE_LAUNCH_COMB else d

/-- A launch slot at its timeout (R250); an uncorrectable entry read for it as for a context (R505): a group that no copy gives sends no acknowledgement. -/
def launchTimeout (d : Dev) (b stream chunk : Nat) (err : Option DescErr) : Dev :=
  match d.slotOf b stream chunk with
  | none => d
  | some s =>
    if s.closed ∨ d.lc < s.openLc + usCounts s.timeout ∨ ¬ d.powered then d
    else
      let d := d.descMet err (some s.part) (some s.group)
      let own := beBytes (d.chipId b) 4 ++ codesMask (d.missing s.group s.perPort s.counts)
      let d := if err.any fun e => e.allBad && e.table = 2 then d.putSlot { s with closed := true, closedLc := d.lc } else d.sendAck s (some own)
      (d.inc R.CE_LAUNCH_INC).error 0x0B s.group 0x31 2 [s.stream, s.chunk, s.total * 65536 + s.expected] (some s.part)

/-- A closed slot is free after its timeout (R252). -/
def launchFree (d : Dev) (b stream chunk : Nat) : Dev :=
  match d.slotOf b stream chunk with
  | none => d
  | some s => if ¬ s.closed ∨ ¬ d.powered ∨ d.lc < s.closedLc + usCounts s.timeout then d else d.freeSlot s

/-! Watch slots (R260). -/

/-- VALID and GROUP of a watch slot as one number. -/
def watchSel (d : Dev) (i : Nat) : Nat := b2n (d.on (R.CE_WATCH i) F.CE_WATCH_VALID) * 4096 + d.fld (R.CE_WATCH i) F.CE_WATCH_GROUP

/-- Entries of watch slots whose selection changed at a boundary become zero. -/
def watchReset (d : Dev) : Dev :=
  (List.range 16).foldl (fun d i =>
    if d.watchSel i = d.ce.watchSel.getD i 0 then d
    else
      let d := (d.clearCtr (R.CE_W_CHUNKS i)).clearCtr (R.CE_W_SPREAD i)
      let w := d.ce.watch.filter fun x => x.1 / 1024 ≠ i
      let sel := d.ce.watchSel.set i (d.watchSel i)
      { d with ce := { d.ce with watch := w, watchSel := sel } }) d

end Dev
end Sys2Proof.Machine
end

