-- ==== Sys2Proof/Machine/VatMath.lean ====
section
/-! DEFINITION. The handlers of the built-in recipes, array operations, and the start of the handlers of loaded ones (spec/08_vat_arithmetic.md R283 to
R310, spec/09_vat_programming.md R312 to R316, R324 to R326). -/
namespace Sys2Proof.Machine

/-- The weight of a WSUM contribution (R265, R289). -/
def weightOf (h : Hdr) : Nat := bits h.off 45 30

/-- The key of a NaN for MAX and MIN (R294): beyond every other. -/
def nanKey (max : Bool) : Int := if max then 2 ^ 70 else -(2 ^ 70)

/-- The selection key of an element under R293, R294 for MAX (or MIN). In ARGMAX and ARGMIN (R296) a NaN wins over every number, as in MAX and MIN (DESIGN CHOICE,
log entry 89). -/
def selKey (max : Bool) (fmt n : Nat) : Int :=
  if isFloat fmt then (if isNaN fmt n then nanKey max else ordKey fmt n) else sgn (8 * elemSize fmt) n

/-- What element i of a contribution brings to a built-in recipe, and whether it converted to, or is, a saturated tally. -/
def operand (c : Ctx) (h : Hdr) (pay : List Byte) (i : Nat) : Int × Bool :=
  let fmt := kindFmt c.inKind
  let a := sgn 10 h.anchor
  let x := elemVal fmt a pay 0 i
  let n := elemBits fmt pay 0 i
  if c.recipe = 1 then toTally c.anchor x
  else if c.recipe = 2 then (sgn (8 * elemSize fmt) n, false)
  else if c.recipe = 3 then toTally c.anchor ((floatVal 2 (weightOf h)).mul x)
  else if c.recipe = 4 then toTally c.anchor (x.mul x)
  else if c.recipe = 5 then
    toTally c.anchor ((elemVal fmt a pay 0 (i / c.fxrN)).mul (elemVal fmt a pay (elemSize fmt * c.fxrM) (i % c.fxrN)))
  else if c.recipe = 6 ∨ c.recipe = 7 then
    if fmt = 7 then toTally c.anchor x else (selKey (c.recipe = 6) fmt n, false)
  else if c.recipe = 8 then (selKey true fmt n * 2 ^ 18 + (2 ^ 18 - 1 - h.rank), false)
  else if c.recipe = 9 then (selKey false fmt n * 2 ^ 18 + h.rank, false)
  else if c.recipe = 0x0D then ((roundVal 1 (floatVal fmt n)).1, false)
  else (n, false)

/-- How a built-in recipe combines an element into its accumulator, and whether that sets SAT (R276, R293, R296, R298, R300). -/
def combine (recipe : Nat) (a x : Int) : Int × Bool :=
  if recipe = 6 ∨ recipe = 8 then (max a x, false)
  else if recipe = 7 ∨ recipe = 9 then (min a x, false)
  else if recipe = 0x0A then ((a.toNat &&& x.toNat : Nat), false)
  else if recipe = 0x0B then ((a.toNat ||| x.toNat : Nat), false)
  else if recipe = 0x0C then ((a.toNat ^^^ x.toNat : Nat), false)
  else if recipe = 0x0D then (match fadd32 a.toNat x.toNat with | (r, s) => ((r : Int), s))
  else (a + x, false)

/-- A contribution added into a context of a built-in recipe; the number of saturated tallies met, of FXR for each product of the tile (R310; DESIGN CHOICE, log entry 90). -/
def addElems (c : Ctx) (h : Hdr) (pay : List Byte) : Ctx × Nat :=
  let ops := (List.range c.elems).map (operand c h pay)
  let ins := ops.countP (·.2)
  if c.acc = [] then ({ c with acc := ops.map (·.1), sat := c.sat || 0 < ins }, ins)
  else
    let r := List.zipWith (fun a o => combine c.recipe a o.1) c.acc ops
    ({ c with acc := r.map (·.1), sat := c.sat || 0 < ins || r.any (·.2) }, ins)

/-- One result element of MAX or MIN from its key (R294, R295). A selected -0 stays -0 in another OUT_FMT (DESIGN CHOICE, log entry 89). -/
def selOut (max : Bool) (fmt out : Nat) (k : Int) : Nat × Bool :=
  if ¬ isFloat fmt then (unsgn (8 * elemSize out) k, false)
  else if k = nanKey max then (canonNaN out, false)
  else if fmt = out then (keyBits fmt k, false)
  else roundVal out (floatVal fmt (keyBits fmt k))

/-- One result word of ARGMAX or ARGMIN (R296, R297). -/
def argOut (max : Bool) (fmt : Nat) (z : Int) : Nat :=
  let k := z / 2 ^ 18
  let r := (z % 2 ^ 18).toNat
  let rank := if max then 2 ^ 18 - 1 - r else r
  let v := if ¬ isFloat fmt then unsgn 32 k
    else if k = nanKey max then canonNaN 1 else (roundVal 1 (floatVal fmt (keyBits fmt k))).1
  v * 2 ^ 32 + rank

/-- The result of a completed context of a built-in recipe: its bytes and the number of elements that overflowed or saturated (FINAL): of FASTFLOAT
those whose last rounding did (R310; DESIGN CHOICE, log entry 90). -/
def finalOut (c : Ctx) : List Byte × Nat :=
  let fmt := kindFmt c.inKind
  let each (f : Int → Nat × Bool) : List Byte × Nat :=
    let l := c.acc.map f
    (l.flatMap fun x => beBytes x.1 (elemSize c.outFmt), l.countP (·.2))
  if c.recipe = 0x0E then ([], 0)
  else if anchored c.recipe c.inKind then roundSums c.outFmt c.anchor c.acc
  else if c.recipe = 2 then each (roundInt c.outFmt (bit c.param 0))
  else if c.recipe = 6 ∨ c.recipe = 7 then each (selOut (c.recipe = 6) fmt c.outFmt)
  else if c.recipe = 8 ∨ c.recipe = 9 then each fun z => (argOut (c.recipe = 8) fmt z, false)
  else if c.recipe = 0x0D then each fun z => if c.outFmt = 1 ∧ ¬ isNaN 1 z.toNat then (z.toNat, false) else roundVal c.outFmt (floatVal 1 z.toNat)
  else each fun z => (z.toNat, false)

/-! Array operations of loaded recipes (R324 to R326). -/

/-- A word of a context's run (R319). -/
def Ctx.word (c : Ctx) (w : Nat) : Nat := Sparse.get 0 c.words w
def Ctx.setW (c : Ctx) (w v : Nat) : Ctx := { c with words := Sparse.put 0 c.words w (v % 2 ^ 64) }

/-- Whether FMT, CONV and COMB may stand together (R325, R326). -/
def aopLegal (fmt conv comb : Nat) (sq : Bool) : Bool :=
  (1 ≤ fmt && fmt ≤ 11 && comb ≤ 7) &&
  (if sq then conv = 1 && comb = 0 && (fmt = 2 || fmt = 4 || fmt = 5)
   else
    (if conv = 0 then 7 ≤ fmt else if conv = 1 then fmt ≤ 7 else if conv = 2 || conv = 3 then fmt ≤ 6
     else if conv = 4 then fmt ≤ 3 else if conv = 5 then fmt ≤ 5 else false) && (comb ≠ 7 || conv = 4))

/-- The key of an element (R325): ordered as R293, every NaN above plus infinity, its value free within that. -/
def orderKey (fmt n : Nat) : Int :=
  (if isNaN fmt n then 2 ^ 32 else ordKey fmt n) * (Config.keyScale fmt % 2 ^ 16 + 1 : Nat) + (Config.keyShift fmt % 2 ^ 16 : Nat)

/-- The 64-bit operand of an element (R325), and whether a tally saturated. -/
def aopOperand (c : Ctx) (h : Hdr) (pay : List Byte) (o : AOp) (i : Nat) : Nat × Bool :=
  let a := sgn 10 h.anchor
  let x := elemVal o.fmt a pay o.ri i
  let n := elemBits o.fmt pay o.ri i
  let tally (v : Val) : Nat × Bool := match toTally c.anchor v with | (t, s) => (unsgn 64 t, s)
  if o.conv = 0 then (unsgn 64 (if o.fmt = 7 ∨ o.fmt = 9 then sgn 32 n else n), false)
  else if o.conv = 1 then tally x
  else if o.conv = 2 then tally (x.mul x)
  else if o.conv = 3 then tally ((floatVal 2 (weightOf h)).mul x)
  else if o.conv = 4 then ((roundVal 1 (floatVal o.fmt n)).1, false)
  else (unsgn 64 (orderKey o.fmt n), false)

/-- A word after a combine (R325). -/
def aopCombine (comb w x : Nat) : Nat :=
  if comb = 0 then (w + x) % 2 ^ 64
  else if comb = 1 then if sgn 64 w < sgn 64 x then x else w
  else if comb = 2 then if sgn 64 x < sgn 64 w then x else w
  else if comb = 3 then w &&& x
  else if comb = 4 then w ||| x
  else if comb = 5 then w ^^^ x
  else if comb = 6 then x
  else (fadd32 (w % 2 ^ 32) x).1

/-- One combine into a word, with the context and the count of saturated tallies. -/
def aopOne (comb : Nat) (c : Ctx × Nat) (w : Nat) (x : Nat × Bool) : Ctx × Nat :=
  let k := c.1.setW w (aopCombine comb (c.1.word w) x.1)
  ({ k with sat := k.sat || x.2 }, c.2 + b2n x.2)

/-- The elements of an array operation combined into the context's words. -/
def aopApply (c : Ctx) (h : Hdr) (pay : List Byte) (o : AOp) : Ctx × Nat :=
  if o.sq then
    let m := bits o.rl 15 8
    let n := bits o.rl 7 0
    let a := sgn 10 h.anchor
    (List.range (m * n)).foldl (fun s i =>
      let v := (elemVal o.fmt a pay o.ri (i / n)).mul (elemVal o.fmt a pay (o.ri + elemSize o.fmt * m) (i % n))
      aopOne 0 s (o.rw + i) (match toTally s.1.anchor v with | (t, b) => (unsgn 64 t, b))) (c, 0)
  else (List.range o.rl).foldl (fun s i => aopOne o.comb s (o.rw + i) (aopOperand s.1 h pay o i)) (c, 0)

namespace Dev

/-- The running handler of a vat. -/
def runOf (d : Dev) (lv : Nat) : Option Run := d.vat.runs.find? fun r => r.lv = lv
def putRun (d : Dev) (r : Run) : Dev := d.setVat { d.vat with runs := (d.vat.runs.filter fun x => x.lv ≠ r.lv) ++ [r] }
def endRun (d : Dev) (lv : Nat) : Dev := d.setVat { d.vat with runs := d.vat.runs.filter fun x => x.lv ≠ lv }

/-- The lowest free array of a vat (R315). -/
def freeArray (d : Dev) (lv : Nat) : Option Nat :=
  (List.range 4).find? fun a => ¬ d.vat.arrays.any fun j => j.lv = lv && j.arr = a

/-- Start a handler of a loaded recipe (R312, R317). -/
def startRun (d : Dev) (c : Ctx) (kind : Handler) (arr : Nat) (e : StepEv) : Dev :=
  match d.rcpOf c.recipe with
  | none => d
  | some r =>
    let pc := match kind with | .init => r.init | .step => r.step | .final => r.final
    d.putRun { lv := c.lv, slot := c.slot, kind := kind, arr := arr, pc := pc % 4096, g := List.replicate 16 0, cyc := 0, startLc := d.lc,
               entryNs := d.fabNs, code := e.code, h := e.h, pay := e.pay, count := e.count }

/-- The next STEP of a vat begins (R312, R313, R315): a built-in recipe's runs to its DONE; a loaded recipe's INIT comes first. -/
def handlerStep (d : Dev) (lv : Nat) : Dev :=
  match d.runOf lv, d.vat.steps.find? fun s => s.lv = lv with
  | none, some e =>
    match d.ctxAt lv e.slot with
    | none => d
    | some c =>
      let took (d : Dev) := d.setVat { d.vat with steps := d.vat.steps.erase e }
      if ¬ c.inited then d.startRun c .init 4 e
      else if c.recipe = 0x0E then ((took d).putCtx { c with steps := c.steps - 1 }).builtinRan (lv / 96) c.recipe 1
      else if c.recipe = 0x0D ∧ d.vat.arrays.any (fun j => j.lv = lv && j.slot = c.slot) then d
      else match d.freeArray lv with
        | none => d
        | some a =>
          let d := (took d).putCtx { c with steps := c.steps - 1 }
          let job (ops : List AOp) (ended : Bool) : ArrJob := ⟨lv, a, c.slot, e.h, e.pay, ops, ended⟩
          if c.recipe < 0x80 then (d.setVat { d.vat with arrays := d.vat.arrays ++ [job [{}] true] }).builtinRan (lv / 96) c.recipe 1
          else (d.setVat { d.vat with arrays := d.vat.arrays ++ [job [] false] }).startRun c .step a e
  | _, _ => d

/-- Replace the job of an array, or free the array when nothing is left in it. -/
def putJob (d : Dev) (j : ArrJob) : Dev :=
  let l := d.vat.arrays.filter fun x => ¬ (x.lv = j.lv ∧ x.arr = j.arr)
  d.setVat { d.vat with arrays := if j.ops = [] ∧ j.ended then l else l ++ [j] }

/-- The oldest operation of an array completes (R276, R316), and its cycles count then (R310; DESIGN CHOICE, log entry 90). -/
def arrayOpComplete (d : Dev) (lv arr : Nat) : Dev :=
  match d.vat.arrays.find? fun j => j.lv = lv && j.arr = arr with
  | none => d
  | some j =>
    match j.ops with
    | [] => d
    | o :: rest =>
      let d := d.putJob { j with ops := rest }
      match d.ctxAt lv j.slot with
      | none => d
      | some c =>
        let (c', ins) := if o.builtin then addElems c j.h j.pay else aopApply c j.h j.pay o
        let sq := if o.builtin then (if c.recipe = 5 then ceilDiv c.fxrM 8 * ceilDiv c.fxrN 8 else 0)
          else if o.sq then ceilDiv (bits o.rl 15 8) 8 * ceilDiv (bits o.rl 7 0) 8 else 0
        ((d.putCtx c').incBy (vbCtr (lv / 96) 2) ins).incBy (vbCtr (lv / 96) 4) sq

/-- FINAL of a completed context, once every array operation issued for it has completed (R312). -/
def handlerFinal (d : Dev) (lv slot : Nat) : Dev :=
  match d.ctxAt lv slot with
  | none => d
  | some c =>
    if ¬ c.done ∨ c.sent ∨ c.steps ≠ 0 ∨ (d.runOf lv).isSome ∨ d.vat.arrays.any (fun j => j.lv = lv && j.slot = slot) then d
    else if c.recipe < 0x80 then
      let (pay, ovf) := finalOut c
      let d := (d.incBy (vbCtr (lv / 96) 3) ovf).builtinRan (lv / 96) c.recipe 2
      let d := if c.recipe = 0x0D then d.inc (vbCtr (lv / 96) 5) else d
      d.sendResult { c with sat := c.sat || 0 < ovf } pay
    else d.startRun c .final 4 ⟨lv, slot, 0, {}, [], c.total⟩

end Dev
end Sys2Proof.Machine
end

