-- ==== Sys2Proof/Machine/Seq.lean ====
section
/-! DEFINITION. The vat sequencer: instruction words, their meanings, recipe faults and messages (spec/09_vat_programming.md R311 to R337, R345).
An instruction of a running handler is issued by the command that names it: it has its effect when the word at the program counter is that
instruction. -/
namespace Sys2Proof.Machine

/-- Fields of an instruction word (R322). -/
def iOp (w : Nat) : Nat := bits w 63 56
def iRd (w : Nat) : Nat := bits w 55 52
def iRa (w : Nat) : Nat := bits w 51 48
def iRb (w : Nat) : Nat := bits w 47 44
def iRi (w : Nat) : Nat := bits w 43 40
def iImm (w : Nat) : Nat := bits w 31 0
def iFmt (w : Nat) : Nat := bits w 39 32
def iConv (w : Nat) : Nat := bits w 31 28
def iComb (w : Nat) : Nat := bits w 27 24
def iSq (w : Nat) : Bool := bit w 23

/-- IMM sign-extended to 64 bits. -/
def iSext (w : Nat) : Nat := unsgn 64 (sgn 32 (iImm w))

/-- The opcodes of format A (R323). -/
def opsA : List Nat :=
  [0x00, 0x01, 0x02, 0x08, 0x09] ++ (List.range 11).map (0x10 + ·) ++ (List.range 11).map (0x20 + ·)
    ++ [0x30, 0x31, 0x32, 0x38, 0x39, 0x3A, 0x3B, 0x3C, 0x41, 0x50, 0x51]

/-- Whether a word is legal under R323: its OP is listed and its reserved bits are zero. -/
def iWordOk (w : Nat) : Bool :=
  if iOp w = 0x40 ∨ iOp w = 0x48 then bits w 55 52 = 0 && bits w 22 0 = 0 else opsA.contains (iOp w) && bits w 43 32 = 0

/-- Whether a word is a legal instruction as far as its word alone says: GETS names a special register (R318, R323). -/
def iLegal (w : Nat) : Bool := iWordOk w && (iOp w ≠ 0x30 || bits w 7 0 ≤ 0x12)

/-- The arithmetic of R323: `k` is 0 ADD, 1 SUB, 2 AND, 3 OR, 4 XOR, 5 SHL, 6 SHR, 7 SAR, 8 MUL, 9 MAX, 10 MIN. -/
def alu (k a b : Nat) : Nat :=
  if k = 0 then (a + b) % 2 ^ 64
  else if k = 1 then (a + 2 ^ 64 - b % 2 ^ 64) % 2 ^ 64
  else if k = 2 then a &&& b
  else if k = 3 then a ||| b
  else if k = 4 then a ^^^ b
  else if k = 5 then a * 2 ^ (b % 64) % 2 ^ 64
  else if k = 6 then a / 2 ^ (b % 64)
  else if k = 7 then unsgn 64 (sgn 64 a / 2 ^ (b % 64))
  else if k = 8 then a * b % 2 ^ 64
  else if k = 9 then if sgn 64 a < sgn 64 b then b else a
  else if sgn 64 b < sgn 64 a then b else a

/-- A general register; G0 reads as zero (R317). -/
def Run.get (r : Run) (n : Nat) : Nat := if n = 0 then 0 else r.g.getD n 0

/-- Set a general register; G0 ignores writes. -/
def Run.set (r : Run) (n v : Nat) : Run := if n = 0 then r else { r with g := r.g.set n (v % 2 ^ 64) }

/-- On to the next instruction after `cyc` cycles. -/
def Run.next (r : Run) (cyc : Nat) : Run := { r with pc := (r.pc + 1) % 4096, cyc := r.cyc + cyc }

/-- What an instruction comes to: the handler goes on, ends, or stops with a fault cause of R336. -/
inductive SeqRes where
  | go (d : Dev) (r : Run)
  | done (d : Dev)
  | bad (cause : Nat)

/-- A special register (R318). -/
def special (r : Run) (c : Ctx) (n : Nat) : Nat :=
  let st (v : Nat) := if r.kind = .step then v else 0
  if n = 0 then c.elems else if n = 1 then c.fxrM else if n = 2 then c.fxrN else if n = 3 then unsgn 64 c.anchor
  else if n = 4 then c.param else if n = 5 then st r.h.rank else if n = 6 then st (weightOf r.h) else if n = 7 then st r.h.kind
  else if n = 8 then st r.code else if n = 9 then st r.h.plen else if n = 0xA then r.count else if n = 0xB then c.expected
  else if n = 0xC then b2n c.sat + 2 * b2n c.amx else if n = 0xD then 512 * c.run else if n = 0xE then c.lv else if n = 0xF then c.slot
  else if n = 0x10 then c.stream else if n = 0x11 then c.chunk else r.entryNs % 2 ^ 64

namespace Dev

/-- The word at an address of the instruction memory (R311). -/
def imemAt (d : Dev) (pc : Nat) : Nat := if pc < 0x800 then (Config.romWord pc).toNat else Sparse.get 0 d.vat.imem pc

/-- The BUDGET of a recipe. -/
def budgetOf (d : Dev) (c : Ctx) : Nat := match d.rcpOf c.recipe with | some r => r.budget | none => 0

/-- A recipe fault (R336, R337); the context counts in VB_RECIPE_FAULT and not in CE_FLUSHED (DESIGN CHOICE, log entry 85). -/
def recipeFault (d : Dev) (r : Run) (c : Ctx) (cause : Nat) : Dev :=
  let d := d.descRead (some c.part) (some c.group) c.reads
  let miss := if r.kind = .final then [] else d.missing c.group c.perPort c.counts
  let d := d.flushCtx c.lv c.slot
  let d := d.setVat { d.vat with recs := d.vat.recs.filter fun x => ¬ (x.lv = c.lv ∧ x.stream = c.stream ∧ x.chunk = c.chunk) }
  d.faultRecord c.lv c.slot c.stream c.chunk c.group cause r.pc miss c.expected c.total c.openT

/-- Issue the instruction at the program counter of a vat's running handler, when its opcode is `opc`; `ecc`: its fetch meets an uncorrectable error.
Nothing is issued when no handler runs, when another instruction stands there, or when the handler has used its BUDGET (R335). -/
def issue (d : Dev) (lv opc : Nat) (ecc : Bool) (act : Dev → Run → Ctx → Nat → SeqRes) : Dev :=
  match d.runOf lv with
  | none => d
  | some r =>
    match d.ctxAt lv r.slot with
    | none => d
    | some c =>
      let w := d.imemAt r.pc
      if d.budgetOf c ≤ r.cyc then d
      else if ecc then d.recipeFault r c 7
      else if ¬ iLegal w then d.recipeFault r c 1
      else if iOp w ≠ opc then d
      else match act d r c w with
        | .go d r => d.putRun r
        | .done d => d
        | .bad cause => d.recipeFault r c cause

/-! Meanings of the instructions (R323). -/

def iNop (d : Dev) (r : Run) (_ : Ctx) (_ : Nat) : SeqRes := .go d (r.next 1)

def iSetf (d : Dev) (r : Run) (c : Ctx) (w : Nat) : SeqRes :=
  .go (d.putCtx { c with sat := c.sat || bit w 0, amx := c.amx || bit w 1 }) (r.next 1)

def iLi (d : Dev) (r : Run) (_ : Ctx) (w : Nat) : SeqRes := .go d ((r.set (iRd w) (iSext w)).next 1)

def iLui (d : Dev) (r : Run) (_ : Ctx) (w : Nat) : SeqRes :=
  .go d ((r.set (iRd w) (iImm w * 2 ^ 32 + r.get (iRd w) % 2 ^ 32)).next 1)

/-- Register arithmetic, and with IMM in place of rb. -/
def iAlu (k : Nat) (d : Dev) (r : Run) (_ : Ctx) (w : Nat) : SeqRes :=
  .go d ((r.set (iRd w) (alu k (r.get (iRa w)) (r.get (iRb w)))).next 1)
def iAluI (k : Nat) (d : Dev) (r : Run) (_ : Ctx) (w : Nat) : SeqRes :=
  .go d ((r.set (iRd w) (alu k (r.get (iRa w)) (iSext w))).next 1)

def iGets (d : Dev) (r : Run) (c : Ctx) (w : Nat) : SeqRes := .go d ((r.set (iRd w) (special r c (bits w 7 0))).next 1)

/-- LDW and STW: a word address outside the run is a fault of cause ADDR. -/
def iLdw (d : Dev) (r : Run) (c : Ctx) (w : Nat) : SeqRes :=
  let a := (r.get (iRa w) + iSext w) % 2 ^ 64
  if 512 * c.run ≤ a then .bad 2 else .go d ((r.set (iRd w) (c.word a)).next 1)
def iStw (d : Dev) (r : Run) (c : Ctx) (w : Nat) : SeqRes :=
  let a := (r.get (iRa w) + iSext w) % 2 ^ 64
  if 512 * c.run ≤ a then .bad 2 else .go (d.putCtx (c.setW a (r.get (iRd w)))) (r.next 1)

/-- Branches: a jump to IMM [11:0] or on to the next instruction. -/
def jump (d : Dev) (r : Run) (w : Nat) (taken : Bool) : SeqRes :=
  .go d (if taken then { r with pc := bits w 11 0, cyc := r.cyc + 1 } else r.next 1)
def iBra (d : Dev) (r : Run) (_ : Ctx) (w : Nat) : SeqRes := jump d r w true
def iBeq (d : Dev) (r : Run) (_ : Ctx) (w : Nat) : SeqRes := jump d r w (r.get (iRa w) = r.get (iRb w))
def iBne (d : Dev) (r : Run) (_ : Ctx) (w : Nat) : SeqRes := jump d r w (r.get (iRa w) ≠ r.get (iRb w))
def iBlt (d : Dev) (r : Run) (_ : Ctx) (w : Nat) : SeqRes := jump d r w (sgn 64 (r.get (iRa w)) < sgn 64 (r.get (iRb w)))
def iBge (d : Dev) (r : Run) (_ : Ctx) (w : Nat) : SeqRes := jump d r w (sgn 64 (r.get (iRb w)) ≤ sgn 64 (r.get (iRa w)))

/-- AOP (R324 to R326, R336): the checks ILLEGAL, ARRAY, ADDR in this order, then the operation is issued to the handler's array. -/
def iAop (d : Dev) (r : Run) (c : Ctx) (w : Nat) : SeqRes :=
  let rl := r.get (bits w 51 48)
  let o : AOp := { builtin := false, rl := rl, rw := r.get (bits w 47 44), ri := r.get (iRi w), fmt := iFmt w, conv := iConv w,
                   comb := iComb w, sq := iSq w }
  let m := bits rl 15 8
  let n := bits rl 7 0
  let need := if o.sq then elemSize o.fmt * (m + n) else elemBytes o.fmt rl
  let words := if o.sq then m * n else rl
  if r.kind ≠ .step ∨ ¬ aopLegal o.fmt o.conv o.comb o.sq then .bad 1
  else if (o.sq ∧ ¬ (1 ≤ m ∧ m ≤ 64 ∧ 1 ≤ n ∧ n ≤ 64 ∧ rl < 65536)) ∨ rl = 0 ∨ r.h.plen < o.ri + need ∨ (o.fmt = 6 ∧ o.ri % 33 ≠ 0) then .bad 4
  else if 512 * c.run < o.rw + words then .bad 2
  else
    let arrays := d.vat.arrays.map fun j => if j.lv = r.lv ∧ j.arr = r.arr then { j with ops := j.ops ++ [o] } else j
    .go (d.setVat { d.vat with arrays := arrays }) (r.next 1)

/-- WAIT stalls while an array operation of its handler is not complete. -/
def iWait (d : Dev) (r : Run) (_ : Ctx) (_ : Nat) : SeqRes :=
  if d.vat.arrays.any (fun j => j.lv = r.lv && j.arr = r.arr && j.ops ≠ []) then .go d { r with cyc := r.cyc + 1 } else .go d (r.next 1)

/-- Whether OUT takes a MODE and FMT (R327). With others it is an illegal instruction (DESIGN CHOICE, log entry 90). -/
def outLegal (mode fmt : Nat) : Bool :=
  if mode = 0 then 1 ≤ fmt && fmt ≤ 8
  else if mode = 1 then fmt = 7 || fmt = 9 || fmt = 10 || fmt = 11
  else if mode = 2 then fmt = 9 || fmt = 10
  else if mode = 3 then 1 ≤ fmt && fmt ≤ 11 else false

/-- An fp32 word rounded once into a format other than BS8 (mode FP32 of R327): into a floating-point format as R277 and R278 give, into T32 as R279, into T64
the nearest integer at the chunk anchor, into int32 and int64 the nearest integer. The spec states no rounding of an infinity or a NaN into T64, nor of what no
integer format holds: these results are free values. -/
def fp32Into (fmt : Nat) (A : Int) (x : Nat) : Nat × Bool :=
  if isFloat fmt then if fmt = 1 ∧ ¬ isNaN 1 x then (x, false) else roundVal fmt (floatVal 1 x)
  else match floatVal 1 x with
    | .fin s m e =>
      if fmt = 7 then roundT32 (signed s (rne m (min (e - A) 2048)))
      else if fmt = 8 then (unsgn 64 (signed s (rne m (min (e - A) 2048))), false)
      else
        let z := signed s (rne m (min e 2048))
        let w := 8 * elemSize fmt
        if (fmt = 9 ∨ fmt = 10) ∧ -(2 ^ (w - 1) : Int) ≤ z ∧ z < (2 ^ (w - 1) : Int) then (unsgn w z, false) else (Config.fp32Into fmt x % 2 ^ w, false)
    | v => if fmt = 7 then match toTally A v with | (t, b) => (unsgn 32 t, b) else (Config.fp32Into fmt x % 2 ^ (8 * elemSize fmt), false)

/-- fp32 words rounded into BS8 blocks (R280, R327): the bytes and how many elements saturated. A block with an infinity or a NaN has no result in the spec: its
elements and its exponent are free among those that an output block can hold, an exponent up to 254, integers from -127 to 127 and zeros as padding
(R267, R268, R280; log entry 72). -/
def fp32Bs8 (l : List Nat) : List Byte × Nat :=
  let b := (runs32 l.length l).map fun r =>
    let fin := r.filterMap fun x => match floatVal 1 x with | .fin s m e => some (s, m, e) | _ => none
    let free (i : Nat) : Byte :=
      if i = 0 then BitVec.ofNat 8 (Config.fp32Bs8 r 0 % 255)
      else if i ≤ r.length then BitVec.ofNat 8 (unsgn 8 ((Config.fp32Bs8 r i % 255 : Nat) - 127 : Int)) else 0
    if fin.length = r.length then bs8Vals fin else ((List.range 33).map free, 0)
  (b.flatMap (·.1), (b.map (·.2)).sum)

/-- The elements that OUT appends, and how many set SAT. -/
def outElems (c : Ctx) (mode fmt rw rl : Nat) : List Byte × Nat :=
  let l := (List.range rl).map fun i => c.word (rw + i)
  if mode = 0 then roundSums fmt c.anchor (l.map (sgn 64))
  else if mode = 3 ∧ fmt = 6 then fp32Bs8 (l.map (· % 2 ^ 32))
  else
    let one (x : Nat) : Nat × Bool :=
      if mode = 1 then (x % 2 ^ (8 * elemSize fmt), false)
      else if mode = 2 then roundInt fmt true (sgn 64 x)
      else fp32Into fmt c.anchor (x % 2 ^ 32)
    let y := l.map one
    (y.flatMap fun x => beBytes x.1 (elemSize fmt), y.countP (·.2))

def iOut (d : Dev) (r : Run) (c : Ctx) (w : Nat) : SeqRes :=
  let rl := r.get (bits w 51 48)
  let rw := r.get (bits w 47 44)
  let fmt := iFmt w
  let mode := iConv w
  if r.kind ≠ .final ∨ ¬ outLegal mode fmt then .bad 1
  else if 512 * c.run < rw + rl then .bad 2
  else
    let (b, n) := outElems c mode fmt rw rl
    let d := (d.putCtx { c with sat := c.sat || 0 < n }).incBy (vbCtr (c.lv / 96) 3) n
    .go d { r.next (ceilDiv rl 8) with out := r.out ++ b, outN := r.outN + rl, outBad := r.outBad || r.outPart || (rl ≠ 0 && fmt ≠ c.outFmt),
                                       outPart := fmt = 6 && rl % 32 ≠ 0 }

/-- SEND (R331): ADDR first, then BAD_VAT, then FULL. -/
def iSend (d : Dev) (r : Run) (c : Ctx) (w : Nat) : SeqRes :=
  let tgt := r.get (iRa w)
  let a := r.get (iRb w)
  if 512 * c.run < a + 8 then .bad 2
  else if 1536 ≤ tgt then .go d ((r.set (iRd w) 2).next 9)
  else if 16 ≤ (d.vat.msgs.filter fun m => m.dst = tgt).length then
    .go (d.inc (R.VB_MSG_FULL (c.lv / 96))) ((r.set (iRd w) 1).next 9)
  else
    let m : Msg := { dst := tgt, src := c.lv, stream := c.stream, tag := bits w 15 0, body := (List.range 8).map fun i => c.word (a + i),
                     sent := d.lc, delivered := false, since := d.lc }
    .go ((d.setVat { d.vat with msgs := d.vat.msgs ++ [m] }).inc (R.VB_MSG_SENT (c.lv / 96))) ((r.set (iRd w) 0).next 9)

/-- RECV (R332). -/
def iRecv (d : Dev) (r : Run) (c : Ctx) (w : Nat) : SeqRes :=
  let a := r.get (iRa w)
  if 512 * c.run < a + 8 then .bad 2
  else match d.vat.msgs.find? fun m => m.dst = c.lv && m.delivered && m.stream = c.stream with
    | none => .go d ((r.set (iRd w) (2 ^ 64 - 1)).next 9)
    | some m =>
      let c := (List.range 8).foldl (fun c i => c.setW (a + i) (m.body.getD i 0)) c
      .go ((d.setVat { d.vat with msgs := d.vat.msgs.erase m }).putCtx c) ((r.set (iRd w) (m.tag + m.src * 2 ^ 16)).next 9)

/-- DONE (R313, R328): INIT leaves the context ready for its STEP; the STEP handler's array stays taken until its operations are complete; FINAL sends the
result or is a fault of cause OUTPUT. -/
def iDone (d : Dev) (r : Run) (c : Ctx) (_ : Nat) : SeqRes :=
  match r.kind with
  | .init => .done ((d.endRun r.lv).putCtx { c with inited := true })
  | .step =>
    let d := d.endRun r.lv
    match d.vat.arrays.find? fun j => j.lv = r.lv && j.arr = r.arr with
    | some j => .done (d.putJob { j with ended := true })
    | none => .done d
  | .final =>
    if r.outN ≠ c.elems ∨ r.outBad then .bad 5 else .done ((d.endRun r.lv).sendResult c r.out)

/-- A handler that has not reached DONE within its BUDGET of vat cycles (R335). A vat cycle is 1/1.2 ns. -/
def budgetExpire (d : Dev) (lv : Nat) : Dev :=
  match d.runOf lv with
  | none => d
  | some r =>
    match d.ctxAt lv r.slot with
    | none => d
    | some c => if d.budgetOf c ≤ r.cyc ∨ d.budgetOf c ≤ (d.lc - r.startLc) * 24 / 25 then d.recipeFault r c 3 else d

/-! Messages (R333, R334). -/

/-- The oldest message under way from one vat to another arrives. -/
def msgDeliver (d : Dev) (src dst : Nat) : Dev :=
  match d.vat.msgs.find? fun m => m.src = src && m.dst = dst && !m.delivered with
  | none => d
  | some m =>
    let m' := { m with delivered := true, since := d.lc }
    d.setVat { d.vat with msgs := d.vat.msgs.erase m ++ [m'] }

/-- Discard the messages that pass a test, counted in the bank of their receiver. -/
def dropMsgs (d : Dev) (f : Msg → Bool) : Dev :=
  let d' := (d.vat.msgs.filter f).foldl (fun d m => d.inc (R.VB_MSG_DROP (m.dst / 96))) d
  d'.setVat { d'.vat with msgs := d'.vat.msgs.filter fun m => !f m }

/-- The oldest queued message of a vat at the end of its life. -/
def msgExpire (d : Dev) (lv : Nat) : Dev :=
  let life := d.fld (R.VB_MSG_CTRL (lv / 96)) F.VB_MSG_CTRL_MSG_LIFE_US
  match d.vat.msgs.find? fun m => m.dst = lv && m.delivered with
  | none => d
  | some m => if d.lc < m.since + usCounts life then d else d.dropMsgs fun x => x = m

end Dev
end Sys2Proof.Machine
end

