-- ==== Sys2Proof/Machine/CeWindow.lean ====
section
/-! DEFINITION. The collective engine window (spec/07_collectives.md R257 to R259) and partition aborts (R253 to R256). -/
namespace Sys2Proof.Machine

/-- Entries of the collective engine tables. -/
def ceSize (t : Nat) : Nat := if t = 1 then 262144 else if t = 4 then 16384 else 4096

namespace Dev

/-- The result that an operation is refused with when it starts, 0 when it is not (R256, R257, R259). An OP that is none of 1 to 3, or a TABLE that is none of 1 to 4,
is BAD_OP (DESIGN CHOICE, log entry 89). -/
def ceTblCheck (d : Dev) (op table index : Nat) : Nat :=
  if ¬ (1 ≤ op ∧ op ≤ 3) ∨ ¬ (1 ≤ table ∧ table ≤ 4) ∨ (op = 2 ∧ table = 4) ∨ (op = 3 ∧ table = 3) then 5
  else if ceSize table ≤ index then 2
  else if op = 2 ∧ ((table = 1 ∧ (d.sdesc index).valid) ∨ (table = 2 ∧ (d.gdesc index).valid)
      ∨ (table = 3 ∧ d.faults.abortRun.any (·.1 = index))) then 1
  else 0

/-- The bytes of an entry. -/
def ceGet (d : Dev) (table index : Nat) : List Byte :=
  if table = 1 then Sparse.get (List.replicate 16 0) d.ce.stream index
  else if table = 2 then Sparse.get (List.replicate 320 0) d.ce.group index
  else if table = 3 then leBytes (Sparse.get 0 d.ce.part index) 4
  else match Sparse.get (0, 0) d.ce.watch index with | (a, b) => leBytes a 4 ++ [0, 0, 0, 0] ++ leBytes b 8

/-- Write an entry in all 16 front ends (R32). A WRITE of a partition entry with ABORTED one leaves ABORTED unchanged (R256). -/
def cePut (d : Dev) (table index : Nat) (v : List Byte) : Dev :=
  if table = 1 then { d with ce := { d.ce with stream := Sparse.put (List.replicate 16 0) d.ce.stream index (slice v 0 16) } }
  else if table = 2 then { d with ce := { d.ce with group := Sparse.put (List.replicate 320 0) d.ce.group index (slice v 0 320) } }
  else if table = 3 then
    let w := leNat (slice v 0 4)
    let old := Sparse.get 0 d.ce.part index
    { d with ce := { d.ce with part := Sparse.put 0 d.ce.part index (putBits w 30 30 (b2n (bit w 30 && bit old 30))) } }
  else d

/-- Flush contexts and open launch slots that pass a test, each counted in CE_FLUSHED; closed slots are freed without counting. -/
def flushAll (d : Dev) (f : Ctx → Bool) (g : LSlot → Bool) : Dev :=
  let d := (d.vat.ctxs.filter f).foldl (fun d c => (d.flushCtx c.lv c.slot).inc R.CE_FLUSHED) d
  (d.ce.launch.filter g).foldl (fun d s => if s.closed then d.freeSlot s else (d.freeSlot s).inc R.CE_FLUSHED) d

/-- Remove the record entries that pass a test. -/
def dropRecs (d : Dev) (f : RecEnt → Bool) : Dev := d.setVat { d.vat with recs := d.vat.recs.filter fun r => !f r }

/-- INVALIDATE of an entry (R258). -/
def ceInval (d : Dev) (table index : Nat) : Dev :=
  if table = 1 then
    (((d.descInvalid 1 index).flushAll (fun c => c.stream = index) (fun s => s.stream = index)).dropRecs fun r => r.stream = index).dropMsgs
      fun m => m.stream = index
  else if table = 2 then
    ((d.descInvalid 2 index).flushAll (fun c => c.group = index) (fun s => s.group = index)).dropRecs fun r => r.group = index
  else { d with ce := { d.ce with watch := Sparse.del d.ce.watch index } }

/-- Carry out an operation that passed `ceTblCheck`: the device, the result, the entry read. An entry of which no copy is correct makes the result ECC, and
nothing else is done (R259, R505). -/
def ceDo (d : Dev) (op table index : Nat) (v : List Byte) (err : Option DescErr) : Dev × Nat × List Byte :=
  let d := d.descMet err none none
  if err.any (·.allBad) then (d, 6, [])
  else if op = 1 then (d, 0, d.ceGet table index)
  else if op = 2 then (d.cePut table index v, 0, [])
  else (d.ceInval table index, 0, [])

/-- The CE_TW_DATA words as bytes. -/
def ceTwData (d : Dev) : List Byte := (List.range 80).flatMap fun i => leBytes (d.reg (R.CE_TW_DATA i)).toNat 4

/-- Start a window operation on an entry (R132, R133, R259). IN_USE is judged then, and not again when it completes (R256; DESIGN CHOICE, log entry 90). INVALIDATE of a stream or group clears VALID at once (R258). -/
def ceTwBegin (d : Dev) (op table index : Nat) : Dev :=
  if d.on R.CE_TW_STAT F.CE_TW_STAT_BUSY then d.setFld R.CE_TW_STAT F.CE_TW_STAT_OVERRUN 1
  else
    let o : TwOp := ⟨op, table, 0, index, d.ceTwData, d.ceTblCheck op table index⟩
    let d := { d.setFld R.CE_TW_STAT F.CE_TW_STAT_BUSY 1 with ce := { d.ce with tw := some o } }
    if o.result = 0 ∧ op = 3 ∧ table < 3 then d.descInvalid table index else d

/-- Start a window operation on the entry at INDEX. -/
def ceTwStart (d : Dev) (op table : Nat) : Dev := d.ceTwBegin op table (d.fld R.CE_TW_INDEX F.CE_TW_INDEX_INDEX)

/-- The window operation completes. It stays BUSY while the collective engine is off (R557). -/
def ceTwComplete (d : Dev) (err : Option DescErr) : Dev :=
  match d.ce.tw with
  | none => d
  | some o =>
    if ¬ d.powered then d
    else
    let d := { d with ce := { d.ce with tw := none } }
    let (d, r, v) := if o.result = 0 then d.ceDo o.op o.table o.index o.data err else (d, o.result, [])
    let d := if r = 0 ∧ o.op = 1 then
        (List.range (v.length / 4)).foldl (fun d i => d.setNum (R.CE_TW_DATA i) (leNat (slice v (4 * i) 4))) d else d
    (d.setFld R.CE_TW_STAT F.CE_TW_STAT_RESULT r).setFld R.CE_TW_STAT F.CE_TW_STAT_BUSY 0

/-! Partition aborts. -/

/-- Whether an abort of a partition runs or waits, or is done. -/
def abortKnown (d : Dev) (part : Nat) : Bool :=
  d.partAborted part || d.faults.abortRun.any (·.1 = part) || d.faults.aborts.any (·.1 = part)

/-- Start an abort, or put it behind the one that runs (R253, R517): partition, cause of the ABORT payload, RSEQ of the causing record. -/
def abortBegin (d : Dev) (part cause rseq : Nat) : Dev :=
  if part = 0 ∨ d.abortKnown part then d
  else if d.faults.abortRun.isSome then { d with faults := { d.faults with aborts := d.faults.aborts ++ [(part, cause, rseq)] } }
  else
    { d.setFld R.CE_ABORT F.CE_ABORT_BUSY 1 with faults := { d.faults with abortRun := some (part, cause, rseq), abortStart := d.beatNo } }

/-- A request by GO in CE_ABORT or by the abort command (R253): true when it was refused. R253 refuses a request that finds 16 aborts waiting and says that a start
has no further effect for a partition whose abort is done, runs or waits: such a one is not refused, however many wait (DESIGN CHOICE, log entry 85). -/
def abortRequest (d : Dev) (part : Nat) : Dev × Bool :=
  if part = 0 ∨ (¬ d.abortKnown part ∧ d.faults.abortRun.isSome ∧ 16 ≤ d.faults.aborts.length) then
    (d.setFld R.CE_ABORT F.CE_ABORT_REFUSED 1, true)
  else (d.abortBegin part 2 0, false)

/-- Packets that wait in their vat banks are discarded: notices, acknowledgements and results that have no cells yet. Each is captured by its front end (R614). What R615 asks of a
received header is that of the packet formed, and the time of its arrival that of the discard (DESIGN CHOICE, log entry 91). -/
def dropWaits (d : Dev) (p : WaitRes → Bool) : Dev :=
  (d.vat.wait.filter p).foldl (fun (d : Dev) (w : WaitRes) =>
      if d.on R.TM_FR_CTRL F.TM_FR_CTRL_DISCARDS then d.capture (16 + w.bank) (hdrOut w.h) w.h.x d.fabT 0x3FF 0x3FF 0x10 else d)
    (d.setVat { d.vat with wait := d.vat.wait.filter fun w => !p w })

/-- Discard one packet but for the copies already being sent (R254 step 4): the cells released. Copies beside one in transmission are captured one by one. -/
def abortPkt (d : Dev) (k : Pkt) : Dev × Nat :=
  let l := k.copies.filter fun c => c.stage = .sending
  if l.isEmpty then
    let e := (d.captureAt (heldAt k).1 k (heldAt k).2 0x10).takePkt k.id
    (e, d.core.cells.length - e.core.cells.length)
  else
    let gone := k.copies.filter fun c => c.stage ≠ .sending
    (gone.foldl (fun (d : Dev) c => d.captureAt (copyUnit k c) k c.out 0x10) (d.putPkt { k with copies := l }), 0)

/-- Discard the packets that pass a test; the cells released (R254). -/
def abortPkts (d : Dev) (f : Pkt → Bool) : Dev × Nat :=
  (d.core.pkts.filter f).foldl (fun s k =>
    match s.1.pkt? k.id with
    | none => s
    | some k => match s.1.abortPkt k with | (d, n) => (d, s.2 + n)) (d, 0)

/-- The abort that runs carries out its steps (R254) and the next one that waits starts. Step 6 names one of the contexts flushed: the first in the order of opening,
and a launch slot where the group had no context (DESIGN CHOICE, log entry 85). The engine is off in Umber (R557). -/
def abortRun (d : Dev) : Dev :=
  match if d.powered then d.faults.abortRun else none with
  | none => d
  | some (part, cause, rseq) =>
    let d := { d with ce := { d.ce with part := Sparse.ins d.ce.part part (putBits (Sparse.get 0 d.ce.part part) 30 30 1) } }
    let hitC := d.vat.ctxs.filter fun c => c.part = part
    let hitS := d.ce.launch.filter fun s => s.part = part && !s.closed
    let named := (hitC.map fun c => (c.group, c.lv / 96, c.stream, c.chunk)) ++ hitS.map fun s => (s.group, s.bank, s.stream, s.chunk)
    let groups := (named.map (·.1)).eraseDups
    let streams := d.vat.msgs.filter fun m => (d.gdesc (d.sdesc m.stream).group).part = part
    let d := d.descRead (some part) none fun e => (e.table = 1 && streams.any (·.stream = e.index)) || (e.table = 2 && groups.contains e.index) ||
      (e.table = 3 && e.index = part)
    let d := d.flushAll (fun c => c.part = part) (fun s => s.part = part)
    let d := (d.dropRecs fun r => r.part = part).dropMsgs fun m => streams.contains m
    let d := d.dropWaits fun w => w.h.part = part && 1 ≤ w.h.vc && w.h.vc ≤ 6
    let (d, freed) := d.abortPkts fun k => k.h.part = part && 1 ≤ k.h.vc && k.h.vc ≤ 6
    let d := d.incBy R.LK_ABORT_FREED freed
    let e := Sparse.get 0 d.ce.part part
    let d := if bit e 31 then
        let pay := beBytes part 2 ++ [BitVec.ofNat 8 cause, 0] ++ beBytes (d.chipId 0) 4 ++ beBytes d.faults.abortStart 8
        d.waitFor { bank := 0, h := d.bankHdr 0 7 0x42 0 part 0 0 (bits e 17 0) false true pay.length, pay := pay, outs := none, isAbort := true }
      else d
    let d := groups.foldl (fun d g =>
      match named.find? fun x => x.1 = g with
      | some (_, b, s, c) => d.notice b g s c 3 []
      | none => d) d
    let d := d.inc R.CE_ABORTS
    let d := d.error 0x0C part 0x35 4 [cause, rseq] (some part)
    let d := d.event 6 0x800B (beBytes part 2 ++ [BitVec.ofNat 8 cause, 0])
    let d := { d.setFld R.CE_ABORT F.CE_ABORT_BUSY 0 with faults := { d.faults with abortRun := none } }
    match d.faults.aborts with
    | [] => d
    | (p, c, r) :: rest => ({ d with faults := { d.faults with aborts := rest } }).abortBegin p c r

end Dev
end Sys2Proof.Machine
end

