-- ==== Sys2Proof/Machine/Link.lean ====
section
/-! DEFINITION. The Yuzan link layer: rows, control messages, training, link down and the lane handshake (spec/11_optical_links.md R363 to R394,
spec/12_optical_health.md R419 to R429). -/
namespace Sys2Proof.Machine

/-- Whether the state of a link carries normal rows (R389, R390). -/
def rowsOn (s : Nat) : Bool := s = 3 || s = 4 || s = 5

/-- Row numbers are modulo 2^24 (R381): how far `b` lies after `a`. -/
def rowDist (a b : Nat) : Nat := (b + 2 ^ 24 - a % 2 ^ 24) % 2 ^ 24

/-- Whether an effect row lies 16 to 64 rows after the row in which the message begins (R382). -/
def effectOk (first row : Nat) : Bool := 16 ≤ rowDist first row && rowDist first row ≤ 64

/-- The lane map of R385: the wavelength of each logical lane and the lane state. `u` lists the usable wavelengths, rising. -/
def laneMap (split : Bool) (odd : Nat) (u : List Nat) (narrowOk : Bool) : Option (List Nat × Nat) :=
  if split then
    let w := (List.range 4).map (4 * odd + ·)
    if w.all u.contains then some (w, 3) else none
  else if u.length = 9 then some (List.range 8, 0)
  else if u.length = 8 then some ((List.range 8).map fun i => if u.contains i then i else 8, 1)
  else if u.length = 7 ∧ narrowOk then some (u, 2)
  else none

/-- The wavelengths of a mask. -/
def maskList (m : Nat) : List Nat := (List.range 9).filter (bit m)

/-- The key of a ring: transmit rings even, receive rings odd. -/
def ringKey (p j : Nat) (rx : Bool) : Nat := 2 * (9 * p + j) + b2n rx

/-- Bits of a mask with one set or cleared. -/
def maskSet (m j : Nat) : Nat := if bit m j then m else m + 2 ^ j
def maskClr (m j : Nat) : Nat := if bit m j then m - 2 ^ j else m

/-- The less protected of two lane states (R429). -/
def worseLane (a b : Nat) : Nat := max a b

namespace Dev

/-- YZ_STAT or YZ_STAT1 of a port code; both have one layout. -/
def statReg (c : Nat) : Nat := if c % 2 = 0 then R.YZ_STAT (c / 2) else R.YZ_STAT1 (c / 2)
def stat (d : Dev) (c : Nat) (f : FR) : Nat := d.fld (statReg c) f
def setStat (d : Dev) (c : Nat) (f : FR) (v : Nat) : Dev := d.setFld (statReg c) f v
def setState (d : Dev) (c s : Nat) : Dev := d.setStat c F.YZ_STAT_STATE s

/-- Change the link of a port code. -/
def updLk (d : Dev) (c : Nat) (f : Lk → Lk) : Dev := d.setLk c (f (d.lk c))

/-- The wavelengths of a port code (R383, R384). -/
def waves (d : Dev) (c : Nat) : List Nat := if d.isSplit (c / 2) then (List.range 4).map (4 * (c % 2) + ·) else List.range 9

/-- The state of a ring (R406): TX_STATE or RX_STATE of OH_RING; on a port of a circuit, where these read OFF, that of its lock loop (R400). -/
def ring (d : Dev) (p j : Nat) (rx : Bool) : Nat :=
  if d.linkState (2 * p) = 7 then Sparse.get 0 d.optic.hid (ringKey p j rx)
  else d.fld (R.OH_RING p j) (if rx then F.OH_RING_RX_STATE else F.OH_RING_TX_STATE)
def setRing (d : Dev) (p j : Nat) (rx : Bool) (s : Nat) : Dev :=
  if d.linkState (2 * p) = 7 then { d with optic := { d.optic with hid := Sparse.put 0 d.optic.hid (ringKey p j rx) s } }
  else d.setFld (R.OH_RING p j) (if rx then F.OH_RING_RX_STATE else F.OH_RING_TX_STATE) s

/-- Whether a receive lane has light. -/
def lit (d : Dev) (p j : Nat) : Bool := Sparse.get false d.optic.light (9 * p + j)

/-- Light comes or goes on a receive lane: RX_LOS. -/
def setLight (d : Dev) (p j : Nat) (on : Bool) : Dev :=
  { d.setFld (R.OH_RING p j) F.OH_RING_RX_LOS (b2n !on) with optic := { d.optic with light := Sparse.put false d.optic.light (9 * p + j) on } }

/-- The time without a valid identity read begins to run for a ring (R407). -/
def readFrom (d : Dev) (p j : Nat) (rx : Bool) : Dev :=
  { d with optic := { d.optic with readT := Sparse.ins d.optic.readT (ringKey p j rx) d.lc } }

/-- Bring OH_PORT, LANE_STATE and YZ_LANEMAP in line with the link (R429). -/
def syncLanes (d : Dev) (c : Nat) : Dev :=
  let l := d.lk c
  let p := c / 2
  let d := d.setStat c F.YZ_STAT_LANE_STATE (worseLane l.txSt l.rxSt)
  let d := d.setFld (R.OH_PORT p) F.OH_PORT_TX_LSTATE l.txSt
  let d := d.setFld (R.OH_PORT p) F.OH_PORT_RX_LSTATE l.rxSt
  let d := d.setFld (R.OH_PORT p) F.OH_PORT_CMD_PENDING (b2n (l.txCmd.isSome || l.rxCmd.isSome || l.req.isSome))
  let d := d.setFld (R.OH_PORT p) F.OH_PORT_VACATED l.txVac
  let base := if d.isSplit p then 4 * (c % 2) else 0
  let n := if d.isSplit p then 4 else 8
  d.setNum (R.YZ_LANEMAP p) ((List.range n).foldl (fun w i =>
    putBits w (4 * (base + i) + 3) (4 * (base + i)) (l.txMap.getD i 15)) (d.reg (R.YZ_LANEMAP p)).toNat)

/-! Entering the phases (R389). -/

/-- Training of a port code begins with LIGHT: it uses SPLIT as it stands, unless the other logical port is in use beyond LIGHT. Transmit rings start to
lock; a receive ring waits in SEARCH while its lane has no light (R410); an OOS ring is retried (R408). In split mode the rings of λ8 are OFF (R384, R406).
In full mode YZ_RTT1 reads zero. -/
def enterLight (d : Dev) (c : Nat) : Dev :=
  let p := c / 2
  let o := if c % 2 = 0 then c + 1 else c - 1
  let split := if 2 ≤ d.linkState o ∧ d.linkState o ≤ 5 then Sparse.get false d.link.mode p else d.on (R.YZ_CTRL p) F.YZ_CTRL_SPLIT
  let d := { d with link := { d.link with mode := Sparse.put false d.link.mode p split } }
  let c := if split then c else 2 * p
  let d := if split then d else (d.setState (2 * p + 1) 0).setNum (R.YZ_RTT1 p) 0
  let d := d.setState c 1
  let d := (d.waves c).foldl (fun d j =>
    let d := if d.ring p j false = 0 then d.setRing p j false 1 else d
    let d := if d.ring p j true = 0 ∨ ((d.ring p j true = 2 ∨ d.ring p j true = 3) ∧ ¬ d.lit p j) then d.setRing p j true 1 else d
    (d.setLight p j (d.lit p j)).readFrom p j true) d
  let d := if split then (d.setRing p 8 false 0).setRing p 8 true 0 else d
  let d := d.setLk c { since := d.lc, lightT := if (d.waves c).any (d.lit p) then some d.lc else none }
  ((d.setStat c F.YZ_STAT_FEAT 0).setStat c F.YZ_STAT_LEN_WARN 0).setFld (R.OH_PORT p) F.OH_PORT_DEGRADED 0

/-- Training of a physical port in the mode that SPLIT selects. -/
def trainPort (d : Dev) (p : Nat) : Dev :=
  let d := d.enterLight (2 * p)
  if Sparse.get false d.link.mode p then d.enterLight (2 * p + 1) else d

/-- Bad wires of a bridge's wire group: the first two have the spares (R529). -/
def wireUse (d : Dev) (g : Nat) : Nat := d.faults.wires.countP fun w => w.1 = g

/-- Whether a lane is carried by a wire group with four bad wires: its transfers are uncorrectable, and it is lost until the next reset (R386, R529). Which lanes
a group carries the spec does not say. -/
def laneCut (d : Dev) (p j : Nat) (rx : Bool) : Bool :=
  ((d.faults.wires.map (·.1)).eraseDups).any fun g => decide (4 ≤ d.wireUse g) &&
    (Config.groupLanes (g % 64)).any fun (x : Nat × Nat × Bool) => decide (16 * (g / 64) + x.1 % 16 = p) && decide (x.2.1 % 9 = j) && (x.2.2 == rx)

/-- The lanes of a direction that their wire groups cut off, as a mask. -/
def cutMask (d : Dev) (p : Nat) (rx : Bool) : Nat := ((List.range 9).filter fun j => d.laneCut p j rx).foldl (fun m j => m + 2 ^ j) 0

/-- Usable receive wavelengths: locked, lit since the port left LIGHT (R410) and not lost, by 64 uncorrectable codewords either (R386). -/
def rxUsable (d : Dev) (c : Nat) : Nat :=
  ((d.waves c).filter fun j => d.ring (c / 2) j true = 2 && d.lit (c / 2) j && !d.laneCut (c / 2) j true && (d.lk c).bad.getD j 0 < 64 &&
    !bit (d.lk c).dark j).foldl
    (fun m j => m + 2 ^ j) 0

/-- Enter ALIGN: the lanes' scramblers and descramblers begin anew. Runs of uncorrectable codewords go on, and a lane that had no light when the port left LIGHT
stays out of RX_OK (R410). -/
def enterAlign (d : Dev) (c : Nat) : Dev :=
  let d := ((d.setState c 2).setStat c F.YZ_STAT_LANES_OK (d.rxUsable c)).setLk c { since := d.lc, alignT := d.lc, bad := (d.lk c).bad, dark := (d.lk c).dark }
  { d with link := { d.link with train := d.link.train.filter fun x => x.1 / 9 ≠ c, trainTx := d.link.trainTx.filter fun x => x.1 / 9 ≠ c } }

/-- Training restarts at ALIGN. -/
def restartAlign (d : Dev) (c : Nat) : Dev := (d.inc (R.YZ_TRAIN_FAIL (c / 2))).enterAlign c

/-! Bridges (R528). -/

/-- A bad wire, or two, in a bridge transfer (R528): group, wire, second wire, and the place in the row's data stream, or in a
circuit's codeword, of the first of the seven bytes that the transfer carries. -/
structure WireErr where
  g : Nat
  w : Nat
  w2 : Option Nat
  byte : Nat := 0
deriving DecidableEq, Repr

/-- Record a wire error of the bridge of an OE (R502, R503, R528, R529). -/
def wireError (d : Dev) (oe : Nat) (e : WireErr) : Dev :=
  let inst := 64 * oe + e.g % 64
  match e.w2 with
  | none => d.error 0x05 inst 0x18 1 [e.w]
  | some w2 => ((d.error 0x05 inst 0x19 2 [e.w, w2]).pushTodo (.wireSpare inst e.w)).pushTodo (.wireSpare inst w2)

/-- Whether an uncorrectable transfer carries the byte in a place. -/
def WireErr.loses (e : WireErr) (i : Nat) : Bool := e.w2.isSome && decide (e.byte ≤ i) && decide (i < e.byte + 7)

/-! Rows and slots sent (R366 to R376, R390). -/

/-- The number of the row that is sent now: rows take 21.25 ns from the start of training (R368, R381). -/
def rowAt (d : Dev) (c : Nat) : Nat := (d.lc - (d.lk c).alignT) * 16 / 425 % 2 ^ 24

/-- Whether every usable receive lane is aligned: READY (R390). -/
def trainReady (d : Dev) (c : Nat) : Bool :=
  let ok := d.stat c F.YZ_STAT_LANES_OK
  ok ≠ 0 && (maskList ok).all (bit (d.lk c).aligned)

/-- A training codeword of a wavelength, scrambled on from the one before it (R390). -/
def trainingSend (d : Dev) (c j row : Nat) (ready : Bool) : List Nat × Dev :=
  let b := j * 2 ^ 36 + row % 2 ^ 24 * 2 ^ 12 + b2n ready * 2 ^ 11 + d.stat c F.YZ_STAT_LANES_OK
  let (s, msg) := scrMsg false ([bits b 39 30, bits b 29 20, bits b 19 10, bits b 9 0] ++ List.replicate 252 0)
    (Sparse.get 0 d.link.trainTx (9 * c + j))
  (rsEncode msg, { d with link := { d.link with trainTx := Sparse.put 0 d.link.trainTx (9 * c + j) s } })

/-- Whether a wavelength can carry training codewords: its transmit ring is LOCKED, or under calibration on a vacated wavelength (R423, R432: only SEARCH, MISLOCK
and OOS do not modulate, R409, and λ8 during its own visit, R433), and its wire group carries it (R529). -/
def trains (d : Dev) (p j : Nat) : Bool :=
  (d.ring p j false = 2 || (d.ring p j false = 5 && j != 8)) && !d.laneCut p j false

/-- Training codewords on several wavelengths, of those that can carry them; the others are dark (R390, R409). -/
def trainingRow (d : Dev) (c row : Nat) (ready : Bool) (js : List Nat) : List (Nat × List Nat) × Dev :=
  (js.filter (d.trains (c / 2))).foldl (fun (x : List (Nat × List Nat) × Dev) j =>
    match x.2.trainingSend c j row ready with | (w, d) => (x.1 ++ [(j, w)], d)) ([], d)

/-- The next `n` bytes of a port's data stream (R374), marked at a header's first byte: packets whole and in order, 0x00 between them. `data` brings the payload
bytes of a packet cut through that have arrived since; none while they do not reach to the row's end. -/
def drawStream (d : Dev) (c n : Nat) (data : List Byte) : Option (List (Byte × Bool) × Dev) :=
  let l := d.lk c
  let l := if l.streaming then l else { l with streaming := true, txBody := 2 ^ 14 }
  let a := l.txq.take n
  let m := n - a.length
  let d := d.setLk c { l with txq := l.txq.drop n }
  let idle (k : Nat) : List (Byte × Bool) := List.replicate k (0, false)
  let plain (b : List Byte) : List (Byte × Bool) := b.map fun x => (x, false)
  match (d.txOf c).busy with
  | none => some (a ++ idle m, d)
  | some (id, _) =>
    match d.pkt? id with
    | none => some (a ++ idle m, d)
    | some k =>
      let start := l.txBody
      if m = 0 ∨ 2 ^ 14 ≤ start then some (a ++ idle m, d)
      else if k.ended then
        let b := ((k.pay ++ (outCheck k c).2).drop start).take m
        some (a ++ plain b ++ idle (m - b.length), d.updLk c fun l => { l with txBody := start + b.length })
      else
        let pay := k.pay ++ data.take (start + m - k.pay.length)
        if k.h.plen < start + m ∨ pay.length < start + m then none
        else some (a ++ plain ((pay.drop start).take m), (d.putPkt { k with pay := pay }).updLk c fun l => { l with txBody := start + m })

/-- The bytes that begin in the next row. -/
def rowSize (d : Dev) (c : Nat) : Nat := ceilDiv ((d.lk c).txMap.length * 2550 - (d.lk c).txBits.1) 8

/-- A row begins with its bytes. -/
def rowPut (d : Dev) (c : Nat) (row : List (Byte × Bool)) : Dev := d.updLk c fun l => { l with txRow := some row, txRowLc := d.lc }

/-- The next row begins with bytes of the data stream; none while those of a packet cut through do not reach. -/
def rowTake (d : Dev) (c : Nat) (data : List Byte) : Option Dev :=
  (d.drawStream c (d.rowSize c) data).map fun x => x.2.rowPut c x.1

/-- The next `n` bytes of a port's data stream when a packet cut through does not reach to their end: those that have arrived, free bytes for the rest of its
payload and its check, and 0x00 after them. -/
def shortStream (d : Dev) (c n : Nat) : List (Byte × Bool) × Dev :=
  let l := d.lk c
  let a := l.txq.take n
  let m := n - a.length
  let (pay, len) : List Byte × Nat := match ((d.txOf c).busy.bind fun b => d.pkt? b.1) with
    | some k => (k.pay.take k.h.plen, k.h.plen + 4)
    | none => ([], 0)
  let known := (pay.drop l.txBody).take m
  let lack := min (m - known.length) (len - l.txBody - known.length)
  let r := (List.range lack).foldl (fun (x : List Byte × Dev) _ => match x.2.draw with | (v, d) => (x.1 ++ [BitVec.ofNat 8 v.toNat], d)) ([], d)
  let body := known ++ r.1 ++ List.replicate (m - known.length - lack) 0
  (a ++ body.map fun b => (b, false), r.2.updLk c fun l => { l with txq := l.txq.drop n, txBody := l.txBody + known.length + lack })

/-- FIRST of R376: the place of the first header's first byte in the row, 0xFFF where none begins. -/
def firstOf (row : List (Byte × Bool)) : Nat := (row.findIdx? (·.2)).getD 0xFFF

/-- Put one row on the lanes (R366 to R370, R373). A transmit ring that is not LOCKED does not modulate (R409); λ8 is not modulated during its own
calibration visit (R433). A vacated wavelength carries training codewords (R423), its calibration included. A lane that its wire group cuts off is dark: the
spec does not say what leaves on it (R529; DESIGN CHOICE, log entry 88). -/
def sendRow (d : Dev) (c : Nat) : Dev :=
  let l := d.lk c
  let p := c / 2
  let n := l.txMap.length
  let (syms, rest) := fillRow n l.txBits ((l.txRow.getD []).map (·.1))
  let lanes := (List.range n).map fun i => scrMsg false (l.txCtl.getD i 0 :: syms.getD i []) (l.scr.getD i 0)
  let cws := lanes.map fun x => rsEncode x.2
  let main := (List.range n).map fun i => (l.txMap.getD i 0, cws.getD i [])
  let copy := match l.txCopy, l.txCmd with
    | some w, some x => [(w, cws.getD x.lane [])]
    | _, _ => []
  let all := main ++ copy ++ (if l.txSt = 0 ∧ l.txCopy ≠ some 8 then [(8, cws.foldl (fun a w => List.zipWith Nat.xor a w) (List.replicate 272 0))] else [])
  let (vac, d) := d.trainingRow c l.rowTx true ((maskList l.txVac).filter fun j => all.all fun x => x.1 ≠ j)
  let on := (all.filter fun x => d.ring p x.1 false = 2 && !d.laneCut p x.1 false) ++ vac
  (d.setLk c { l with scr := lanes.map (·.1), txCtl := l.txCtl.drop n, txBits := rest, txRow := none, rowTx := (l.rowTx + 1) % 2 ^ 24 }).emit
    (.row c d.lc l.rowTx on)

/-- The next control slot carries an LCS of a TYPE with a message byte (R151, R152, R376); when it fills the control symbols of its row, the row goes out. -/
def ctlSlot (d : Dev) (c typ body : Nat) : Dev :=
  let l := d.lk c
  let xoff := if d.linkState c = 5 then d.fld (R.SC_XOFF c) F.SC_XOFF_XOFF_SENT else 0
  let w := lcsWord typ xoff (firstOf (l.txRow.getD [])) body
  let d := d.setLk c { l with txCtl := l.txCtl ++ [bits w 39 30, bits w 29 20, bits w 19 10, bits w 9 0] }
  let d := d.emit (.lcs c d.lc w)
  if (d.lk c).txMap.length ≤ (d.lk c).txCtl.length then d.sendRow c else d

/-! Lane commands at their effect rows (R382, R420). -/

/-- A map without one logical lane, the rest renumbered in their order (R425). -/
def narrowed {α : Type} (m : List α) (lane : Nat) : List α := m.eraseIdx lane

/-- Whether the effect row of a pending command of a direction has come (R382); it begins after the row in the making. -/
def laneDue (d : Dev) (c : Nat) (tx : Bool) (x : LaneCmd) : Bool :=
  let l := d.lk c
  match x.row with
  | none => false
  | some r => d.linkState c = 5 && !x.applied && !(tx && l.txRow.isSome) && decide (rowDist r (if tx then l.rowTx else l.rowRx) < 2 ^ 23)

/-- The lane map of the transmit direction from the effect row on (R423 to R425). -/
def txChange (d : Dev) (c : Nat) (x : LaneCmd) : Dev :=
  let l := d.lk c
  let x' := { x with applied := true }
  let old := l.txMap.getD x.lane 0
  let d := if x.code = 1 then
      d.setLk c { l with txMap := l.txMap.set x.lane x.wl, txSt := 1, txMoved := some (x.lane, old), txCopy := some old, txCmd := some x' }
    else if x.code = 3 then
      d.setLk c { l with txMap := l.txMap.set x.lane x.wl, txCopy := some old, txCmd := some x', lostTx := maskClr l.lostTx x.wl }
    else (d.setLk c { l with txMap := narrowed l.txMap x.lane, scr := narrowed l.scr x.lane, txSt := 2, txVac := maskSet l.txVac old,
                             txMoved := none, txCmd := some x' }).setFld (R.OH_PORT (c / 2)) F.OH_PORT_DEGRADED 1
  d.syncLanes c

/-! Link down (R375, R387, R388). -/

/-- Copies towards a port code: those in transmission are lost, the others discarded as lost with the port and counted where they waited. -/
def flushPort (d : Dev) (c : Nat) : Dev :=
  let d := (d.core.pkts.map (·.id)).foldl (fun d id =>
    match d.pkt? id with
    | none => d
    | some k =>
      match copyTo k c with
      | none => d
      | some x =>
        if x.stage = .sending then d.dropCopy k c
        else ((d.inc (R.FW_PORT_DOWN (if x.stage = .egress then plOf c else k.unit % 16))).captureAt (copyUnit k x) k c 0x09).dropCopy k c) d
  d.setTx c { d.txOf c with busy := none }

/-- The packet that a port was receiving ends here: completed where its transmission has begun (R375), lost otherwise, which is a discard (R614). -/
def cutSource (d : Dev) (c : Nat) : Dev :=
  let got := if (d.lk c).rxBody.isSome then (d.lk c).rxq.map (·.getD 0) else []
  let d := (d.core.pkts.filter fun k => k.port = c && !k.ended && !k.orig).foldl (fun d k =>
    match d.pkt? k.id with
    | none => d
    | some k =>
      if (k.copies.any fun x => x.stage = .sending) = true then d.truncate k got
      else (d.captureFree (heldAt k).1 k (heldAt k).2).takePkt k.id) d
  d.setRx c none

/-- The rings of a port code that is not in use any more. -/
def ringsOff (d : Dev) (c : Nat) : Dev :=
  (d.waves c).foldl (fun d j => (d.setRing (c / 2) j false 0).setRing (c / 2) j true 0) d

/-- Put the visit in progress. -/
def setCal (d : Dev) (v : Option Cal) : Dev := { d with optic := { d.optic with cal := v } }

/-- A ring after its calibration is LOCKED again. -/
def calRing (d : Dev) (p j : Nat) (rx : Bool) : Dev := if d.ring p j rx = 5 then (d.setRing p j rx 2).readFrom p j rx else d

/-- A calibration visit of the port ends with the link: abandoned, and its rings are LOCKED as before it. -/
def dropCal (d : Dev) (p : Nat) : Dev :=
  match d.optic.cal with
  | some v => if v.p = p then
      (((d.calRing p v.j false).calRing p v.j true).setFld (R.OH_PORT p) F.OH_PORT_CAL_ACTIVE 0 |>.setCal none).maintEnd v.handle 3 0 else d
  | none => d

/-- The lane actions whose handshakes the link's end cuts short: failed. -/
def dropActs (d : Dev) (c : Nat) : Dev :=
  let l := d.lk c
  ([l.reqAct] ++ (l.txCmd.map (·.act)).toList ++ (l.rxCmd.map (·.act)).toList).foldl (fun d h => d.maintEnd h 1 0) d

/-- The row in which the next slot of a DOWN message begins: the one in the making, or the next one, with the lane map of its number and the data stream as far
as it has arrived, headers and all; payload bytes that have not are free (DESIGN CHOICE, log entry 21). -/
def downRow (d : Dev) (c : Nat) : Dev :=
  if (d.lk c).txRow.isSome then d
  else
    let d := match (d.lk c).txCmd with | some x => if d.laneDue c true x then d.txChange c x else d | none => d
    match d.rowTake c [] with
    | some d => d
    | none => match d.shortStream c (d.rowSize c) with | (row, d) => d.rowPut c row

/-- One slot of a DOWN message. -/
def downSlot (d : Dev) (c typ body : Nat) : Dev := (d.downRow c).ctlSlot c typ body

/-- IDLE slots until the row that holds the message's last symbols has gone out. -/
def downFill : Nat → Dev → Nat → Nat → Dev
  | 0, d, _, _ => d
  | n + 1, d, c, row => if (d.lk c).rowTx ≠ row ∨ (d.lk c).txCtl = [] then d else downFill n (d.downSlot c 0 0) c row

/-- A DOWN message is sent before the link goes down, as eight LCSs in consecutive slots (R380, R388), in place of a message that is only sent in part. -/
def sendDown (d : Dev) (c cause : Nat) : Dev :=
  let d := (d.emit (.ctl c d.lc 7 (cause * 2 ^ 52))).updLk c fun l => { l with out := [], outN := 0 }
  let d := (List.range 8).foldl (fun (d : Dev) i => d.downSlot c (i + 1) (byteAt (beBytes (7 * 2 ^ 56 + cause * 2 ^ 52) 8) i)) d
  downFill 2 d c (d.lk c).rowTx

/-- A link goes down. -/
def linkDown (d : Dev) (c cause : Nat) : Dev :=
  let s := d.linkState c
  if s = 0 ∨ 6 ≤ s then d
  else
    let p := c / 2
    let d := if rowsOn s ∧ cause ≠ 3 ∧ cause ≠ 7 then d.sendDown c cause else d
    let d := (((d.flushPort c).cutSource c).dropCal p).dropActs c
    let d := (d.inc (R.YZ_LINK_DOWN p)).setStat c F.YZ_STAT_DOWN_CAUSE cause
    let next := if ¬ d.on (R.YZ_CTRL p) F.YZ_CTRL_EN then 0 else if cause = 8 then 1
      else if d.on (R.YZ_CTRL p) F.YZ_CTRL_AUTO_RETRAIN then 6 else 0
    let d := if next = 0 then d.ringsOff c else d
    let d := ((d.setLk c { since := d.lc }).setState c next).setFld (R.SC_XOFF c) F.SC_XOFF_XOFF_RCVD 0
    let d := d.setFld (R.OH_PORT p) F.OH_PORT_CMD_PENDING 0
    let d := if cause = 1 ∨ cause = 2 ∨ cause = 6 ∨ cause = 7 then d.error 0x01 c 0x10 2 [cause] else d
    d.event 1 0x8002 (beBytes c 2 ++ [BitVec.ofNat 8 next, BitVec.ofNat 8 cause])

/-- EN of YZ_CTRL written to zero: every logical port goes down with cause 0x4, and every ring of a port that is no circuit's is OFF, whatever SPLIT says now. -/
def portOff (d : Dev) (p : Nat) : Dev :=
  let d := d.setFld (R.YZ_CTRL p) F.YZ_CTRL_EN 0
  let d := [2 * p, 2 * p + 1].foldl (fun d c => if d.linkState c = 6 then d.setState c 0 else d.linkDown c 4) d
  if d.linkState (2 * p) = 7 then d else (List.range 9).foldl (fun d j => (d.setRing p j false 0).setRing p j true 0) d

/-- An enabled port whose links are disabled trains, but not while it stands quiesced after a circuit (R396), nor outside RUN: in Umber and on the way to it the
blocks are off, and the wake ends before any port trains (R557, R560, R564). -/
def startPort (d : Dev) (p : Nat) : Dev :=
  if d.on (R.YZ_CTRL p) F.YZ_CTRL_EN ∧ d.running ∧ ¬ d.link.ind.contains p ∧ d.linkState (2 * p) = 0 ∧ d.linkState (2 * p + 1) = 0 then d.trainPort p else d

/-- EN of YZ_CTRL goes from zero to one. -/
def portOn (d : Dev) (p : Nat) : Dev := (d.setFld (R.YZ_CTRL p) F.YZ_CTRL_EN 1).startPort p

/-! Training (R389 to R393). -/

/-- Both ends have seen READY: normal rows start, after the training row in progress, with the lane maps of R385, or training fails for lanes. The scramblers
go on from the training codewords. -/
def startRows (d : Dev) (c : Nat) : Dev :=
  let p := c / 2
  let split := d.isSplit p
  let l := d.lk c
  let nok := d.on (R.YZ_CTRL p) F.YZ_CTRL_NARROW_OK
  match laneMap split (c % 2) (maskList l.farOk) nok, laneMap split (c % 2) (maskList (d.stat c F.YZ_STAT_LANES_OK)) true with
  | some (tm, ts), some (rm, rs) =>
    let d := d.setLk c { l with since := d.lc, txMap := tm, txSt := ts, rxMap := rm, rxSt := rs, msgs := [.train, .echoReq],
                                rowTx := (d.rowAt c + 1) % 2 ^ 24, descr := rm.map fun j => Sparse.find d.link.train (9 * c + j),
                                lostTx := d.cutMask p false, lostRx := d.cutMask p true,
                                scr := tm.map fun j => Sparse.get 0 d.link.trainTx (9 * c + j) }
    (d.setState c 3).syncLanes c
  | _, _ => d.linkDown c 5

/-- A codeword with its lane counters (R402, R412): the corrected codeword, none when uncorrectable. -/
def decodeLane (d : Dev) (p j : Nat) (cw : List Nat) : Option (List Nat) × Dev :=
  let key := 9 * p + j
  let errs (d : Dev) (n : Nat) : Dev := { d.incBy (R.OH_SYMERR p j) n with
    optic := { d.optic with cws := Sparse.put 0 d.optic.cws key (Sparse.get 0 d.optic.cws key + 1),
                            errs := Sparse.put 0 d.optic.errs key (Sparse.get 0 d.optic.errs key + n) } }
  match rsDecode cw with
  | some (w, n) => (some w, errs (d.incBy (R.YZ_SYM_CORR p) n) n)
  | none => (none, errs (d.inc (R.YZ_CW_UNCORR p)) 9)

/-- What a training codeword says once normal rows are sent: the row count goes on, and so does the descrambler of the logical lane it stands for. -/
def trainingLate (d : Dev) (c j : Nat) (msg : List Nat) (v : Nat) : Dev :=
  d.updLk c fun l => { l with rowRx := (bits v 35 12 + 1) % 2 ^ 24,
                              descr := (List.range l.rxMap.length).map fun i => if l.rxMap.getD i 9 = j then some (scrState msg) else l.descr.getD i none }

/-- A training codeword of a lane is uncorrectable or decodes: the run of uncorrectable ones goes on or ends (R386). One that decodes ends the loss of its lane,
which is usable again where it is locked and lit. -/
def trainingRun (d : Dev) (c j : Nat) (good : Bool) : Dev :=
  let d := d.updLk c fun l => { l with bad := l.bad.set j (if good then 0 else l.bad.getD j 0 + 1) }
  if good && bit (d.rxUsable c) j then
    (d.updLk c fun l => { l with lostRx := maskClr l.lostRx j }).setStat c F.YZ_STAT_LANES_OK (maskSet (d.stat c F.YZ_STAT_LANES_OK) j)
  else d

/-- A training codeword arrives on a wavelength (R390), while this end aligns or, after it has begun normal rows, while the far end has not. The first one
on a lane only synchronises its descrambler. -/
def trainingCodeword (d : Dev) (c j : Nat) (cw : List Nat) : Dev :=
  if (d.linkState c ≠ 2 ∧ d.linkState c ≠ 3) ∨ ¬ (d.waves c).contains j ∨ d.ring (c / 2) j true ≠ 2 ∨ d.laneCut (c / 2) j true then d
  else
    match d.decodeLane (c / 2) j cw with
    | (none, d) => d.trainingRun c j false
    | (some w, d) =>
      let d := d.trainingRun c j true
      let msg := w.take 256
      let key := 9 * c + j
      let prev := Sparse.find d.link.train key
      let d := { d with link := { d.link with train := Sparse.ins d.link.train key (scrState msg) } }
      match prev with
      | none => d
      | some s =>
        let v := ((scrMsg true (msg.take 4) s).2).foldl (fun a x => a * 1024 + x) 0
        if bits v 39 36 ≠ j then d
        else if d.linkState c = 3 then d.trainingLate c j msg v
        else
          let l := d.lk c
          let al := if bit l.aligned j then l.aligned else l.aligned + 2 ^ j
          let d := d.setLk c { l with aligned := al, rowRx := (bits v 35 12 + 1) % 2 ^ 24, farReady := l.farReady || bit v 11, farOk := bits v 8 0 }
          if (d.lk c).farReady ∧ (d.lk c).readySent ∧ d.trainReady c then d.startRows c else d

/-- The link enters UP: every VC in XON (R152, R389), at the lower feature level (R392). -/
def enterUp (d : Dev) (c lvl : Nat) : Dev :=
  let d := (d.setStat c F.YZ_STAT_FEAT (min lvl (d.fld (R.YZ_CTRL (c / 2)) F.YZ_CTRL_FEAT_MAX))).setState c 5
  let d := d.updLk c fun l => { l with since := d.lc, lastGood := d.lc, starved := false, skip := false }
  let d := d.setFld (R.SC_XOFF c) F.SC_XOFF_XOFF_RCVD 0
  d.event 1 0x8002 (beBytes c 2 ++ [5, BitVec.ofNat 8 (d.stat c F.YZ_STAT_DOWN_CAUSE)])

/-- IDENT is over: FEATURE. -/
def identDone (d : Dev) (c : Nat) : Dev :=
  let l := d.lk c
  if d.linkState c = 3 ∧ l.trained ∧ l.echoed then (d.setState c 4).setLk c { l with since := d.lc, msgs := l.msgs ++ [.feature] } else d

/-- FEATURE is over once FEATURE messages have gone both ways (R389): UP. -/
def featureDone (d : Dev) (c : Nat) : Dev :=
  match (d.lk c).farFeat with
  | some f => if d.linkState c = 4 ∧ (d.lk c).featSent then d.enterUp c f else d
  | none => d

/-- A TRAIN message (R381, R391): the neighbour is recorded, the receiver's count of rows follows the number the message carries, `row`, for the row that
it counted as `first`, and a different SPLIT fails the training. -/
def trainMsg (d : Dev) (c chip port : Nat) (split : Bool) (row first : Nat) : Dev :=
  let p := c / 2
  if ¬ rowsOn (d.linkState c) then d
  else
    let w := 2 ^ 31 + port % 1024 * 2 ^ 18 + chip % 2 ^ 18
    let d := d.setNum (if c % 2 = 0 then R.YZ_NEIGH p else R.YZ_NEIGH1 p) w
    let on (n : Nat) := (n + rowDist first row) % 2 ^ 24
    let d := d.updLk c fun l => { l with rowRx := on l.rowRx, skipRow := on l.skipRow, rxMark := l.rxMark.map fun x => (on x.1, x.2) }
    if split ≠ d.isSplit p ∧ d.linkState c ≠ 5 then d.linkDown c 6
    else (d.updLk c fun l => { l with trained := true }).identDone c

/-- An ECHO_REQ message is answered. -/
def echoReq (d : Dev) (c row : Nat) : Dev :=
  if rowsOn (d.linkState c) then d.updLk c fun l => { l with msgs := l.msgs ++ [.echoResp row d.lc] } else d

/-- CABLE_M or CABLE_M1 of a port code. -/
def cableM (d : Dev) (c : Nat) : Nat :=
  d.fld (R.SC_PORT_FC (c / 2)) (if c % 2 = 0 then F.SC_PORT_FC_CABLE_M else F.SC_PORT_FC_CABLE_M1)

/-- An ECHO_RESP message measures the loop (R393). What the fixed stages of both ends take out of it is not in the spec (log entry 20). -/
def echoResp (d : Dev) (c row turn : Nat) : Dev :=
  let l := d.lk c
  match l.echo with
  | some (r, t) =>
    if ¬ rowsOn (d.linkState c) ∨ r ≠ row then d
    else
      let loop := min (countsNs (d.lc - t) - turn - Config.fixedStagesNs) 65535
      let len := ceilDiv (loop * 5) 49
      let d := d.setNum (if c % 2 = 0 then R.YZ_RTT (c / 2) else R.YZ_RTT1 (c / 2)) (len * 65536 + loop)
      let warn := d.cableM c < len
      let d := d.setStat c F.YZ_STAT_LEN_WARN (b2n warn)
      let d := if warn then d.event 1 0x8003 (beBytes c 2 ++ beBytes len 2 ++ beBytes (d.cableM c) 2 ++ [0, 0]) else d
      (d.setLk c { l with echo := none, echoed := true }).identDone c
  | none => d

/-- A FEATURE message (R389, R392), which may come while this end is still in IDENT. -/
def featureMsg (d : Dev) (c lvl : Nat) : Dev :=
  if d.linkState c = 3 ∨ d.linkState c = 4 then (d.updLk c fun l => { l with farFeat := some lvl }).featureDone c else d

/-- A bound of training has passed (R389): 500 µs in ALIGN, 100 µs in IDENT and FEATURE, 10 ms since ALIGN. -/
def trainingTimeout (d : Dev) (c : Nat) : Dev :=
  let s := d.linkState c
  let l := d.lk c
  if 2 ≤ s ∧ s ≤ 4 ∧ (l.since + usCounts (if s = 2 then 500 else 100) ≤ d.lc ∨ l.alignT + usCounts 10000 ≤ d.lc) then d.restartAlign c else d

/-- The holdoff of 1 ms is over (R388): the logical port trains again; a full port for which SPLIT selects split mode now trains as both its logical ports. -/
def holdoffExpire (d : Dev) (c : Nat) : Dev :=
  if d.linkState c = 6 ∧ (d.lk c).since + usCounts 1000 ≤ d.lc then
    (if Sparse.get false d.link.mode (c / 2) then d.enterLight c else d.trainPort (c / 2))
  else d

/-- The port leaves LIGHT once light is present (R410) and its laser module is READY (R436). -/
def lightExit (d : Dev) (c : Nat) : Dev :=
  let p := c / 2
  let settled (s : Nat) : Bool := s = 2 || s = 4
  match (d.lk c).lightT with
  | some t =>
    if d.linkState c = 1 ∧ (d.waves c).any (d.lit p) ∧ d.on (R.OH_SLOT_STAT (p / 32)) F.OH_SLOT_STAT_READY ∧
        (((d.waves c).all fun j => settled (d.ring p j false) && (!d.lit p j || settled (d.ring p j true))) = true ∨ t + usCounts 20000 ≤ d.lc) then
      (d.updLk c fun l => { l with dark := ((d.waves c).filter fun j => !d.lit p j).foldl maskSet 0 }).enterAlign c
    else d
  | none => d

/-! Sending (R376, R380, R381). -/

/-- Stamp of a fabric time in 2^-4 ns, modulo 2^22 (R447). -/
def stamp (t : Nat) : Nat := t / 4096 % 2 ^ 22

/-- The body of a TIME message that begins in the row in the making (R447). -/
def timeBody (d : Dev) (c : Nat) : Nat × Dev :=
  let t := Sparse.get {} d.time.links c
  let tx := stamp (d.fabPast (d.lk c).txRowLc)
  let b := tx * 2 ^ 34 + t.seqTx % 16 * 16 + (match t.rx with | some (s, r) => r * 2 ^ 12 + 2 ^ 11 + s | none => 0)
  let t' := { t with seqTx := (t.seqTx + 1) % 16, sent := (t.sent.drop (t.sent.length - 3)) ++ [(t.seqTx, tx)] }
  (b, { d with time := { d.time with links := Sparse.ins d.time.links c t' } })

/-- The type and body of a waiting message, with the row in which it begins filled in. -/
def buildMsg (d : Dev) (c : Nat) (m : CtlMsg) : (Nat × Nat) × Dev :=
  let l := d.lk c
  let eff := (l.rowTx + d.fld R.OH_SPARE F.OH_SPARE_EFF_ROWS) % 2 ^ 24
  let laneBody (code lane wl row : Nat) := code * 2 ^ 52 + lane * 2 ^ 48 + wl * 2 ^ 44 + row
  match m with
  | .train => ((1, d.chipId (plOf c) * 2 ^ 38 + c * 2 ^ 28 + b2n (d.isSplit (c / 2)) * 2 ^ 27 + l.rowTx), d)
  | .echoReq => ((2, l.rowTx), d.setLk c { l with echo := some (l.rowTx, d.lc) })
  | .echoResp row t => ((3, row % 2 ^ 24 * 2 ^ 32 + min (countsNs (d.lc - t)) 65535 * 2 ^ 16), d)
  | .feature => ((4, d.fld (R.YZ_CTRL (c / 2)) F.YZ_CTRL_FEAT_MAX * 2 ^ 48), d)
  | .lane code lane wl row => ((6, laneBody code lane wl (row.getD eff)), d)
  | .cmd =>
    match l.txCmd with
    | none => ((0, 0), d)
    | some x =>
      ((6, laneBody x.code x.lane x.wl eff),
        d.setLk c { l with txCmd := some { x with row := some eff, sent := d.lc }, txCopy := if x.code = 3 then some x.wl else l.txCopy })

/-- Begin the next message when none is being sent; a TIME message comes first. -/
def nextMsg (d : Dev) (c : Nat) : Dev :=
  let l := d.lk c
  let put (d : Dev) (typ body : Nat) := d.updLk c fun l => { l with out := (beBytes (typ * 2 ^ 56 + body) 8).map BitVec.toNat, outN := 1, outTyp := typ }
  if l.out ≠ [] then d
  else if l.timeDue then
    match (d.setLk c { l with timeDue := false }).timeBody c with | (b, d) => put d 5 b
  else
    match l.msgs with
    | [] => d
    | m :: r => match (d.setLk c { l with msgs := r }).buildMsg c m with | ((t, b), d) => if t = 0 then d else put d t b

/-- No good LCS for 1 µs (R378). -/
def lcsStarve (d : Dev) (c : Nat) : Dev :=
  if d.linkState c = 5 ∧ (d.lk c).lastGood + usCounts 1 ≤ d.lc then d.updLk c fun l => { l with starved := true } else d

/-- No good LCS for 10 µs (R378). -/
def lcsDown (d : Dev) (c : Nat) : Dev :=
  if d.linkState c = 5 ∧ (d.lk c).lastGood + usCounts 10 ≤ d.lc then d.linkDown c 2 else d

end Dev
end Sys2Proof.Machine
end

