-- ==== Sys2Proof/Machine/Lanes.lean ====
section
/-! DEFINITION. Lane moves, restores and narrowing: the handshake of LANE messages, lost lanes, calibration visits (spec/11_optical_links.md R382, R386,
R398; spec/12_optical_health.md R415 to R433). -/
namespace Sys2Proof.Machine

namespace Dev

/-- Whether a port belongs to an enabled Indigo circuit (R396). -/
def indigo (d : Dev) (p : Nat) : Bool := d.linkState (2 * p) = 7

/-- Whether a port takes LANE messages: UP in full mode at feature level 2 (R392, R384, R400). -/
def laneOk (d : Dev) (c : Nat) : Bool := d.linkState c = 5 && !d.isSplit (c / 2) && 2 ≤ d.stat c F.YZ_STAT_FEAT

/-- Whether a command or a request of this end may start: a command while none is pending in its direction (R421); a request at any time, since no rule
has it wait for the answer of an earlier one (R415). -/
def laneFree (d : Dev) (c : Nat) (tx : Bool) : Bool := !tx || (d.lk c).txCmd.isNone

/-- The logical lane that a wavelength carries in a direction. -/
def laneOn (d : Dev) (c : Nat) (tx : Bool) (j : Nat) : Option Nat :=
  findIdxOpt (fun w => w = j) (if tx then (d.lk c).txMap else (d.lk c).rxMap) 0

/-- The state of a direction (R429). -/
def laneSt (d : Dev) (c : Nat) (tx : Bool) : Nat := if tx then (d.lk c).txSt else (d.lk c).rxSt

/-- Whether the direction allows an action on a logical lane: MOVE from PARITY, RESTORE of the lane that moved from SPARED, NARROW from SPARED. -/
def laneMay (d : Dev) (c : Nat) (tx : Bool) (code lane : Nat) : Bool :=
  let m := if tx then (d.lk c).txMap else (d.lk c).rxMap
  let moved := if tx then (d.lk c).txMoved else (d.lk c).rxMoved
  if code = 1 then d.laneSt c tx = 0 && lane < m.length
  else if code = 3 then d.laneSt c tx = 1 && (match moved with | some (i, _) => i = lane | none => false)
  else d.laneSt c tx = 1 && lane < m.length

/-- The wavelength that an action of this end names. -/
def laneWl (d : Dev) (c : Nat) (tx : Bool) (code lane : Nat) : Nat :=
  let moved := if tx then (d.lk c).txMoved else (d.lk c).rxMoved
  if code = 1 then 8 else if code = 3 then (match moved with | some (_, w) => w | none => 8)
  else (if tx then (d.lk c).txMap else (d.lk c).rxMap).getD lane 0

/-- Whether a calibration visit of the port keeps other lane actions waiting: T2 and loss actions by R432, and every one for wear by R546, under which a visit and a
lane sparing never run together on one port. -/
def calHolds (d : Dev) (c : Nat) : Bool := match d.optic.cal with | some v => v.p = c / 2 | none => false

/-- Begin a command (R420) or send a request (R419). An earlier request that is still unanswered is given up then, its activity failed (log entry 88). -/
def laneStart (d : Dev) (c : Nat) (tx : Bool) (code lane wl : Nat) (cal : Bool) (act : Nat) : Dev :=
  let d := if tx then
      d.updLk c fun l => { l with txCmd := some { code := code, lane := lane, wl := wl, cal := cal, act := act }, msgs := l.msgs ++ [.cmd] }
    else (d.maintEnd (d.lk c).reqAct 1 0).updLk c fun l => { l with req := some (code, lane), reqT := d.lc, reqAct := act, msgs := l.msgs ++ [.lane code (8 + lane) wl none] }
  d.syncLanes c

/-- Begin a lane action: it is counted, and it is a maintenance activity whose handle goes into the record that called for it (R506, R515, R544). -/
def laneBegin (d : Dev) (c : Nat) (a : LaneAct) : Dev :=
  let (d, h) := d.maintBegin 0x8002 true [member 1 (c / 2)] 0
  let d := if a.cnt = 0 then d else d.inc a.cnt
  (d.setAction a.ref h).laneStart c a.tx a.code a.lane (d.laneWl c a.tx a.code a.lane) false h

/-- A lane action waits behind the others. -/
def laneQueue (d : Dev) (c : Nat) (a : LaneAct) : Dev :=
  if (d.lk c).acts.any fun x => x.tx = a.tx && x.code = a.code && x.lane = a.lane then d
  else d.updLk c fun l => { l with acts := l.acts ++ [a] }

/-- Whether the command pending is this action already. A request for a loss is sent again: the one before it or its answer may have been discarded. -/
def laneAsked (d : Dev) (c : Nat) (a : LaneAct) : Bool :=
  if a.tx then (d.lk c).txCmd.any fun x => x.code = a.code && x.lane = a.lane else !a.loss && decide ((d.lk c).req = some (a.code, a.lane))

/-- Take a lane action (R415): it starts at once where no command of its direction is pending and no visit of the port runs (R432, R546), and waits otherwise. An
action for wear waits for the port too (R546). -/
def laneAct (d : Dev) (c : Nat) (a : LaneAct) : Dev :=
  if ¬ d.laneOk c ∨ d.laneAsked c a then d
  else if d.calHolds c then d.laneQueue c a
  else if ¬ d.laneMay c a.tx a.code a.lane then d
  else if ¬ d.laneFree c a.tx then d.laneQueue c a
  else if ¬ a.loss ∧ d.conflicts [member 1 (c / 2)] then (d.laneQueue c a).waitWear (.lanes c)
  else d.laneBegin c a

/-- Try the lane actions that wait. A narrowing for T3 is a move where the transmit direction has returned to PARITY, as the
table of R415 has it for a port that is PARITY still. -/
def laneWaiting (d : Dev) (c : Nat) : Dev :=
  let l := d.lk c
  l.acts.foldl (fun (d : Dev) (a : LaneAct) =>
    d.laneAct c (if a.tx ∧ a.code = 5 ∧ d.laneSt c true = 0 then { a with code := 1, cnt := R.OH_T2_MOVE } else a)) (d.setLk c { l with acts := [] })

/-! Calibration visits (R430 to R433). -/

/-- A LOCKED ring is calibrated; a ring that is OOS is retried instead (R408). -/
def calInto (d : Dev) (p j : Nat) (rx : Bool) : Dev := if d.ring p j rx = 2 then d.setRing p j rx 5 else d

/-- A request of the visit that the far end has not answered within the 100 µs of R432 is not waited for any longer (DESIGN CHOICE, log entry 86). -/
def calReqOver (d : Dev) (c : Nat) : Dev :=
  match d.optic.cal with
  | some v =>
    if v.p = c / 2 ∧ v.asked ∧ (d.lk c).req.isSome ∧ (d.lk c).reqT + usCounts 100 < d.lc then
      ((d.setCal (some { v with asked := false })).updLk c fun l => { l with req := none, reqAct := 0 }).syncLanes c
    else d
  | none => d

/-- A visit is over once its handshakes are: OH_CAL_DONE counts it and other actions go on. -/
def calCheck (d : Dev) (c : Nat) : Dev :=
  let d := d.calReqOver c
  match d.optic.cal with
  | some v =>
    if v.p = c / 2 ∧ v.restoring ∧ (d.lk c).txCmd.isNone ∧ ¬ (v.asked ∧ (d.lk c).req.isSome) ∧ (d.lk c).rxCmd.isNone then
      (((((d.setCal none).setFld (R.OH_PORT v.p) F.OH_PORT_CAL_ACTIVE 0).setFld (R.OH_PORT v.p) F.OH_PORT_CAL_LANE 0).inc R.OH_CAL_DONE).maintEnd v.handle 0 0).laneWaiting c
    else d
  | none => d

/-- The dwell begins once this end's MOVE is acknowledged (R432). -/
def calDwell (d : Dev) (c : Nat) : Dev :=
  match d.optic.cal with
  | some v => if v.p = c / 2 ∧ v.dwell.isNone then (d.setCal (some { v with dwell := some d.lc })).calInto v.p v.j false else d
  | none => d

/-- The visit restores one direction (step 3 of R432), unless its margin fell below T2 or its ring is out of service. -/
def calBack (d : Dev) (c : Nat) (v : Cal) (tx : Bool) : Dev :=
  match (if tx then (d.lk c).txMoved else (d.lk c).rxMoved) with
  | some (i, w) =>
    if w = v.j ∧ d.laneMay c tx 3 i ∧ d.laneFree c tx ∧ d.laneOk c ∧ ¬ (if tx then v.lowTx else v.lowRx) ∧ d.ring v.p v.j (!tx) ≠ 4 then
      let d := d.laneStart c tx 3 i w true 0
      if tx then d else d.setCal (some { v with asked := true })
    else d
  | none => d

/-- Step 3 of R432: both directions are restored, each by itself. -/
def calRestore (d : Dev) (c : Nat) : Dev :=
  match d.optic.cal with
  | none => d
  | some v =>
    let d := (d.calRing v.p v.j false).calRing v.p v.j true
    let d := if v.rx ∨ v.j = 8 then d else d.inc R.OH_CAL_PART
    let v := { v with restoring := true }
    let d := (d.setCal (some v)).calReqOver c
    let d := if v.j ≠ 8 then (d.calBack c v true).calBack c v false else d
    d.calCheck c

/-- A visit of a data lane that could not move its lane ends without a dwell; the receive direction is restored if the far lane has moved. -/
def calFailed (d : Dev) (c : Nat) : Dev :=
  match d.optic.cal with
  | some v =>
    if v.p = c / 2 ∧ v.dwell.isNone then
      let v := { v with restoring := true }
      (((d.setCal (some v)).calRing v.p v.j true).calBack c v false).calCheck c
    else d
  | none => d

/-! Effect rows and answers. -/

/-- The transmitting end's command is complete. -/
def txDone (d : Dev) (c : Nat) (x : LaneCmd) : Dev :=
  let l := d.lk c
  let d := if x.code = 1 then
      d.setLk c { l with txCmd := none, txCopy := none, txVac := match l.txMoved with | some (_, w) => maskSet l.txVac w | none => l.txVac }
    else if x.code = 3 then d.setLk c { l with txCmd := none, txCopy := none, txSt := 0, txMoved := none, txVac := maskClr l.txVac x.wl }
    else d.setLk c { l with txCmd := none }
  let d := d.syncLanes c
  let d := if x.cal ∧ x.code = 1 then d.calDwell c else d
  ((d.maintEnd x.act 0 0).calCheck c).laneWaiting c

/-- The effect row of the transmit direction (R420, R423 to R425). A MOVE after which a carrying lane is lost, which nothing covers any more, takes the link
down (R383). -/
def txEffect (d : Dev) (c : Nat) (x : LaneCmd) : Dev :=
  let d := d.txChange c x
  if x.code = 1 ∧ (d.lk c).txMap.any (bit (d.lk c).lostTx) then d.linkDown c 1
  else if x.acked then d.txDone c { x with applied := true } else d

/-- Answer a command or a request: twice, in consecutive slots (R419). -/
def laneAnswer (d : Dev) (c code lane wl row : Nat) : Dev :=
  d.updLk c fun l => { l with msgs := l.msgs ++ [.lane code lane wl (some row), .lane code lane wl (some row)] }

/-- The effect row of the receive direction. A RESTORE is answered here, by the state of the copy over the last eight rows (R421). A far lane that moves for
a visit after the dwell is over is restored at once (R432). -/
def rxEffect (d : Dev) (c : Nat) (x : LaneCmd) : Dev :=
  let l := d.lk c
  let old := l.rxMap.getD x.lane 0
  if x.code = 3 ∧ l.good.getD x.wl 0 < 8 then
    (((d.setLk c { l with rxCmd := none }).syncLanes c).laneAnswer c 7 x.lane x.wl (x.row.getD 0)).maintEnd x.act 1 0 |>.calCheck c
  else
    let d := if x.code = 1 then
        d.setLk c { l with rxMap := l.rxMap.set x.lane x.wl, rxSt := max l.rxSt 1, rxMoved := some (x.lane, old), rxCmd := none }
      else if x.code = 3 then
        d.setLk c { l with rxMap := l.rxMap.set x.lane x.wl, rxSt := 0, rxMoved := none, rxCmd := none, trust := 0, lostRx := maskClr l.lostRx x.wl }
      else (d.setLk c { l with rxMap := narrowed l.rxMap x.lane, descr := narrowed l.descr x.lane, rxSt := 2, rxMoved := none,
                               rxCmd := none }).setFld (R.OH_PORT (c / 2)) F.OH_PORT_DEGRADED 1
    let d := if x.code = 3 then d.laneAnswer c 4 x.lane x.wl (x.row.getD 0) else d
    let d := match d.optic.cal with
      | some v =>
        if v.p = c / 2 ∧ x.code = 1 ∧ old = v.j then
          if v.restoring then d.calBack c v false
          else if d.lc ≤ l.reqT + usCounts 100 then (d.setCal (some { v with rx := true })).calInto v.p v.j true else d
        else d
      | none => d
    let d := (d.syncLanes c).maintEnd x.act 0 0
    if x.code = 1 ∧ (d.lk c).rxMap.any (bit (d.lk c).lostRx) then d.linkDown c 1 else (d.calCheck c).laneWaiting c

/-- A REFUSE of this end's MOVE or RESTORE takes effect (R423, R424): λk returns to parity, or the lane to λ8 alone. -/
def laneRefused (d : Dev) (c : Nat) (x : LaneCmd) : Dev :=
  let l := d.lk c
  let d := if x.code = 1 then
      (if x.applied then
        match l.txMoved with
        | some (i, w) => d.setLk c { l with txMap := l.txMap.set i w, txSt := 0, txMoved := none, txCopy := none, txCmd := none }
        | none => d.setLk c { l with txCmd := none }
       else d.setLk c { l with txCmd := none })
    else if x.applied then d.setLk c { l with txMap := l.txMap.set x.lane 8, txCopy := none, txCmd := none }
    else d.setLk c { l with txCopy := none, txCmd := none }
  let d := (d.syncLanes c).maintEnd x.act 1 0
  let d := if x.cal ∧ x.code = 1 then d.calFailed c else d
  (d.calCheck c).laneWaiting c

/-- A row of a direction begins: the effect row of its pending command has come (R382), or a REFUSE takes effect. -/
def laneEffect (d : Dev) (c : Nat) (tx : Bool) : Dev :=
  let l := d.lk c
  match (if tx then l.txCmd else l.rxCmd) with
  | none => d
  | some x =>
    if tx ∧ x.refused ∧ d.linkState c = 5 then (if l.txRow.isSome then d else d.laneRefused c x)
    else if ¬ d.laneDue c tx x then d
    else if tx then d.txEffect c x else d.rxEffect c x

/-- A command of the far end (R421): MOVE, RESTORE or NARROW of a logical lane. `first` is the row in which the message began. A lane vacated by NARROW is
not restored (R417). A command that answers a request of this end takes over its activity. -/
def laneCommand (d : Dev) (c code lane wl row first : Nat) : Dev :=
  if d.linkState c ≠ 5 then d
  else
    let l := d.lk c
    let p := c / 2
    let bad := !d.laneOk c || !effectOk first row || l.rxCmd.isSome ||
      ((code = 1 || code = 3) && (l.rxMap.contains wl || 8 < wl || d.ring p wl true ≠ 2)) || (code = 3 && l.rxSt = 2) || l.rxMap.length ≤ lane
    let mine : Bool := l.req = some (code, lane)
    let act := if mine then l.reqAct else 0
    let d := if mine then d.updLk c fun l => { l with req := none, reqAct := 0 } else d
    if bad then ((d.syncLanes c).laneAnswer c 7 lane wl row).maintEnd act 1 0
    else
      let d := d.updLk c fun l => { l with rxCmd := some { code := code, lane := lane, wl := wl, row := some row, sent := d.lc, act := act } }
      let d := d.syncLanes c
      if code = 3 then d else d.laneAnswer c (code + 1) lane wl row

/-- A request of the far end (R422): this end's own command where its rules allow the action, REFUSE otherwise. A visit of the port keeps the action waiting
(R432), and so does a hold of the port where the action can answer wear only (R546: a MOVE can answer a loss). `lane` is the logical lane. -/
def laneRequest (d : Dev) (c code lane wl row first : Nat) : Dev :=
  if d.linkState c ≠ 5 then d
  else
    let ok := d.laneOk c && effectOk first row && d.laneMay c true code lane && d.laneFree c true && !d.indigo (c / 2) &&
      (code ≠ 3 || d.on R.OH_SPARE F.OH_SPARE_RESTORE_EN) && !d.calHolds c && (code = 1 || !d.conflicts [member 1 (c / 2)])
    if ok then d.laneBegin c { tx := true, code := code, lane := lane, loss := true } else d.laneAnswer c 7 (8 + lane) wl row

/-- A LANE message that asks for a change: a command for lanes 0 to 7, a request for 8 to 15 (R419). -/
def laneMsg (d : Dev) (c code lane wl row first : Nat) : Dev :=
  if lane < 8 then d.laneCommand c code lane wl row first else d.laneRequest c code (lane % 8) wl row first

/-- Whether an answer copies the fields of this end's pending command (R419). -/
def answers (x : LaneCmd) (lane wl row : Nat) : Bool := x.lane = lane && x.wl = wl && x.row = some row

/-- MOVE_ACK, RESTORE_ACK or NARROW_ACK, for the command `code` (R423 to R425). -/
def laneAck (d : Dev) (c code lane wl row : Nat) : Dev :=
  match (d.lk c).txCmd with
  | some x =>
    if d.linkState c ≠ 5 ∨ x.refused ∨ x.code ≠ code ∨ ¬ answers x lane wl row then d
    else if x.applied then d.txDone c x
    else d.updLk c fun l => { l with txCmd := some { x with acked := true } }
  | none => d

/-- A REFUSE (R423, R424, R426). What a refused MOVE or RESTORE leaves takes effect from the next row. -/
def laneRefuse (d : Dev) (c lane wl row : Nat) : Dev :=
  if d.linkState c ≠ 5 then d
  else
    let d := d.inc R.OH_REFUSED
    let l := d.lk c
    if 8 ≤ lane then
      match l.req with
      | some (_, i) =>
        if i = lane % 8 then
          let d := ((d.updLk c fun l => { l with req := none, reqAct := 0 }).syncLanes c).maintEnd l.reqAct 1 0
          (d.calCheck c).laneWaiting c
        else d
      | none => d
    else match l.txCmd with
      | none => d
      | some x =>
        if x.refused ∨ ¬ answers x lane wl row then d
        else if x.code = 5 then d.linkDown c 1
        else if l.txRow.isSome then d.updLk c fun l => { l with txCmd := some { x with refused := true } }
        else d.laneRefused c x

/-- No answer within ACK_WAIT_US (R426). -/
def laneAckTimeout (d : Dev) (c : Nat) : Dev :=
  match (d.lk c).txCmd with
  | some x =>
    if d.linkState c = 5 ∧ x.row.isSome ∧ ¬ x.acked ∧ ¬ x.refused ∧ x.sent + usCounts (d.fld R.OH_SPARE F.OH_SPARE_ACK_WAIT_US) ≤ d.lc then
      (d.inc R.OH_ACK_TIMEOUT).linkDown c 1
    else d
  | none => d

/-! Lost lanes (R386, R398, R415). -/

/-- The enabled pair that a port belongs to, and whether it is port A: a circuit keeps the ports with which EN was written (R395, log entry 42). -/
def pairOf (d : Dev) (p : Nat) : Option (Nat × Bool) :=
  d.link.indP.findSome? fun (x : Nat × Nat × Nat) => if x.2.1 = p then some (x.1, true) else if x.2.2 = p then some (x.1, false) else none

/-- LOS of a receive lane of a circuit: LOS_AB holds A's lanes. -/
def setLos (d : Dev) (p j : Nat) (on : Bool) : Dev :=
  match d.pairOf p with
  | none => d
  | some (i, a) =>
    let f := if a then F.IND_STAT_LOS_AB else F.IND_STAT_LOS_BA
    let m := d.fld (R.IND_STAT i) f
    d.setFld (R.IND_STAT i) f (if on then maskSet m j else maskClr m j)

/-- The port code that a wavelength of a physical port belongs to. -/
def codeOf (d : Dev) (p j : Nat) : Nat := if d.isSplit p ∧ 4 ≤ j ∧ j < 8 then 2 * p + 1 else 2 * p

/-- Whether a receive lane of a circuit is lost (R386): without light, with its ring out of service, without alignment, after 64 uncorrectable codewords, or cut
off by its wire group. -/
def circuitLost (d : Dev) (p j : Nat) : Bool :=
  !d.lit p j || d.ring p j true = 4 || bit (d.lk (2 * p)).noAlign j || 64 ≤ (d.lk (2 * p)).bad.getD j 0 || d.laneCut p j true

/-- LOS of a receive lane of a circuit follows the lane (R398). -/
def losNow (d : Dev) (p j : Nat) : Dev := if d.indigo p then d.setLos p j (d.circuitLost p j) else d

/-- A transmit lane is lost no longer: its ring reads its own index again. -/
def txBack (d : Dev) (p j : Nat) : Dev :=
  if d.laneCut p j false then d else d.updLk (d.codeOf p j) fun l => { l with lostTx := maskClr l.lostTx j }

/-- A codeword has decoded on a receive lane that was lost: it has light, a LOCKED ring and alignment again, and is usable (R386). -/
def rxBack (d : Dev) (c j : Nat) : Dev :=
  if bit (d.lk c).lostRx j ∧ ¬ d.laneCut (c / 2) j true then
    (d.updLk c fun l => { l with lostRx := maskClr l.lostRx j }).setStat c F.YZ_STAT_LANES_OK (maskSet (d.stat c F.YZ_STAT_LANES_OK) j)
  else d

/-- A lane is lost, transmit or receive: its record with the lane state that follows, and the lane action or link down. In PARITY one carrying lane may be
lost, and λ8 while no data lane is; trust in parity ends with λ8 (R433). On a circuit the partner lane goes dark (R398). Blocks that are gated off lose none
(R557). -/
def laneLost (d : Dev) (p j : Nat) (rx : Bool) : Dev :=
  if ¬ d.powered then d
  else if d.indigo p then
    let d := d.error 0x02 (9 * p + j) 0x12 3 [b2n rx, 0]
    if rx then d.setLos p j true else d
  else
    let c := d.codeOf p j
    let s := d.linkState c
    if s < 2 ∨ 5 < s ∨ ¬ (d.waves c).contains j then d
    else
      let d := if rx then d.setStat c F.YZ_STAT_LANES_OK (maskClr (d.stat c F.YZ_STAT_LANES_OK) j) else d
      if s = 2 then d
      else
        let l := d.lk c
        let before := if rx then l.lostRx else l.lostTx
        let d := d.updLk c fun l =>
          if rx then { l with lostRx := maskSet l.lostRx j, trust := if j = 8 then 0 else l.trust } else { l with lostTx := maskSet l.lostTx j }
        let st := d.laneSt c (!rx)
        let at' := d.laneOn c (!rx) j
        let carry := (if at'.isSome then [8] else []) ++ (if rx then l.rxMap else l.txMap)
        let covered : Bool := st = 0 && carry.all fun w => w = j || !bit before w
        let (d, ref) := d.occur 0x02 (9 * p + j) 0x12 3 [b2n rx, if covered ∧ at'.isSome ∧ d.laneOk c then 1 else st] none
        match at' with
        | some i =>
          if covered then d.laneAct c { tx := !rx, code := 1, lane := i, loss := true, cnt := if rx then 0 else R.OH_LOSS_MOVE, ref := ref }
          else d.linkDown c 1
        | none => if st = 0 ∧ ¬ covered then d.linkDown c 1 else d

/-- A receive lane goes dark: RX_LOS; its ring waits in SEARCH while the port is in LIGHT (R410). -/
def lightLoss (d : Dev) (p j : Nat) : Dev :=
  let d := d.setLight p j false
  if d.linkState (d.codeOf p j) = 1 ∧ (d.ring p j true = 2 ∨ d.ring p j true = 3) then d.setRing p j true 1 else d

/-- LANE_LOST as the device finds it: 0 loss of light, 1 the ring out of service for mislock, 2 codeword alignment, 3 after 64 uncorrectable codewords. What a
calibrated ring receives is ignored (R433). -/
def laneLostBy (d : Dev) (p j : Nat) (rx : Bool) (why : Nat) : Dev :=
  let ok : Bool :=
    if why = 1 then d.ring p j rx = 4
    else if d.ring p j rx = 5 then why = 0
    else if why = 3 then rx && 64 ≤ (d.lk (d.codeOf p j)).bad.getD j 0
    else true
  if ok then
    let d := if why = 0 ∧ rx then d.lightLoss p j else d
    (if why = 2 ∧ rx ∧ d.indigo p then d.updLk (2 * p) fun l => { l with noAlign := maskSet l.noAlign j } else d).laneLost p j rx
  else d

/-- Light arrives on a receive lane (R410): its ring begins to lock. The lane of a circuit is lost no longer unless it is for another cause (R386, R398). -/
def lightArrival (d : Dev) (p j : Nat) : Dev :=
  let d := (d.setLight p j true).readFrom p j true
  if d.indigo p then d.losNow p j
  else
    let c := d.codeOf p j
    if d.linkState c = 0 ∨ d.linkState c = 6 ∨ ¬ (d.waves c).contains j then d
    else
      let d := if d.ring p j true = 0 then d.setRing p j true 1 else d
      if d.linkState c = 1 ∧ (d.lk c).lightT.isNone then d.updLk c fun l => { l with lightT := some d.lc } else d

end Dev
end Sys2Proof.Machine
end

