-- ==== Sys2Proof/Machine/Maint.lean ====
section
/-! DEFINITION. Maintenance activities, sparing of vats, slices, wires and SRAM rows, the quarantine budget and device-fatal containment
(spec/15_faults_sparing.md R519 to R549); activities themselves are in Machine/Errors.lean. -/
namespace Sys2Proof.Machine

/-- The members that a resource identifier expands to; `spare` is SPARE of SC_SLICE. -/
def expand (spare id : Nat) : List Nat :=
  let n := id % 2 ^ 24
  let k := id / 2 ^ 24
  if k = 1 then [member 1 n]
  else if k = 2 then [member 2 n, member 3 (n / 2)] ++ (List.range 16).map fun i => member 1 (16 * n + i)
  else if k = 3 then [member 3 n, member 2 (2 * n), member 2 (2 * n + 1)] ++ (List.range 32).map fun i => member 1 (32 * n + i)
  else if k = 4 then [member 4 n]
  else if k = 5 then [member 5 n]
  else if k = 6 then [member 6 n, member 6 spare]
  else [member 4 (n / 100)]

/-- Local counts in 3,600 s. -/
def hour : Nat := 3600 * 1250000000

namespace Dev

/-! The quarantine budget (R539, R540). -/

/-- Removals charged in the preceding 3,600 s. -/
def charged (d : Dev) (l : List Nat) : Nat := l.countP fun t => d.lc < t + hour

/-- Withhold a removal. -/
def withhold (d : Dev) (a kind number ref : Nat) : Dev :=
  let d := (d.setFld a F.HS_PORT_WITHHELD 1).inc R.HS_WITHHELD
  let d := match d.recAt ref with | some n => d.setNum (R.ER_REC n 1) (putBits (d.erw n 1) 20 20 1) | none => d
  d.event 4 0x8009 (beBytes kind 2 ++ beBytes number 2)

/-! Vats (R520 to R522). -/

/-- The logical vat that a physical vat is mapped to. -/
def logicalOf (d : Dev) (v : Nat) : Option Nat :=
  ((List.range 96).find? fun i =>
    d.on (R.VB_MAP (v / 100) i) F.VB_MAP_MAPPED && d.fld (R.VB_MAP (v / 100) i) F.VB_MAP_PVAT = v % 100).map fun i => 96 * (v / 100) + i

/-- Time out an open context (R242), whatever its age; it counts in CE_TIMEOUT and not in CE_FLUSHED (DESIGN CHOICE, log entry 85). One whose result has been
formed has left its tallies behind and is let be; one that has all contributions, but not run FINAL to its end, still rests on them (R503, R532). -/
def timeoutNow (d : Dev) (c : Ctx) : Dev :=
  if c.sent then d
  else
    let d := d.descRead (some c.part) (some c.group) c.reads
    let miss := d.missing c.group c.perPort c.counts
    let d := (d.flushCtx c.lv c.slot).inc R.CE_TIMEOUT
    let d := d.recMake (d.recNow c.lv c.stream c.chunk c.group .timedOut)
    let d := d.notice (c.lv / 96) c.group c.stream c.chunk 1 (incompletePay miss c.expected c.total c.openT)
    d.error 0x0B c.group 0x30 2 [c.stream, c.chunk, c.total * 65536 + c.expected] (some c.part)

/-- Time out the open contexts of a vat. -/
def timeoutVat (d : Dev) (lv : Nat) : Dev := (d.vat.ctxs.filter fun c => c.lv = lv).foldl timeoutNow d

/-- Begin the retirement of a mapped vat, steps 1 and 2 of R520. -/
def retireBegin (d : Dev) (v : Nat) (hard : Bool) (handle : Nat) : Dev :=
  match d.logicalOf v with
  | none => d
  | some l =>
    let longest := (d.vat.ctxs.filter fun c => c.lv = l).foldl (fun m c => max m (d.timeoutOf (d.gdesc c.group))) 0
    let r : Retire := { v := v, l := l, hard := hard, handle := handle, bound := d.lc + usCounts longest + 2 * 2560, step := 1 }
    let d := d.setFld (R.VB_MAP (l / 96) (l % 96)) F.VB_MAP_DRAINING 1
    { d with faults := { d.faults with retire := d.faults.retire ++ [r] } }

/-- Replace or remove a retirement in progress. -/
def putRetire (d : Dev) (r : Retire) : Dev :=
  { d with faults := { d.faults with retire := d.faults.retire.map fun x => if x.v = r.v then r else x } }
def dropRetire (d : Dev) (r : Retire) : Dev :=
  { d with faults := { d.faults with retire := d.faults.retire.filter fun x => x.v ≠ r.v } }

/-- The spares of a bank, lowest number first: physical vats neither mapped, nor retired, nor found failing by this retirement. -/
def spares (d : Dev) (r : Retire) : List Nat :=
  ((List.range 100).map (100 * (r.v / 100) + ·)).filter fun v =>
    (d.logicalOf v).isNone && !d.faults.retired.contains v && !r.failed.contains v

/-- Step 3 cannot be made: no spare passes (R521). A vat that a hard fault leaves unmapped is retired, and its messages go (R334). -/
def noSpare (d : Dev) (r : Retire) : Dev :=
  let a := R.VB_MAP (r.l / 96) (r.l % 96)
  let d := (d.dropRetire r).setFld a F.VB_MAP_DRAINING 0
  let d := if r.hard then
      { (d.setFld a F.VB_MAP_MAPPED 0) with faults := { d.faults with retired := d.faults.retired ++ [r.v] } }.dropMsgs fun m => m.dst = r.l
    else d
  let d := d.error 0x0A (r.l / 96) 0x3B 3 [r.l]
  d.maintEnd r.handle (if r.hard then 1 else 3) 0

/-- Step 3 begins; with no spare left to test there is none (R521). -/
def spareStep (d : Dev) (r : Retire) : Dev :=
  let d := d.putRetire { r with step := 3 }
  if (d.spares r).isEmpty then d.noSpare r else d

/-- Steps 1 and 2 are over (VAT_DRAIN_END): no context is open, or the bound has come; contexts still open are timed out. -/
def drainEnd (d : Dev) (v : Nat) : Dev :=
  match d.faults.retire.find? fun r => r.v = v && r.step = 1 with
  | none => d
  | some r =>
    if d.vat.ctxs.any (fun c => c.lv = r.l) ∧ d.lc < r.bound then d
    else (d.timeoutVat r.l).spareStep r

/-- The self-test of the lowest-numbered spare ends (steps 3 and 4 of R520). -/
def spareTest (d : Dev) (v : Nat) (pass : Bool) : Dev :=
  match d.faults.retire.find? fun r => r.v = v && r.step = 3 with
  | none => d
  | some r =>
    match (d.spares r).head? with
    | none => d.noSpare r
    | some s =>
      if pass then
        let a := R.VB_MAP (r.l / 96) (r.l % 96)
        let d := (d.dropRetire r).dropMsgs fun m => m.dst = r.l
        let d := (d.setFld a F.VB_MAP_PVAT (s % 100)).setFld a F.VB_MAP_DRAINING 0
        let d := { d with faults := { d.faults with retired := d.faults.retired ++ [r.v] } }
        d.maintEnd r.handle 0 0
      else
        d.spareStep { r with failed := r.failed ++ [s] }

/-- A retirement that an error calls for: for wear within the budget and once the bank is free, for a hard fault at once. -/
def autoRetire (d : Dev) (v : Nat) (hard quar : Bool) (ref : Nat) : Dev :=
  let a := R.HS_VAT v
  match d.logicalOf v, d.faults.retire.find? fun r => r.v = v with
  | none, _ => d
  | some _, some r =>
    if hard ∧ r.step = 1 then (d.timeoutVat r.l).spareStep { r with hard := true }
    else if hard then d.putRetire { r with hard := true } else d
  | some l, none =>
    if ¬ hard ∧ (d.on a F.HS_VAT_WITHHELD ∨ d.on a F.HS_VAT_QUARANTINED) then d
    else if ¬ hard ∧ d.fld R.HS_BUDGET F.HS_BUDGET_VAT_BUDGET ≤ d.charged d.faults.removedVats then d.withhold a 2 v ref
    else if ¬ hard ∧ d.conflicts [member 4 (v / 100)] then d.waitWear (if quar then .quarVat v ref else .vatRetire v false ref)
    else
      let d := if hard then d else { d with faults := { d.faults with removedVats := d.faults.removedVats ++ [d.lc] } }
      let d := if quar then (d.setFld a F.HS_VAT_QUARANTINED 1).inc R.HS_QUAR_VAT else d
      let (d, h) := d.maintBegin 0x8003 true [member 4 (v / 100)] 0
      let d := (d.setAction ref h).retireBegin v hard h
      if hard then (d.timeoutVat l).spareStep { v := v, l := l, hard := true, handle := h, bound := d.lc, step := 3 } else d

/-! Crossbar slices (R523, R524). -/

/-- SLICE_NO_SPARE (R503). -/
def noSlice (d : Dev) (s : Nat) : Dev := d.error 0x13 0 0x23 5 [s]

/-- Begin a swap: the spare is tested for a beat. -/
def swapBegin (d : Dev) (s : Nat) (hard : Bool) (handle : Nat) : Dev :=
  { d with core := { d.core with swap := some { slice := s, hard := hard, handle := handle, since := d.time.beat } } }

/-- A swap that an error calls for. -/
def autoSwap (d : Dev) (s : Nat) (hard : Bool) (ref : Nat) : Dev :=
  let spare := d.fld R.SC_SLICE F.SC_SLICE_SPARE
  if s = spare ∨ 17 ≤ s then d
  else match d.core.swap with
    | some w =>
      if w.slice = s then { d with core := { d.core with swap := some { w with hard := w.hard || hard } } }
      else if hard then d.noSlice s else d.waitWear (.sliceSwap s false ref)
    | none =>
      if hard ∧ d.core.badSpare then d.noSlice s
      else if ¬ hard ∧ d.conflicts (expand spare (member 6 s)) then d.waitWear (.sliceSwap s false ref)
      else
        let (d, h) := d.maintBegin 0x8004 true (expand spare (member 6 s)) 0
        (d.setAction ref h).swapBegin s hard h

/-- The test of the spare is over (`unit` the crossbar unit whose test cells failed) and, when it passed, every unit changes its mapping at the first slot after the next boundary. -/
def swapOver (d : Dev) (pass : Bool) (unit : Nat) : Dev :=
  match d.core.swap with
  | none => d
  | some w =>
    if d.time.beat < w.since + 2 then d
    else
      let spare := d.fld R.SC_SLICE F.SC_SLICE_SPARE
      let d := { d with core := { d.core with swap := none, badSpare := true } }
      if pass then
        let d := (d.setFld (R.QCTRL_XS spare) F.QREQ 0).setFld (R.QSTAT_XS spare) F.QACK 0
        let d := (d.setFld (R.QCTRL_XS w.slice) F.QREQ 1).setFld (R.QSTAT_XS w.slice) F.QACK 1
        let d := { d with core := { d.core with sliceRun := d.core.sliceRun.set w.slice 0 } }
        (d.setFld R.SC_SLICE F.SC_SLICE_SPARE w.slice).maintEnd w.handle 0 0
      else
        let d := (d.error 0x07 spare 0x22 3 [unit]).maintEnd w.handle 3 0
        if w.hard then d.noSlice w.slice else d

/-- Sixteen consecutive slots with uncorrectable parts on an active slice (R503). -/
def sliceHard (d : Dev) (s : Nat) : Dev :=
  if 16 ≤ d.core.sliceRun.getD s 0 then
    let ref := d.recRef ((d.recOf (recW0 0x07 s 0x22)).getD 64)
    ({ d with core := { d.core with sliceRun := d.core.sliceRun.set s 0 } }).autoSwap s true ref
  else d

/-! Bridge wires (R528, R529). -/

/-- The lanes that a wire group carries are lost (R386, R529), and stay so until the next reset (`laneCut`). -/
def groupLost (d : Dev) (g : Nat) : Dev :=
  (Config.groupLanes (g % 64)).foldl (fun (d : Dev) (x : Nat × Nat × Bool) => d.laneLost (16 * (g / 64) + x.1 % 16) (x.2.1 % 9) x.2.2) d

/-- A wire is found bad. Its sparing starts while a spare of its group is free; with both in use a third bad wire is still corrected and the group is recorded
DEGRADED; a fourth makes the group's transfers uncorrectable, and its lanes are lost. -/
def wireSpare (d : Dev) (g w : Nat) : Dev :=
  if d.faults.wires.any fun x => x.1 = g && x.2.1 = w then d
  else
    let n := d.wireUse g
    let d := { d with faults := { d.faults with wires := d.faults.wires ++ [(g, w, n, if n < 2 then 1 else 0)] } }
    if n < 2 then d
    else if n = 2 then
      match d.recOf (recW0 0x05 g 0x18) with
      | some n => d.raiseSev n 3
      | none => d.error 0x05 g 0x18 3 [w]
    else d.groupLost g

/-- The oldest sparing under way in a group switches over. -/
def wireSwitch (d : Dev) (g : Nat) : Dev :=
  match d.faults.wires.find? fun x => x.1 = g && x.2.2.2 = 1 with
  | none => d
  | some (a, w, s, _) =>
    ({ d with faults := { d.faults with wires := d.faults.wires.map fun x => if x = (a, w, s, 1) then (a, w, s, 0) else x } }).inc R.BR_WIRE_SPARED

/-! SRAM rows (R530 to R533). -/

/-- A row of packet buffer cells is repaired once its cells are free. -/
def deferredRepair (d : Dev) (mac row : Nat) : Dev :=
  match d.faults.repairs.find? fun x => x.1 = mac && x.2.1 = row with
  | none => d
  | some x =>
    if d.core.cells.any fun y => x.2.2.contains y.1 then d
    else ({ d with faults := { d.faults with repairs := d.faults.repairs.erase x } }).softRepair mac row

/-- Put the rows that wait for repair. -/
def setRepairs (d : Dev) (l : List (Nat × Nat × List Nat)) : Dev := { d with faults := { d.faults with repairs := l } }

/-- Packets whose cells lie in a damaged row (R532): the copies that have still to take such a cell, and an own-chip packet, are treated as R141 gives. -/
def damage (d : Dev) (cells : List Nat) : Dev :=
  (d.core.pkts.filter fun k => k.cellsAt.any cells.contains).foldl (fun (d : Dev) k =>
    let hurt (c : Copy) : Bool := (c.stage = .voq || c.stage = .cross) &&
      (List.range k.cellsAt.length).any fun i => decide (c.n ≤ i) && cells.contains (k.cellsAt.getD i 0)
    let cnt := !k.bad && k.copies.any fun c => hurt c && decide (c.out < 1024)
    let d := if cnt then d.countBad k else d
    d.putPkt { k with counted := k.counted || cnt, bad := k.bad || k.place = .own,
                      copies := k.copies.map fun c => if hurt c then { c with bad := true } else c }) d

/-- The data kinds of R532 as an SRAM error names them, with what the row held: entries of a pipeline's bank or admission table; an exact-match bucket; entries of
the collective engine, of the watch table or not; a tally store word of a physical vat; packet buffer cells; a reserved partition's charges; the vat of a
read-only row; bytes of the loaded recipe image, by their offset in it. -/
inductive SramKind where
  | bank (pl table bank : Nat) (entries : List Nat)
  | admission (pl : Nat) (entries : List Nat)
  | em
  | ce (watch : Bool)
  | tally (vat word : Nat)
  | buffer (cells : List Nat)
  | state
  | charge (entry : Nat)
  | rom (vat : Nat)
  | imem (off n : Nat)
deriving DecidableEq, Repr

/-- An error found in an SRAM row: macro, row, data kind, whether uncorrectable, the LPDDR6 bursts in error that its refill meets, and
a descriptor in error that is read for contexts timed out. -/
structure SramErr where
  mac : Nat
  row : Nat
  kind : SramKind
  uncorr : Bool
  ddr : List (Nat × List Nat)
  desc : Option DescErr
deriving DecidableEq, Repr

/-- Entries that a refill loses are added to D1 of the record that counts them (R532). -/
def addLost (d : Dev) (ref n : Nat) : Dev :=
  match d.recAt ref with | some k => d.setNum (R.ER_REC k 10) (d.erw k 10 + n) | none => d

/-- Entries of a repaired row are refilled from their LPDDR6 copies, at once or when their channels are released (R532, R627). -/
def refill (d : Dev) (p table bank : Nat) (entries : List Nat) (ref : Nat) : Dev :=
  let l := entries.filter (· < (tblSize table).1)
  if l.any (d.copyShut p table bank ·) then d.later (.restore p table bank l d.seen.ddr ref)
  else match d.tblRestore p table bank l with | (n, d) => d.addLost ref n

/-- No recipe image is loaded any more. -/
def recipeGone (d : Dev) : Dev :=
  (List.range 16).foldl (fun d b => d.setFld (R.VB_RCP_STAT b) F.VB_RCP_STAT_LOADED 0) (d.setVat { d.vat with imem := [], rcps := [], image := [] })

/-- Instruction memory is refilled from bytes of the image's copy, at once or when their channels are released; with a copy that cannot be read no recipe is loaded
any more (R344, R532). -/
def imemRefill (d : Dev) (off n : Nat) : Dev :=
  let n := min n (d.vat.image.length - off)
  if n = 0 then d
  else if d.ddrShut (0x2000000 + off) n then d.later (.image off n d.seen.ddr)
  else match d.burstsRead (ddrBursts (0x2000000 + off) n) with
    | ([], d) => d
    | (_, d) => d.recipeGone

/-- The record of an uncorrectable row, its soft repair, and what refers to the record where it is a new one: details of a record are those of its first
occurrence (R507). A row of stream, group or partition entries is read from another front end, which is a correction, but for an entry of which no copy is correct:
that is an error of the entry, and no read made for a packet, a context or a slot (R505). -/
def rowError (d : Dev) (e : SramErr) : Dev × Nat :=
  match if e.kind = .ce false then e.desc.filter (·.allBad) else none with
  | some x => (({ d with seen := { d.seen with desc := none } }).descError { x with macroNo := e.mac, row := e.row } none none, 2 ^ 32)
  | none =>
    let fresh := (d.recOf (recW0 0x10 e.mac 0x41)).isNone
    let (d, ref) := if e.kind = .ce false then d.occur 0x10 e.mac 0x40 1 [e.row] none else d.occur 0x10 e.mac 0x41 2 [e.row, 0] none
    (d.softRepair e.mac e.row, if fresh then ref else 2 ^ 32)

/-- What an SRAM error does (R503, R531, R532): every uncorrectable row is recorded and, but for the read-only region and buffer rows in use, repaired
at once; then its data kind says what is refilled and what is lost. With no repair left the row stays in use as it is and nothing is refilled (R99, R533). -/
def sramError (d : Dev) (e : SramErr) : Dev :=
  let d := (d.seeing e.ddr).meeting e.desc
  if ¬ e.uncorr then d.error 0x10 e.mac 0x40 1 [e.row]
  else match e.kind with
    | .rom v =>
      let d := d.error 0x10 e.mac 0x41 2 [e.row, 0]
      match d.occur 0x09 (v % 1600) 0x3A 3 [e.mac] none with | (d, n) => d.pushTodo (.vatRetire (v % 1600) true n)
    | .buffer cells =>
      let d := d.error 0x10 e.mac 0x41 2 [e.row, 0]
      (d.damage cells).setRepairs ((e.mac, e.row, cells) :: d.faults.repairs.filter fun x => !(x.1 = e.mac && x.2.1 = e.row))
    | kind =>
      let left := decide (d.fld R.SR_STAT F.SR_STAT_USED < 512)
      match d.rowError e with
      | (d, ref) =>
        match kind with
        | .bank pl table bank entries => if left then d.refill (pl % 16) (1 + table % 3) (bank % 2) entries ref else d
        | .admission pl entries => if left then d.refill (pl % 16) 4 0 entries ref else d
        | .imem off n => if left then d.imemRefill off n else d
        | .state => d.error 0x13 0 0x60 5 [e.mac]
        | .charge i =>
          let p := d.fld (R.LK_PART_A (i % 64)) F.LK_PART_A_PARTITION
          d.partitionFatal 0x0C p 0x29 [i % 64] p
        | .tally v word => d.pushTodo (.tallyTimeout (v % 1600) word)
        | _ => d

/-! Accesses to LPDDR6 that wait (R627). -/

/-- Whether such an access still waits. -/
def lateShut (d : Dev) : DdrWait → Bool
  | .mirror p table bank i _ _ => d.copyShut p table bank i
  | .bulk _ _ _ slot => d.slotShut slot
  | .restore p table bank l _ _ => l.any (d.copyShut p table bank ·)
  | .image off n _ => d.ddrShut (0x2000000 + off) n
  | .imageCopy n => d.ddrShut 0x2000000 n
  | .fwCopy s => d.ddrShut (0x1000000 * s) (d.mgmt.slots.getD s []).length
  | .refill slot => d.slotShut slot
  | .lose b _ => d.ovfShut b (d.spill b)

/-- It is made. -/
def lateOne (d : Dev) : DdrWait → Dev
  | .mirror p table bank i v counted => d.copyPut p table bank i v counted
  | .bulk p table bank slot => d.bulkPut p table bank slot
  | .restore p table bank l errs ref => (d.seeing errs).refill p table bank l ref
  | .image off n errs => (d.seeing errs).imemRefill off n
  | .imageCopy n => d.imageCopy n
  | .fwCopy s => d.fwCopy s
  | .refill slot => d.slotRefill slot
  | .lose b l => d.ovfGone b l

/-- The accesses whose channels have been released are made, in the order in which they came; those on channels that still take none wait on. The bursts written go
out, and what the command's accesses met is over with it. -/
def lateAll (d : Dev) : Dev :=
  let l := d.ddr.late
  let d := l.foldl (fun (d : Dev) w => if d.lateShut w then d.later w else d.lateOne w) { d with ddr := { d.ddr with late := [] } }
  { d.burstOuts with seen := {} }

/-! Tally store errors and device-fatal containment. -/

/-- Time out the contexts of a physical vat whose run covers a tally word (R503, TALLY_UNCORR). -/
def tallyTimeout (d : Dev) (v word : Nat) : Dev :=
  match d.logicalOf v with
  | none => d
  | some l =>
    (d.vat.ctxs.filter fun c => c.lv = l && 512 * c.first ≤ word && word < 512 * (c.first + c.run)).foldl timeoutNow d

/-- A tally word found in error by an array operation. -/
def tallyError (d : Dev) (lv word : Nat) (uncorr : Bool) : Dev :=
  let v := d.physOf lv
  if uncorr then (d.error 0x09 v 0x39 2 [word]).pushTodo (.tallyTimeout v word) else d.error 0x09 v 0x38 1 [word]

/-- Device-fatal containment (R513, R519): every launch slot counts, closed ones too, and DF_DISCARD counts the packets discarded (R549): those of which no copy
is in transmission. Each discard is captured (R614). -/
def contain (d : Dev) (w0 : Nat) : Dev :=
  let d := if d.on R.ER_STAT F.ER_STAT_FATAL then d else d.setNum R.ER_FATAL_SRC w0
  let d := d.setFld R.ER_STAT F.ER_STAT_FATAL 1
  let d := (d.flushAll (fun _ => true) (fun _ => false)).incBy R.CE_FLUSHED d.ce.launch.length
  let d := { d with ce := { d.ce with launch := [] } }
  let hit (h : Hdr) : Bool := 1 ≤ h.vc && h.vc ≤ 6
  let d := (d.dropWaits fun w => hit w.h).incBy R.DF_DISCARD (d.vat.wait.countP fun w => hit w.h)
  let n := d.core.pkts.countP fun k => hit k.h && k.copies.all (·.stage ≠ .sending)
  (d.abortPkts fun k => hit k.h).1.incBy R.DF_DISCARD n

/-! Health scores (R537, R541, R542). -/

/-- One score decays; WITHHELD clears below half the threshold. -/
def decayOne (d : Dev) (a : Nat) : Dev :=
  let s := d.fld a F.HS_PORT_SCORE * 15 / 16
  let d := d.setFld a F.HS_PORT_SCORE s
  if 2 * s < d.fld R.HS_CTRL F.HS_CTRL_QUAR_SCORE then d.setFld a F.HS_PORT_WITHHELD 0 else d

/-- The score registers that are not at reset. -/
def scoreRegs (d : Dev) : List Nat :=
  ((d.csr.regs.map (·.1)).filter fun a => (R.HS_PORT 0 ≤ a && a < R.HS_PORT 512) || (R.HS_VAT 0 ≤ a && a < R.HS_VAT 1600)).eraseDups

/-- Every score decays at a boundary whose number is a multiple of 2^24. -/
def healthDecay (d : Dev) : Dev := if d.beatNo % 2 ^ 24 = 0 ∧ ¬ d.actedIn 2 then d.scoreRegs.foldl decayOne (d.act1 2) else d

/-- A write of HS_RELEASE (R542): a released vat that is not mapped is a spare again. -/
def hsRelease (d : Dev) (kind n : Nat) : Dev :=
  if kind = 1 ∧ n < 512 then d.setNum (R.HS_PORT n) 0
  else if kind = 2 ∧ n < 1600 then
    { (d.setNum (R.HS_VAT n) 0) with faults := { d.faults with retired := d.faults.retired.filter (· ≠ n) } }
  else d

/-- An acknowledgement of a record (R511). -/
def ackRecord (d : Dev) (n : Nat) : Dev :=
  if d.recValid n ∧ ¬ d.recAcked n then d.setNum (R.ER_REC n 1) (putBits (d.erw n 1) 22 22 1) else d

/-- A controller activity starts (R543 to R545): the status and, for OK, the handle. Preconditions and shapes are checked by the caller. -/
def maintStart (d : Dev) (code : Nat) (res : List Nat) (sess : Nat) : Dev × Option Nat × Bool :=
  if d.conflicts res then (d.inc R.MT_BUSY_MAINT, none, true)
  else if 16 ≤ d.faults.maint.length then (d, none, false)
  else match d.maintBegin code false res sess with | (d, h) => (d, some h, false)

/-- A self-test ends (R547): 9 bits of data for an optical engine, 7 for a vat bank. -/
def selfTestEnd (d : Dev) (handle data : Nat) : Dev :=
  match d.faults.maint.find? fun m => m.handle = handle && (m.code = 3 || m.code = 7) with
  | none => d
  | some m => d.maintEnd handle (if m.stopping then 2 else 0) (data % (if m.code = 3 then 512 else 128))

/-- MAINT_STOP (R548): false when the activity is automatic or unknown. A slice swap that has not switched yet is given up; the copy of a
channel retirement begins at once. -/
def maintStop (d : Dev) (handle : Nat) : Dev × Bool :=
  match d.faults.maint.find? fun m => m.handle = handle with
  | none => (d, false)
  | some m =>
    if m.auto then (d, false)
    else if m.code = 1 ∨ m.code = 2 then (d.maintEnd handle 2 0, true)
    else if m.code = 3 ∨ m.code = 7 then
      let d := d.setMaint (d.faults.maint.map fun x => if x.handle = handle then { x with stopping := true } else x)
      (if m.reg < 16 then d.setFld (R.MT_ACT_A m.reg) F.MT_ACT_A_STATE 2 else d, true)
    else if m.code = 4 then
      match d.faults.retire.find? fun r => r.handle = handle && r.step = 1 with
      | some r => (((d.dropRetire r).setFld (R.VB_MAP (r.l / 96) (r.l % 96)) F.VB_MAP_DRAINING 0).maintEnd handle 2 0, true)
      | none => (d, true)
    else if m.code = 5 ∧ (d.core.swap.any fun w => w.handle = handle) then
      (({ d with core := { d.core with swap := none } }).maintEnd handle 2 0, true)
    else (d, true)

/-- A hard fault of a unit of a vat (R503, R521): its record, and the immediate retirement that the record calls for. -/
def vatHard (d : Dev) (v unit : Nat) : Dev :=
  match d.occur 0x09 v 0x3A 3 [unit] none with | (d, n) => d.pushTodo (.vatRetire v true n)

end Dev
end Sys2Proof.Machine
end

