-- ==== Sys2Proof/Machine/Optic.lean ====
section
/-! DEFINITION. Rings, margins, laser fade, calibration visits, laser slots and Indigo circuits (spec/12_optical_health.md R403 to R418, R430 to R437;
spec/11_optical_links.md R395 to R400). -/
namespace Sys2Proof.Machine

/-! The pilot identity code (R403). -/

/-- Manchester chips of a bit: 10 for a one, 01 for a zero. -/
def manch (b : Bool) : List Bool := [b, !b]

/-- The 24-chip frame of a wavelength index: preamble, index, complement of the index. -/
def pilotFrame (j : Nat) : List Bool :=
  let ix : List Bool := [bit j 3, bit j 2, bit j 1, bit j 0]
  [true, true, true, true, false, false, false, false] ++ ix.flatMap manch ++ ix.flatMap fun b => manch (!b)

/-- The index that a frame carries with its complement; none for any other 24 chips. -/
def pilotIndex (chips : List Bool) : Option Nat := (List.range 16).find? fun j => chips = pilotFrame j

/-- A valid identity read (R405): four consecutive frames with the same index. -/
def pilotRead (chips : List Bool) : Option Nat :=
  match pilotIndex (chips.take 24) with
  | some j => if chips = pilotFrame j ++ pilotFrame j ++ pilotFrame j ++ pilotFrame j then some j else none
  | none => none

/-- A margin in 0.1 dB from a difference in 0.01 dB, held in 0 to 25.5 dB (R411). -/
def marginOf (x : Int) : Nat := min (x / 10).toNat 255

/-- The error margin in 0.1 dB (R411): the greatest m with 10^(m / 10) at most 10^-2 / SER, where SER is `errs` over `syms`; 25.5 dB when none was
counted. -/
def errMargin (errs syms : Nat) : Nat :=
  if errs = 0 then 255
  else (List.range 256).foldl (fun b m => if (100 * errs) ^ 10 * 10 ^ m ≤ syms ^ 10 then m else b) 0

/-- The counts of consecutive evaluations after one more (R414); `evals` is RESTORE_EVALS. A margin recovers once in a run at or above T1. -/
def Cross.next (x : Cross) (m t1 t2 t3 evals : Nat) : Cross :=
  { b1 := if m < t1 then x.b1 + 1 else 0, b2 := if m < t2 then x.b2 + 1 else 0, b3 := if m < t3 then x.b3 + 1 else 0,
    up := if t1 ≤ m then x.up + 1 else 0, done := decide (t1 ≤ m) && (x.done || decide (evals ≤ x.up + 1)) }

/-- Whether a margin recovers at the evaluation that led from `x` to `n`. -/
def Cross.recovers (x n : Cross) : Bool := n.done && !x.done

/-- What passes over a laser slot's bus in a write and in a read of a module's 2-byte register (R651): the module answers at 7-bit address 0x50. -/
def busWrite (reg v : Nat) : List BusItem :=
  [.start, .addr 0x50 false, .put (BitVec.ofNat 8 reg), .put (BitVec.ofNat 8 v), .put (BitVec.ofNat 8 (v / 256)), .stop]
def busRead (reg v : Nat) : List BusItem :=
  [.start, .addr 0x50 false, .put (BitVec.ofNat 8 reg), .start, .addr 0x50 true, .get (BitVec.ofNat 8 v), .get (BitVec.ofNat 8 (v / 256)), .stop]

/-- The mean powers of one lane over the last 512 beats, in 0.01 dBm (R411). -/
structure LanePower where
  p : Nat
  j : Nat
  tx : Int
  rx : Int
deriving DecidableEq, Repr

namespace Dev

/-! Ring lock (R405 to R410). -/

/-- Move a heater by some codes. -/
def heat (d : Dev) (p j : Nat) (rx : Bool) (codes : Int) : Dev :=
  let k := ringKey p j rx
  { d with optic := { d.optic with heat := Sparse.put 0 d.optic.heat k (Sparse.get 0 d.optic.heat k + codes) } }

/-- The index last read on a ring. -/
def setId (d : Dev) (p j : Nat) (rx : Bool) (id : Nat) : Dev :=
  d.setFld (R.OH_RING p j) (if rx then F.OH_RING_RX_ID else F.OH_RING_TX_ID) id

/-- An attempt to relock begins: the heater steps (R407). -/
def relock (d : Dev) (p j : Nat) (rx : Bool) (k : Option Nat) : Dev :=
  let step : Int := d.fld R.OH_LOCK F.OH_LOCK_MIS_STEP
  d.heat p j rx (match k with | some k => ((j : Int) - k) * step | none => step)

/-- The failed attempts of a ring's episode; RELOCKS shows those of the ring of the lane that attempted last. -/
def setTries (d : Dev) (p j : Nat) (rx : Bool) (n : Nat) : Dev :=
  { d.setFld (R.OH_RING p j) F.OH_RING_RELOCKS (min n 15) with optic := { d.optic with tries := Sparse.put 0 d.optic.tries (ringKey p j rx) n } }

/-- A ring enters MISLOCK (R407). -/
def mislock (d : Dev) (p j : Nat) (rx : Bool) (k : Option Nat) : Dev :=
  (((d.setRing p j rx 3).inc (R.OH_MISLOCK p j)).setTries p j rx 0).relock p j rx k

/-- Take note of a valid identity read. -/
def noteRead (d : Dev) (p j : Nat) (rx : Bool) (k : Nat) : Dev := (d.setId p j rx k).readFrom p j rx

/-- A ring has read its own index: LOCKED. The lane of a transmit ring that was lost is lost no longer, and a circuit's receive lane is not for its ring. -/
def ringLock (d : Dev) (p j : Nat) (rx : Bool) : Dev := let d := d.setRing p j rx 2; if rx then d.losNow p j else d.txBack p j

/-- Whether a ring has light to read: its receive lane's, or its laser line's. -/
def ringLight (d : Dev) (p j : Nat) (rx : Bool) : Bool := if rx then d.lit p j else d.power.lmEn.getD (p / 32) false

/-- Chips read at a ring's photodiode (R405 to R407): a valid read gives an index. The lock loops run while STATE is RUN: in Umber and on the way to it they are
off, and after a wake ring lock follows it (R557, R560, R564). -/
def identityRead (d : Dev) (p j : Nat) (rx : Bool) (chips : List Bool) : Dev :=
  let s := d.ring p j rx
  match pilotRead chips with
  | none => d
  | some k =>
    if (s = 1 ∨ s = 2) ∧ d.ringLight p j rx ∧ d.running then
      let d := d.noteRead p j rx k
      if k = j then d.ringLock p j rx else d.mislock p j rx (some k)
    else d

/-- A ring goes out of service (R408). -/
def ringOut (d : Dev) (p j : Nat) (rx : Bool) : Dev :=
  let id := d.fld (R.OH_RING p j) (if rx then F.OH_RING_RX_ID else F.OH_RING_TX_ID)
  (((d.setRing p j rx 4).inc R.OH_OOS).error 0x02 (9 * p + j) 0x13 3 [b2n rx, id]).laneLost p j rx

/-- A ring has had light for too long without a valid read: a LOCKED ring for 192 µs (R407), a ring in SEARCH for the 20 ms after LIGHT began or light
arrived (R410), which put it out of service. -/
def identityTimeout (d : Dev) (p j : Nat) (rx : Bool) : Dev :=
  let s := d.ring p j rx
  let t := Sparse.get 0 d.optic.readT (ringKey p j rx)
  if ¬ d.running then d
  else if s = 2 ∧ d.ringLight p j rx ∧ t + usCounts 192 ≤ d.lc then d.mislock p j rx none
  else if s = 1 ∧ rx ∧ d.lit p j ∧ t + usCounts 20000 ≤ d.lc then d.ringOut p j rx
  else if s = 1 ∧ ¬ rx ∧ d.linkState (d.codeOf p j) = 1 ∧ (d.lk (d.codeOf p j)).since + usCounts 20000 ≤ d.lc then d.ringOut p j rx
  else d

/-- Whether an OOS ring is retried now: its port trains, or its lane is visited (R408). -/
def retried (d : Dev) (p j : Nat) : Bool :=
  (1 ≤ d.linkState (d.codeOf p j) && d.linkState (d.codeOf p j) ≤ 4) || (match d.optic.cal with | some v => v.p = p && v.j = j | none => false)

/-- A relock attempt ends with the chips that its identity read gave (R407, R408); each ring has its own attempts. -/
def relockEnd (d : Dev) (p j : Nat) (rx : Bool) (chips : List Bool) : Dev :=
  let s := d.ring p j rx
  let k := pilotRead chips
  if d.running ∧ (s = 3 ∨ (s = 4 ∧ d.retried p j)) then
    let d := match k with | some k => d.noteRead p j rx k | none => d
    if k = some j then d.ringLock p j rx
    else if s = 4 then d
    else
      let n := Sparse.get 0 d.optic.tries (ringKey p j rx) + 1
      let d := d.setTries p j rx n
      if d.fld R.OH_LOCK F.OH_LOCK_MAX_RELOCK ≤ n then d.ringOut p j rx else d.relock p j rx k
  else d

/-! Margins (R411 to R418). -/

/-- At a boundary whose number is a multiple of 512 the counts of the last 512 beats stand for the evaluation and new ones begin (R411). -/
def marginWindow (d : Dev) : Dev :=
  if d.beatNo % 512 = 0 ∧ d.powered then { d with optic := { d.optic with winC := d.optic.cws, winE := d.optic.errs, cws := [], errs := [] } } else d

/-- The margins of one lane: Mt and the evaluation of Mr. -/
def laneMargin (d : Dev) (x : LanePower) : Dev :=
  let key := 9 * x.p + x.j
  let me := errMargin (Sparse.get 0 d.optic.winE key) (272 * Sparse.get 0 d.optic.winC key)
  let mt := marginOf (x.tx - sgn 16 (d.fld R.OH_LEVELS F.OH_LEVELS_TX_MIN))
  let mr := min me (marginOf (x.rx - sgn 16 (d.fld R.OH_LEVELS F.OH_LEVELS_RX_SENS)))
  let d := d.setNum (R.OH_MARGIN x.p x.j) (mt * 65536 + mr * 256 + me)
  d.setNum (R.OH_POWER x.p x.j) (unsgn 16 x.tx * 65536 + unsgn 16 x.rx)

/-- A crossing of T2 or T3 by a line or a lane is recorded and reported (R416); answers what refers to its record. -/
def crossed (d : Dev) (blk inst oe lane port level margin : Nat) : Dev × Nat :=
  match d.occur blk inst (0x12 + level) 3 [margin] none with
  | (d, ref) => (d.event 1 0x8004 ([BitVec.ofNat 8 oe, BitVec.ofNat 8 lane] ++ beBytes port 2 ++ [BitVec.ofNat 8 level, 0, 0, 0]), ref)

/-- The thresholds T1, T2 and T3. -/
def thresholds (d : Dev) : Nat × Nat × Nat :=
  (d.fld R.OH_THRESH F.OH_THRESH_T1, d.fld R.OH_THRESH F.OH_THRESH_T2, d.fld R.OH_THRESH F.OH_THRESH_T3)

/-- A visited lane whose margin falls below T2 is not restored (R432). -/
def calLow (d : Dev) (p j m : Nat) (tx : Bool) : Dev :=
  match d.optic.cal with
  | some v =>
    if v.p = p ∧ v.j = j ∧ m < d.thresholds.2.1 then d.setCal (some { v with lowTx := v.lowTx || tx, lowRx := v.lowRx || !tx }) else d
  | none => d

/-- The receive actions of one lane (the last three rows of the table before R415). -/
def laneEval (d : Dev) (x : LanePower) : Dev :=
  let c := 2 * x.p
  let key := 9 * x.p + x.j
  let m := d.fld (R.OH_MARGIN x.p x.j) F.OH_MARGIN_MR
  let (t1, t2, t3) := d.thresholds
  let o : Cross := Sparse.get {} d.optic.lane key
  let n := o.next m t1 t2 t3 (d.fld R.OH_SPARE F.OH_SPARE_RESTORE_EVALS)
  let d := { d with optic := { d.optic with lane := Sparse.put {} d.optic.lane key n } }
  let d := d.calLow x.p x.j m false
  let ask (d : Dev) (code level : Nat) : Dev :=
    match d.crossed 0x02 key (x.p / 16) x.j (d.codeOf x.p x.j) level m with
    | (d, ref) => match d.laneOn c false x.j with
      | some i => d.laneAct c { tx := false, code := code, lane := i, ref := ref }
      | none => d
  let d := if n.b2 = 4 then ask d 1 2 else d
  let d := if n.b3 = 4 then ask d 5 3 else d
  if o.recovers n && d.on R.OH_SPARE F.OH_SPARE_RESTORE_EN then
    match (d.lk c).rxMoved with
    | some (i, w) => if w = x.j then d.laneAct c { tx := false, code := 3, lane := i, cnt := R.OH_RESTORE } else d
    | none => d
  else d

/-- The ports of an OE that are UP in full mode. -/
def upFull (d : Dev) (k : Nat) : List Nat :=
  ((List.range 16).map (16 * k + ·)).filter fun p => d.linkState (2 * p) = 5 && !d.isSplit p

/-- The deepest threshold crossed and not recovered: LEVEL of OH_LINE. -/
def lineLevel (old : Nat) (n : Cross) : Nat :=
  if n.done then 0 else if 4 ≤ n.b3 then 3 else if 4 ≤ n.b2 then max old 2 else if 4 ≤ n.b1 then max old 1 else old

/-- One laser line is evaluated (R413 to R416). -/
def lineEval (d : Dev) (k j : Nat) : Dev :=
  match d.upFull k with
  | [] => d
  | p0 :: ps =>
    let key := 9 * k + j
    let m := ps.foldl (fun m p => min m (d.fld (R.OH_MARGIN p j) F.OH_MARGIN_MT)) (d.fld (R.OH_MARGIN p0 j) F.OH_MARGIN_MT)
    let ports := p0 :: ps
    let (t1, t2, t3) := d.thresholds
    let o : Cross := Sparse.get {} d.optic.line key
    let n := o.next m t1 t2 t3 (d.fld R.OH_SPARE F.OH_SPARE_RESTORE_EVALS)
    let d := { d with optic := { d.optic with line := Sparse.put {} d.optic.line key n } }
    let d := d.setNum (R.OH_LINE key) (m * 65536 + lineLevel (d.fld (R.OH_LINE key) F.OH_LINE_LEVEL) n)
    let d := ports.foldl (fun d p => d.calLow p j m true) d
    let d := if 4 ≤ n.b1 ∧ ¬ bit (d.fld (R.OH_SLOT_STAT (k / 2)) F.OH_SLOT_STAT_BIAS_LIMIT) j then
        (d.inc R.OH_T1_REQ).emit (.slotBus (k / 2) (busWrite (0x10 + 4 * j) (d.fld R.OH_SPARE F.OH_SPARE_BIAS_STEP)) d.lc)
      else d
    let move (ref : Nat) (d : Dev) (p : Nat) : Dev :=
      match d.laneOn (2 * p) true j with
      | some i => d.laneAct (2 * p) { tx := true, code := 1, lane := i, cnt := R.OH_T2_MOVE, ref := ref }
      | none => d
    let narrow (ref : Nat) (d : Dev) (p : Nat) : Dev :=
      if d.laneSt (2 * p) true = 0 then move ref d p
      else match d.laneOn (2 * p) true j with
        | some i => d.laneAct (2 * p) { tx := true, code := 5, lane := i, cnt := R.OH_T3_NARROW, ref := ref }
        | none => d
    let d : Dev := if n.b2 = 4 then match d.crossed 0x03 key k j 0xFFFF 2 m with | (d, ref) => ports.foldl (move ref) d else d
    let d : Dev := if n.b3 = 4 then match d.crossed 0x03 key k j 0xFFFF 3 m with | (d, ref) => ports.foldl (narrow ref) d else d
    if o.recovers n ∧ d.on R.OH_SPARE F.OH_SPARE_RESTORE_EN then
      ports.foldl (fun d p =>
        match (d.lk (2 * p)).txMoved with
        | some (i, w) => if w = j then d.laneAct (2 * p) { tx := true, code := 3, lane := i, cnt := R.OH_RESTORE } else d
        | none => d) d
    else d

/-- The lanes of the ports that are UP with their mean powers: those of `powers`, and for a lane that it does not list the last ones (R411). -/
def upLanes (d : Dev) (powers : List LanePower) : List LanePower :=
  (List.range 512).flatMap fun p =>
    if d.linkState (2 * p) = 5 ∨ d.linkState (2 * p + 1) = 5 then
      ((List.range 9).filter fun j => d.linkState (d.codeOf p j) = 5 && (d.waves (d.codeOf p j)).contains j).map fun j =>
        (powers.find? fun x => x.p = p && x.j = j).getD
          { p := p, j := j, tx := sgn 16 (d.fld (R.OH_POWER p j) F.OH_POWER_TX_POWER), rx := sgn 16 (d.fld (R.OH_POWER p j) F.OH_POWER_RX_POWER) }
    else []

/-- The evaluation at a beat boundary whose number is a multiple of 512 (R411): the mean powers of the lanes of ports that are UP, and BIAS_LIMIT as
read over the bus of each module that is seated (R434). -/
def marginEval (d : Dev) (powers : List LanePower) (limits : List (Nat × Nat)) : Dev :=
  if d.beatNo % 512 ≠ 0 ∨ d.actedIn 3 ∨ ¬ d.powered then d
  else
    let d := limits.foldl (fun (d : Dev) (x : Nat × Nat) =>
      if x.1 < 16 ∧ d.on (R.OH_SLOT_STAT x.1) F.OH_SLOT_STAT_PRESENT then
        (d.emit (.slotBus x.1 (busRead 0x40 (x.2 % 512)) d.lc)).setFld (R.OH_SLOT_STAT x.1) F.OH_SLOT_STAT_BIAS_LIMIT x.2
      else d) (d.act1 3)
    let ps := d.upLanes powers
    let d := ps.foldl laneMargin d
    let d := (((ps.map fun x => 9 * (x.p / 16) + x.j).eraseDups).foldl (fun d k => d.lineEval (k / 9) (k % 9))) d
    ps.foldl laneEval d

/-! Calibration visits (R430 to R433). -/

/-- Whether a visit of slot s begins at the boundary in progress: its time lies in the beat before it, or at it. -/
def calDue (d : Dev) (s : Nat) : Bool :=
  let per := d.fld R.OH_CAL F.OH_CAL_PERIOD_S * 1000000000
  let now := d.time.beat * 2048
  if per = 0 then false
  else
    -- the last visit time at or before the boundary, times 4,608
    let t := now * 4608
    let off := s * per
    off ≤ t && (t - off) % (per * 4608) < 2048 * 4608

/-- A visit of a lane begins or is skipped. -/
def calStart (d : Dev) (p j : Nat) : Dev :=
  let c := 2 * p
  if ¬ d.on R.OH_CAL F.OH_CAL_EN ∨ ¬ d.calDue (9 * p + j) ∨ d.optic.cal.isSome ∨ d.actedIn 4 ∨ ¬ d.powered then d
  else
    let d := d.act1 4
    let l := d.lk c
    let skip := d.linkState c ≠ 5 || d.isSplit p || d.indigo p || (j ≠ 8 && (l.txSt ≠ 0 || l.rxSt ≠ 0)) ||
      l.txCmd.isSome || l.rxCmd.isSome || d.conflicts [member 1 p]
    if skip then d.inc R.OH_CAL_SKIP
    else
      let (d, h) := d.maintBegin 0x8001 true [member 1 p] 0
      let d := (d.setFld (R.OH_PORT p) F.OH_PORT_CAL_ACTIVE 1).setFld (R.OH_PORT p) F.OH_PORT_CAL_LANE j
      let v : Cal := { p := p, j := j, start := d.lc, handle := h }
      if j = 8 then
        -- neither direction has parity until trust returns (R433)
        (((d.setCal (some { v with dwell := some d.lc, rx := true })).calInto p j false).calInto p j true).updLk c fun l => { l with trust := 0 }
      else
        let d := d.setCal (some v)
        match d.laneOn c true j, d.laneOn c false j with
        | some i, some i' =>
          if d.laneOk c then
            let d := d.laneStart c true 1 i 8 true 0
            (d.setCal (some { v with asked := true })).laneStart c false 1 i' 8 true 0
          else d.calFailed c
        | _, _ => d.calFailed c

/-- The dwell of a visit is over; after that, what its handshakes still wait for is looked at again. -/
def calDwellEnd (d : Dev) : Dev :=
  match d.optic.cal with
  | some v =>
    if v.restoring then d.calCheck (2 * v.p)
    else match v.dwell with
    | some t => if t + usCounts (100 * d.fld R.OH_CAL F.OH_CAL_DWELL) ≤ d.lc then d.calRestore (2 * v.p) else d
    | none => d
  | none => d

/-! Laser slots (R434 to R436). -/

/-- The 32 ports of a slot go down with cause 0x7. -/
def slotDown (d : Dev) (k : Nat) : Dev := (List.range 64).foldl (fun d i => d.linkDown (64 * k + i) 7) d

/-- LM_EN of a slot. -/
def setLmEn (d : Dev) (k : Nat) (on : Bool) : Dev :=
  if d.power.lmEn.getD k false = on then d
  else
    let d := { d with power := { d.power with lmEn := d.power.lmEn.set k on } }
    let d := { d with optic := { d.optic with tapT := Sparse.del d.optic.tapT k } }
    let d := d.emit (.pin "LM_EN" k on d.lc)
    if on then
      -- the pilot identity code of each laser line, from now on (R403), and the time without a read of the transmit rings (R407)
      let d := (List.range 18).foldl (fun (d : Dev) i => d.emit (.pilot (2 * k + i / 9) (i % 9) d.lc (pilotFrame (i % 9)))) d
      (List.range 288).foldl (fun d i => d.readFrom (32 * k + i / 9) (i % 9) false) d
    else d.setFld (R.OH_SLOT_STAT k) F.OH_SLOT_STAT_READY 0

/-- Whether LM_EN may stand: not in Umber, on the way into it, or in a wake before 18.0 ms (R557, R560, R563). -/
def lmMay (d : Dev) : Bool := d.running || (d.pwState = 3 && d.power.begun + 22500000 ≤ d.lc)

/-- EN of OH_SLOT_CTRL written. -/
def slotEnable (d : Dev) (k : Nat) (en : Bool) : Dev :=
  let d := d.setFld (R.OH_SLOT_CTRL k) F.OH_SLOT_CTRL_EN (b2n en)
  if en then d.setLmEn k (d.on (R.OH_SLOT_STAT k) F.OH_SLOT_STAT_PRESENT && d.lmMay) else (d.setLmEn k false).slotDown k

/-- LM_PRESENT rises. -/
def moduleIn (d : Dev) (k : Nat) : Dev :=
  let d := d.setFld (R.OH_SLOT_STAT k) F.OH_SLOT_STAT_PRESENT 1
  if d.on (R.OH_SLOT_CTRL k) F.OH_SLOT_CTRL_EN ∧ d.lmMay then d.setLmEn k true else d

/-- LM_PRESENT drops (R435). -/
def moduleOut (d : Dev) (k : Nat) : Dev :=
  if d.on (R.OH_SLOT_STAT k) F.OH_SLOT_STAT_PRESENT then
    let d := (((d.setFld (R.OH_SLOT_STAT k) F.OH_SLOT_STAT_PRESENT 0).setLmEn k false).error 0x04 k 0x16 3 []).slotDown k
    { d with optic := { d.optic with tap0 := Sparse.del d.optic.tap0 k } }
  else d

/-- The GS5 reads the nine TAPs of a module whose LM_EN is asserted over the slot's bus (R434), in 0.01 dBm. READY is set once every TAP has read within 1 dB
of its value at the module's first enable for 10 ms (R436). -/
def laserReady (d : Dev) (k : Nat) (taps : List Int) : Dev :=
  if d.power.lmEn.getD k false then
    let d := (List.range 9).foldl (fun (d : Dev) j => d.emit (.slotBus k (busRead (0x12 + 4 * j) (unsgn 16 (taps.getD j 0))) d.lc)) d
    let first := (Sparse.find d.optic.tap0 k).getD taps
    let d := { d with optic := { d.optic with tap0 := Sparse.ins d.optic.tap0 k first } }
    let near := (List.range 9).all fun j => ((taps.getD j 0) - (first.getD j 0)).natAbs ≤ 100
    if near then
      let since := (Sparse.find d.optic.tapT k).getD d.lc
      let d := { d with optic := { d.optic with tapT := Sparse.ins d.optic.tapT k since } }
      if since + usCounts 10000 ≤ d.lc then d.setFld (R.OH_SLOT_STAT k) F.OH_SLOT_STAT_READY 1 else d
    else { d with optic := { d.optic with tapT := Sparse.del d.optic.tapT k } }
  else d

/-! Indigo circuits (R395 to R400). -/

/-- Whether a port is in an enabled pair entry. -/
def inPair (d : Dev) (p : Nat) : Bool := (d.pairOf p).isSome

/-- The rings of a port that joins a circuit: OH_RING reads OFF, and the lock loops keep running (R400, R406); a ring that was OFF searches. -/
def ringsHide (d : Dev) (p : Nat) : Dev :=
  let now := (List.range 18).map fun i => (ringKey p (i / 2) (i % 2 = 1), d.ring p (i / 2) (i % 2 = 1))
  let d := (((d.setLk (2 * p) {}).ringsOff (2 * p)).setState (2 * p) 7).setState (2 * p + 1) 0
  { d with optic := { d.optic with hid := now.foldl (fun h x => Sparse.put 0 h x.1 (if x.2 = 0 then 1 else if x.2 = 5 then 2 else x.2)) d.optic.hid } }

/-- EN written to one (R395), with the entry's PORT_A and PORT_B as they stand. LOS shows the receive lanes that are lost already (R398). -/
def indigoOn (d : Dev) (i : Nat) : Dev :=
  let a := d.fld (R.IND_PAIR i) F.IND_PAIR_PORT_A
  let b := d.fld (R.IND_PAIR i) F.IND_PAIR_PORT_B
  if d.on (R.IND_PAIR i) F.IND_PAIR_EN then d
  else if a ≠ b ∧ ¬ d.inPair a ∧ ¬ d.inPair b ∧ ¬ d.on (R.YZ_CTRL a) F.YZ_CTRL_SPLIT ∧ ¬ d.on (R.YZ_CTRL b) F.YZ_CTRL_SPLIT ∧
      d.on (R.QSTAT_PORT a) F.QACK ∧ d.on (R.QSTAT_PORT b) F.QACK then
    let d := d.setFld (R.IND_PAIR i) F.IND_PAIR_EN 1
    let d := { d with link := { d.link with indT := Sparse.ins d.link.indT i d.lc, indP := Sparse.ins d.link.indP i (a, b) } }
    [a, b].foldl (fun d p =>
      let d := ((((d.flushPort (2 * p)).cutSource (2 * p)).dropCal p).dropActs (2 * p)).ringsHide p
      let d := (d.setFld (R.SC_XOFF (2 * p)) F.SC_XOFF_XOFF_RCVD 0).setFld (R.SC_PORT_FC p) F.SC_PORT_FC_HEADROOM 0
      (List.range 9).foldl (fun d j => d.losNow p j) d) d
  else d.setFld (R.IND_PAIR i) F.IND_PAIR_REFUSED 1

/-- The ports A and B of the circuit of an enabled pair. -/
def circuit (d : Dev) (i : Nat) : Nat × Nat := (Sparse.find d.link.indP i).getD (0, 0)

/-- EN written to zero (R396): both ports stay quiesced; their links train when QREQ is released. -/
def indigoOff (d : Dev) (i : Nat) : Dev :=
  if d.on (R.IND_PAIR i) F.IND_PAIR_EN then
    let (a, b) := d.circuit i
    let d := { d with link := { d.link with indP := Sparse.del d.link.indP i } }
    let d := (d.setFld (R.IND_PAIR i) F.IND_PAIR_EN 0).setFld (R.IND_PAIR i) F.IND_PAIR_ACTIVE 0
    let d := d.setNum (R.IND_STAT i) 0
    [a, b].foldl (fun (d : Dev) p =>
      let d := (d.setState (2 * p) 0).setLk (2 * p) {}
      { d with link := { d.link with ind := d.link.ind ++ [p] },
               optic := { d.optic with hid := d.optic.hid.filter fun x => x.1 / 18 ≠ p } }) d
  else d

/-- The circuit passes codewords (R395), unless its optical engines are off (R557). -/
def indigoActive (d : Dev) (i : Nat) : Dev :=
  if d.powered ∧ d.on (R.IND_PAIR i) F.IND_PAIR_EN then d.setFld (R.IND_PAIR i) F.IND_PAIR_ACTIVE 1 else d

/-- The symbols of a codeword that the bytes of uncorrectable transfers carry are lost: what leaves in their place is free (R528). -/
def cwLose (d : Dev) (cw : List Nat) (wires : List WireErr) : List Nat × Dev :=
  (List.range cw.length).foldl (fun (x : List Nat × Dev) m =>
    if wires.any fun e => e.loses (10 * m / 8) || e.loses ((10 * m + 9) / 8) then match x.2.draw with | (v, d) => (x.1 ++ [v.toNat % 1024], d)
    else (x.1 ++ [cw.getD m 0], x.2)) ([], d)

/-- A codeword on λj of one port leaves unchanged on λj of the other, and a copy is decoded (R397, R399). It is dark while the receive lane is lost (R398),
a ring of the two is not LOCKED (R409), a wire group cuts the lane off (R529), or the partner's laser slot gives no light (R364). The lane is lost at the 64th
consecutive uncorrectable codeword; one that decodes is aligned, and ends the loss of a lit lane (R386). `wires` and `outs` are the wire errors of the transfers that carry the codeword over the
bridges of the two OEs, after the monitor's tap (R528). A quiesced optical engine lets codewords of a circuit pass (R41, R395; DESIGN CHOICE, log entry 90). -/
def indigoPass (d : Dev) (i : Nat) (ab : Bool) (j : Nat) (cw : List Nat) (wires outs : List WireErr) : Dev :=
  let (from', out) : Nat × Nat := if ab then d.circuit i else ((d.circuit i).2, (d.circuit i).1)
  let r := rsDecode cw
  if ¬ d.on (R.IND_PAIR i) F.IND_PAIR_ACTIVE ∨ d.ring from' j true ≠ 2 ∨ d.laneCut from' j true then d
  else
    let old := (d.lk (2 * from')).bad.getD j 0
    let run := if r.isNone then old + 1 else 0
    let d := d.updLk (2 * from') fun l => { l with bad := l.bad.set j run, noAlign := if run = 0 then maskClr l.noAlign j else l.noAlign }
    let d := if run = 64 then d.laneLost from' j true else d.losNow from' j
    let d := wires.foldl (fun d e => d.wireError (from' / 16) e) d
    let los := d.fld (R.IND_STAT i) (if ab then F.IND_STAT_LOS_AB else F.IND_STAT_LOS_BA)
    if bit los j ∨ d.ring out j false ≠ 2 ∨ d.laneCut out j false ∨ ¬ d.power.lmEn.getD (out / 32) false then d
    else
      let d := outs.foldl (fun d e => d.wireError (out / 16) e) d
      let (sent, d) := if (wires ++ outs).isEmpty then (cw, d) else d.cwLose cw (wires ++ outs)
      let d := d.emit (.indigo out d.lc j sent)
      let d := d.inc (if ab then R.IND_AB_CW i else R.IND_BA_CW i)
      match r with
      | none => d.inc (if ab then R.IND_AB_UNCORR i else R.IND_BA_UNCORR i)
      | some (_, 0) => d
      | some (_, _ + 1) => d.inc (if ab then R.IND_AB_CORR i else R.IND_BA_CORR i)

end Dev
end Sys2Proof.Machine
end

