-- ==== Sys2Proof/Machine/Session.lean ====
section
/-! DEFINITION. UCP sessions as the rest of the device sees them: how one closes, what is kept of it, the replies of commands
(spec/14_control_protocol.md R480 to R486, R494). -/
namespace Sys2Proof.Machine
namespace Dev

/-- What a session that closes has begun runs on under no session: window operations and an image commit (R481). -/
def orphan (d : Dev) (n : Nat) : Dev :=
  let st := d.mgmt.staging
  { d with mgmt := { d.mgmt with
      winQ := d.mgmt.winQ.map fun (x : WinOp) => if x.sess = n then { x with sess := 8 } else x,
      staging := if st.owner = some n ∧ st.commit.isSome then { st with owner := some 8, commit := st.commit.map fun (c : Nat × Nat) => (8, c.2) } else st } }

/-- Record the close of a session and free its slot (R480, R481). A command begun runs on; its reply is sent only for cause 0x1. -/
def closeSess (d : Dev) (n cause : Nat) : Dev :=
  let s := d.sessAt n
  if s.state = 0 then d
  else
    let st := d.mgmt.staging
    let d := (d.setSess n {}).orphan n
    let d := if s.state = 2 then { d with mgmt := { d.mgmt with recs := d.mgmt.recs.set n (s.next - 1, cause) } } else d
    if st.owner = some n ∧ st.commit.isNone then { d with mgmt := { d.mgmt with staging := {} } } else d

/-- Close every session that passes a test. -/
def closeWhere (d : Dev) (f : Sess → Bool) (cause : Nat) : Dev :=
  (List.range 8).foldl (fun d n => if f (d.sessAt n) then d.closeSess n cause else d) d

/-- The management port's link goes down or the port is quiesced: its sessions close with cause 0x4. -/
def closePort (d : Dev) : Dev := d.closeWhere (fun s => s.ep.kind ≠ 2) 4

/-- The REPLY frame of command `seq` (R485). -/
def replyFrame (s : Sess) (n seq op status detail : Nat) (data : List Byte) : List Byte := ucpSeal s n 6 1 seq op status (beBytes detail 4 ++ data)

/-- Send the reply of command `seq`, which was executed, and keep it among the last 64 (R484). -/
def reply (d : Dev) (n seq op status detail : Nat) (data : List Byte) : Dev :=
  let s := d.sessAt n
  if s.state ≠ 2 then d
  else
    let f := replyFrame s n seq op status detail data
    let c := s.cache ++ [(seq, f)]
    (d.setSess n { s with run := if s.run.any (fun r => r.1.seq = seq) then none else s.run, cache := c.drop (c.length - 64) }).sendUcp s.ep n f

/-- Answer ABORTED to a command that was not executed (R487): the reply is not among those that R484 keeps. -/
def replyAborted (d : Dev) (n seq op : Nat) : Dev :=
  let s := d.sessAt n
  if s.state ≠ 2 then d else d.sendUcp s.ep n (replyFrame s n seq op 7 0 [])

end Dev
end Sys2Proof.Machine
end

