-- ==== Sys2Proof/Machine/Quiesce.lean ====
section
/-! DEFINITION. Quiesce units (spec/01_architecture.md R38 to R42), the headroom reservation of a port (spec/04_switch_core.md R156, R157) and the epoch
change of a pipeline (spec/03_forwarding.md R124 to R127). -/
namespace Sys2Proof.Machine

/-- The quiesce units (R499). -/
inductive QUnit where
  | port (p : Nat) | pl (p : Nat) | vb (b : Nat) | xs (s : Nat) | lake | oe (k : Nat) | tu | ch (c : Nat) | mp
deriving DecidableEq, Repr

/-- Whether the unit exists (R14). -/
def QUnit.ok : QUnit → Bool
  | .port p => p < 512
  | .pl p => p < 16
  | .vb b => b < 16
  | .xs s => s < 17
  | .oe k => k < 32
  | .ch c => c < 64
  | .lake | .tu | .mp => true

/-- QCTRL of a unit; QSTAT is the next word (R499). -/
def QUnit.ctrl : QUnit → Nat
  | .port p => R.QCTRL_PORT p
  | .pl p => R.QCTRL_PL p
  | .vb b => R.QCTRL_VB b
  | .xs s => R.QCTRL_XS s
  | .lake => R.QCTRL_LAKE
  | .oe k => R.QCTRL_OE k
  | .tu => R.QCTRL_TU
  | .ch c => R.QCTRL_CH c
  | .mp => R.QCTRL_MP

/-- QSTAT of a unit. -/
def QUnit.stat (u : QUnit) : Nat := u.ctrl + 4

/-- The block and instance of a unit in an error record (R502). -/
def QUnit.source : QUnit → Nat × Nat
  | .port p => (0x01, 2 * p)
  | .pl p => (0x06, p)
  | .vb b => (0x0A, b)
  | .xs s => (0x07, s)
  | .lake => (0x08, 0)
  | .oe k => (0x11, k)
  | .tu => (0x0E, 0)
  | .ch c => (0x0F, c)
  | .mp => (0x12, 0)

/-- Headroom cells of one logical port (R156). -/
def headroomOf (rate len : Nat) : Nat := ceilDiv (rate * (10 * len + 500) + 8448) 256

/-- Cells of the headroom pool (R157). -/
def headroomPool : Nat := 393216

namespace Dev

def qreq (d : Dev) (u : QUnit) : Bool := d.on u.ctrl F.QREQ
def qack (d : Dev) (u : QUnit) : Bool := d.on u.stat F.QACK
def draining (d : Dev) (u : QUnit) : Bool := d.on u.stat F.DRAINING

/-- Set QREQ, DRAINING and QACK of a unit. -/
def setQ (d : Dev) (u : QUnit) (req dr ack : Bool) : Dev :=
  ((d.setFld u.ctrl F.QREQ (b2n req)).setFld u.stat F.DRAINING (b2n dr)).setFld u.stat F.QACK (b2n ack)

/-- Headroom reserved for a port, its field the low bits of it (R157). -/
def setHr (d : Dev) (p n : Nat) : Dev :=
  { d.setFld (R.SC_PORT_FC p) F.SC_PORT_FC_HEADROOM n with
    core := { (d.setFld (R.SC_PORT_FC p) F.SC_PORT_FC_HEADROOM n).core with hr := Sparse.put 0 d.core.hr p n } }

/-- Cells of the headroom pool reserved: HR_RESERVED. -/
def hrReserved (d : Dev) : Nat := (d.core.hr.map (·.2)).sum

/-- The headroom a port needs in the mode that SPLIT selects (R156, R157). -/
def hrNeed (d : Dev) (p : Nat) : Nat :=
  if d.on (R.YZ_CTRL p) F.YZ_CTRL_SPLIT then headroomOf 60 (d.cableM (2 * p)) + headroomOf 60 (d.cableM (2 * p + 1))
  else headroomOf 120 (d.cableM (2 * p))

/-- A unit begins to drain (R39): a write of one to QREQ. -/
def quiesceRequest (d : Dev) (u : QUnit) : Dev :=
  if d.qreq u then d
  else match u with
    | .xs _ => d
    | _ =>
      let d := d.setQ u true true false
      let d := { d with core := { d.core with drains := Sparse.ins d.core.drains u.ctrl d.lc } }
      match u with
      | .mp => ({ d with mgmt := { d.mgmt with mpUp := false } }).closePort
      | _ => d

/-- Packets that stand between a port and its quiescence: queued towards it, or admitted from it. -/
def portPkts (d : Dev) (lo hi : Nat) : List Pkt :=
  d.core.pkts.filter fun k => (lo ≤ k.port && k.port < hi && !k.orig) || k.copies.any fun x => lo ≤ x.out && x.out < hi

/-- Whether a draining unit is drained (01_architecture.md). -/
def drained (d : Dev) (u : QUnit) : Bool :=
  match u with
  | .port p => (d.portPkts (2 * p) (2 * p + 2)).isEmpty
  | .pl p => (d.portPkts (64 * p) (64 * p + 64)).isEmpty
  | .vb b => d.vat.ctxs.all fun c => c.lv / 96 ≠ b
  | .lake => (List.range 16).all fun i => d.qack (.pl i) && d.qack (.vb i)
  | .oe k => (List.range 16).all fun i => d.qack (.port (16 * k + i))
  | .xs _ | .tu | .ch _ | .mp => true

/-- A unit is quiesced; a port's headroom returns to the pool (R157); a channel is in self-refresh. -/
def setQuiesced (d : Dev) (u : QUnit) : Dev :=
  let d := d.setQ u true false true
  let d := { d with core := { d.core with drains := Sparse.del d.core.drains u.ctrl } }
  match u with
  | .port p => d.setHr p 0
  | .ch c => if d.chState c = 0 then d.setFld (R.DD_CHSTAT c) F.DD_CHSTAT_STATE 1 else d
  | _ => d

/-- The drain ends (R39). -/
def quiesceDrained (d : Dev) (u : QUnit) : Dev := if d.draining u ∧ d.drained u then d.setQuiesced u else d

/-- The drain bound of a unit in local counts (R40). The longest age limit of a port or a pipeline is that of SC_AGE as it stands when the bound is looked at, and
the longest timeout of a vat bank that of the contexts then open (DESIGN CHOICE, log entry 70): the table does not say of which moment it speaks. -/
def drainBound (d : Dev) (u : QUnit) : Option Nat :=
  let beats n := 2560 * n
  match u with
  | .port _ | .pl _ => some (usCounts d.maxAgeUs + beats 2)
  | .vb b => some (usCounts ((d.vat.ctxs.filter fun c => c.lv / 96 = b).foldl (fun m c => max m c.timeout) 0) + beats 2)
  | .xs _ | .tu => some (beats 1)
  | .lake | .oe _ => none
  | .ch _ => some (usCounts 10)
  | .mp => some (usCounts 1000)

/-- Discard what a unit still holds; how many packets or contexts that was. A copy whose transmission has begun completes (R150). Each discard is
captured (R614). -/
def drainDrop (d : Dev) (u : QUnit) : Nat × Dev :=
  let ports (lo hi : Nat) : Nat × Dev :=
    (d.portPkts lo hi).foldl (fun (y : Nat × Dev) k =>
      match y.2.pkt? k.id with
      | none => y
      | some k =>
        let mine := lo ≤ k.port && k.port < hi && !k.orig
        let out := k.copies.filter fun x => x.stage ≠ .sending && (mine || (lo ≤ x.out && x.out < hi))
        if k.copies = [] then (y.1 + 1, (y.2.captureFree k.unit k 0x3FF).takePkt k.id)
        else if out = [] then y
        else (y.1 + 1, out.foldl (fun d x => match d.pkt? k.id with | some k => (d.captureFree (copyUnit k x) k x.out).dropCopy k x.out | none => d) y.2))
      (0, d)
  match u with
  | .port p => ports (2 * p) (2 * p + 2)
  | .pl p => ports (64 * p) (64 * p + 64)
  | .vb b =>
    let l := d.vat.ctxs.filter fun c => c.lv / 96 = b
    (l.length, l.foldl (fun d c => (d.flushCtx c.lv c.slot).inc R.CE_FLUSHED) d)
  | _ => (0, d)

/-- The drain bound is reached (R40). -/
def forcedQuiesce (d : Dev) (u : QUnit) : Dev :=
  match d.drainBound u with
  | none => d
  | some t =>
    if d.draining u ∧ Sparse.get 0 d.core.drains u.ctrl + t ≤ d.lc then
      let (n, d) := d.drainDrop u
      let d := { d with core := { d.core with discards := Sparse.put 0 d.core.discards u.ctrl (Sparse.get 0 d.core.discards u.ctrl + n) } }
      let d := (d.setQuiesced u).setFld u.stat F.QFORCED 1
      d.error u.source.1 u.source.2 0x01 2 [n]
    else d

/-- A port is released: its headroom is reserved or denied (R157), a link in the other mode trains again, and one that left a circuit trains (R396). A headroom cell out of service under R191
is not in the pool. -/
def portRelease (d : Dev) (p : Nat) : Dev :=
  let u := QUnit.port p
  let need := d.hrNeed p
  let free := headroomPool - d.hrLost - (d.hrReserved - Sparse.get 0 d.core.hr p)
  if d.indigo p then d
  else if free < need then (d.setFld R.SC_HR_POOL F.SC_HR_POOL_HR_DENY 1).error 0x01 (2 * p) 0x11 2 [need, free]
  else
    let d := (d.setQ u false false false).setHr p need
    let split := d.on (R.YZ_CTRL p) F.YZ_CTRL_SPLIT
    let up := [2 * p, 2 * p + 1].filter fun c => d.linkState c = 5
    let d := if up ≠ [] ∧ d.isSplit p ≠ split then (up.foldl (fun d c => d.linkDown c 8) d).trainPort p else d
    if d.link.ind.contains p then ({ d with link := { d.link with ind := d.link.ind.filter (· ≠ p) } }).startPort p else d

/-- A unit is released into operation: a write of zero to QREQ (R38, R42). A port whose release is denied (R157) keeps its drain. -/
def quiesceRelease (d : Dev) (u : QUnit) : Dev :=
  if ¬ d.qreq u then d
  else
    let d' := { d with core := { d.core with drains := Sparse.del d.core.drains u.ctrl } }
    match u with
    | .port p =>
      let d2 := d'.portRelease p
      if d.indigo p then d else if d2.qreq u then d.portRelease p else d2
    | .xs s => if s = d.fld R.SC_SLICE F.SC_SLICE_SPARE then d else d'.setQ u false false false
    | .ch c =>
      let d := d'.setQ u false false false
      if d.chState c = 1 ∧ d.running then d.setFld (R.DD_CHSTAT c) F.DD_CHSTAT_STATE 0 else d
    | _ => d'.setQ u false false false

/-! Routing epochs. -/

/-- A change of CUR_EPOCH of a pipeline is accepted or refused (R124). FW_RETIRE is written by `setRetire`. -/
def epochWrite (d : Dev) (p v : Nat) : Dev :=
  let cur := d.curEpoch p
  if v = cur then d
  else if v = (cur + 1) % 4 ∧ ¬ d.prevHeld p ∧ ¬ d.copying p then
    (d.setFld (R.FW_EPOCH p) F.FW_EPOCH_CUR_EPOCH v).setFld (R.FW_EPOCH p) F.FW_EPOCH_PREV_HELD 1
  else (d.setFld (R.FW_EPOCH p) F.FW_EPOCH_EPOCH_REFUSED 1).error 0x06 p 0x20 2 [cur, v]

/-- FW_RETIRE of a pipeline whose epoch changed at boundary B, with the age limits in effect after steps 2 and 3 (R125). -/
def setRetire (d : Dev) (p : Nat) : Dev :=
  let b := (d.time.beat + ceilDiv (d.maxAgeUs * 1000) 2048 + 2) % 2 ^ 48
  (d.setNum (R.FW_RETIRE_LO p) (b % 2 ^ 32)).setNum (R.FW_RETIRE_HI p) (b / 2 ^ 32)

/-- FW_RETIRE. -/
def retireBeat (d : Dev) (p : Nat) : Nat :=
  (d.reg (R.FW_RETIRE_LO p)).toNat + bits (d.reg (R.FW_RETIRE_HI p)).toNat 15 0 * 2 ^ 32

/-- RETIRE_NOW was written before the last boundary. -/
def retireAsked (d : Dev) (p : Nat) : Bool := d.tab.retireReq.any fun x => x.1 = p && x.2 < d.time.beat

/-- The previous bank of a pipeline retires where it is due (R126): at beat B + W or after RETIRE_NOW. Every fence hold of the pipeline is released (R127), whatever
epoch follows at the same boundary. -/
def prevRetire (d : Dev) (p : Nat) : Dev :=
  if d.prevHeld p ∧ (d.retireAsked p ∨ d.beatNo = d.retireBeat p) then
    { d.setFld (R.FW_EPOCH p) F.FW_EPOCH_PREV_HELD 0 with
      tab := { d.tab with retireReq := d.tab.retireReq.filter (·.1 ≠ p) },
      core := { d.core with pkts := d.core.pkts.map fun k => if plOf k.port = p && (k.place = .fence || k.place = .stall) then { k with opened := true } else k } }
  else d

/-- A write of one to RETIRE_NOW (R126). -/
def retireNow (d : Dev) (p : Nat) : Dev :=
  if d.prevHeld p ∧ ¬ d.tab.retireReq.any (·.1 = p) then { d with tab := { d.tab with retireReq := d.tab.retireReq ++ [(p, d.time.beat)] } } else d

end Dev
end Sys2Proof.Machine
end

