-- ==== Sys2Proof/Machine/Telemetry.lean ====
section
/-! DEFINITION. Snapshots, reports, history rings and the flight recorder's freeze (spec/18_telemetry.md). -/
namespace Sys2Proof.Machine

/-- Bytes of a word list, most significant byte first. -/
def wordsBe (l : List Nat) (k : Nat) : List Byte := l.flatMap fun n => beBytes n k

namespace Dev

/-- Snapshot of a counter (R600). -/
def snapOf (d : Dev) (a : Nat) : Nat := Sparse.get 0 d.csr.snap a

/-- The flight recorder stops after the POST records that follow a trigger (R616). -/
def flightFreeze (d : Dev) : Dev :=
  if d.tel.post = some 0 then { d.setFld R.TM_FR_CTRL F.TM_FR_CTRL_FROZEN 1 with tel := { d.tel with post := none } } else d

/-- Performance monitor sets with a CLEAR waiting are zeroed (R605). -/
def pmClears (d : Dev) : Dev :=
  let d := d.tel.pmClear.foldl (fun d base =>
    ([base + 8] ++ (List.range 8).map fun n => base + 0x40 + 8 * n).foldl clearCtr d) d
  { d with tel := { d.tel with pmClear := [] } }

/-- Step 1 of R35: every counter is copied into its snapshot (R600). In Umber none is taken (R602). -/
def snapshot (d : Dev) : Dev :=
  if d.pwState ≠ 2 then { d with csr := { d.csr with snap := d.csr.ctrs } } else d

/-! Reports (R608 to R611). -/

/-- The 8-byte header of a report. -/
def repHdr (d : Dev) (typ n : Nat) : List Byte :=
  [BitVec.ofNat 8 typ, BitVec.ofNat 8 n, 0, 0] ++ beBytes ((d.time.beat - 1) % 2 ^ 32) 4

/-- The score of a port code and the VC that gives it (R610). -/
def congestion (d : Dev) (c : Nat) : Nat × Nat :=
  (List.range 8).foldl (fun b v =>
    let x := d.fld (R.EG_SAMPLE_B (plOf c) (8 * (c % 64) + v)) F.EG_SAMPLE_B_DELAY_MAX
    if b.1 < x then (x, v) else b) (0, 0)

/-- Insert a scored element behind those of the same or a higher score. -/
def insScore (x : Nat × Nat) : List (Nat × Nat) → List (Nat × Nat)
  | [] => [x]
  | y :: r => if y.1 < x.1 then x :: y :: r else y :: insScore x r

/-- The `n` elements of highest score, the earlier first on a tie. -/
def topScores (l : List (Nat × Nat)) (n : Nat) : List (Nat × Nat) := (l.foldl (fun a x => insScore x a) []).take n

/-- The port codes whose samples are not zero. -/
def sampledCodes (d : Dev) : List Nat := (List.range 1024).filter fun c => 0 < (d.congestion c).1

/-- CONGESTION. -/
def repCongestion (d : Dev) : List Byte :=
  let min := d.fld R.TM_CONG F.TM_CONG_CONG_MIN_NS
  let cands := if min = 0 then List.range 1024 else d.sampledCodes
  let l := topScores ((cands.filter fun c => min ≤ (d.congestion c).1).map fun c => ((d.congestion c).1, c)) 16
  d.repHdr 1 l.length ++ l.flatMap fun x =>
    let c := x.2
    let v := (d.congestion c).2
    let i := 8 * (c % 64) + v
    let b := (d.reg (R.EG_SAMPLE_B (plOf c) i)).toNat
    let a := (d.reg (R.EG_SAMPLE_A (plOf c) i)).toNat
    let nb := (d.reg (if c % 2 = 0 then R.YZ_NEIGH (c / 2) else R.YZ_NEIGH1 (c / 2))).toNat
    beBytes c 2 ++ [BitVec.ofNat 8 v, BitVec.ofNat 8 (b2n (bit b 31) + 2 * b2n (bit b 30) + 4 * b2n (bit b 29))] ++ beBytes x.1 4 ++
      beBytes (a % 65536) 2 ++ beBytes (a / 65536) 2 ++ beBytes (if bit nb 31 then nb % 2 ^ 18 else 2 ^ 32 - 1) 4

/-- SLOWEST: each valid watch slot (R611). -/
def repSlowest (d : Dev) : List Byte :=
  let slots := (List.range 16).filter fun i => d.on (R.CE_WATCH i) F.CE_WATCH_VALID
  d.repHdr 2 slots.length ++ slots.flatMap fun i =>
    let codes := (d.ce.watch.filter fun x => x.1 / 1024 = i).map fun (x : Nat × (Nat × Nat)) => (x.2.1, x.1 % 1024)
    let top := topScores codes 4
    beBytes (d.fld (R.CE_WATCH i) F.CE_WATCH_GROUP) 2 ++ [0, 0] ++ beBytes (d.ctr (R.CE_W_CHUNKS i)) 8 ++ beBytes (d.ctr (R.CE_W_SPREAD i)) 8 ++
      (List.range 4).flatMap fun k =>
        match top[k]? with
        | some x => beBytes x.2 2 ++ [0, 0] ++ beBytes x.1 4 ++ beBytes (Sparse.get (0, 0) d.ce.watch (1024 * i + x.2)).2 8
        | none => List.replicate 16 0

/-- HOT. -/
def repHot (d : Dev) : List Byte :=
  d.repHdr 3 16 ++ (List.range 16).flatMap fun p => beBytes (d.reg (R.MS_HOT_A p)).toNat 4 ++ beBytes (d.reg (R.MS_HOT_B p)).toNat 4

/-- COUNTERS: the counters of the 36 units in order. -/
def countersList (d : Dev) : List Nat :=
  pmUnits.flatMap fun u => d.snapOf (u.base + 8) :: (List.range 8).map fun n => d.snapOf (u.base + 0x40 + 8 * n)

/-- The body of a COUNTERS report, most significant byte first (R10); an LPDDR6 record holds the same values least significant byte first (R11). -/
def countersBody (d : Dev) : List Byte := d.countersList.flatMap fun n => beBytes n 8

/-- The report of a bit of the mask. -/
def report (d : Dev) (k : Nat) : List Byte :=
  match k with
  | 0 => d.repCongestion
  | 1 => d.repSlowest
  | 2 => d.repHot
  | _ => d.repHdr 4 36 ++ d.countersBody

/-- A session's reports are built at step 1 of boundary N, so that they describe beat N - 1 (R608). -/
def reportBuild (d : Dev) (n : Nat) : Dev :=
  let s := d.sessAt n
  if s.state = 2 ∧ s.report ≠ 0 ∧ bit s.mask 5 ∧ s.period ≠ 0 ∧ d.beatNo % s.period = 0 then
    d.setSess n { s with reps := s.reps ++ ((List.range 4).filter (bit s.report)).map d.report }
  else d

/-- The reports that fall due at a boundary. -/
def reportsBuild (d : Dev) : Dev := (List.range 8).foldl reportBuild d

/-- A session's reports are sent, each as one event. -/
def reportOn (d : Dev) (n : Nat) : Dev :=
  (d.sessAt n).reps.foldl (fun (d : Dev) r => (if d.eventRoom n 5 then d.inc R.TM_REPORTS else d).eventOn n 5 0x800A r)
    (d.setSess n { d.sessAt n with reps := [] })

/-- The reports that boundaries have built are sent (R608). -/
def reports (d : Dev) : Dev := (List.range 8).foldl reportOn d

/-! History rings (R612, R613). -/

/-- Write one record of ring 0 or 1, its header first, over the oldest records (R613). One that cannot be written is missed (R612). -/
def ringWrite (d : Dev) (r : Nat) (body : List Byte) : Dev :=
  let size := d.ringBytes r
  let n := 16 + body.length
  let turn := Sparse.get 0 d.tel.turns r
  let miss := Sparse.get 0 d.tel.missed r
  let pieces := d.ringPieces r (n * turn % max size 1) n
  if ¬ d.on (R.TM_RING_CTRL r) F.TM_RING_CTRL_EN ∨ size = 0 then d
  else if pieces.any fun x => d.recordShut r x.1 x.2 then
    { d with tel := { d.tel with missed := Sparse.put 0 d.tel.missed r (miss + 1) } }.ringGapCount r
  else
    let beat := (d.time.beat - 1) % 2 ^ 48
    let l := d.ringRecs r ++ [[BitVec.ofNat 8 r, BitVec.ofNat 8 (b2n (0 < miss)), 0, 0] ++ leBytes miss 4 ++ leBytes beat 8 ++ body]
    let d := d.setRecs r (l.drop (l.length - ceilDiv size n))
    let d := { d with tel := { d.tel with missed := Sparse.put 0 d.tel.missed r 0, turns := Sparse.put 0 d.tel.turns r (turn + 1) } }
    let d := pieces.foldl (fun (d : Dev) x => d.ddrWrite x.1 x.2) d
    d.setNum (R.TM_RING_STAT r) (((d.reg (R.TM_RING_STAT r)).toNat + 1) % 2 ^ 32)

/-- The record of ring 0: every queue's samples, port codes ascending. -/
def ringQueues (d : Dev) : Dev :=
  if ¬ d.on (R.TM_RING_CTRL 0) F.TM_RING_CTRL_EN then d
  else d.ringWrite 0 ((List.range 8192).flatMap fun q =>
    let p := q / 512
    leBytes (d.reg (R.EG_SAMPLE_A p (q % 512))).toNat 4 ++ leBytes (d.reg (R.EG_SAMPLE_B p (q % 512))).toNat 4)

/-- The record of ring 1: the COUNTERS body, then the 448 bytes of every per-port set. -/
def ringCounters (d : Dev) : Dev :=
  if ¬ d.on (R.TM_RING_CTRL 1) F.TM_RING_CTRL_EN then d
  else d.ringWrite 1 ((d.countersList.flatMap fun n => leBytes n 8) ++ (List.range 1024).flatMap fun c =>
    (List.range 56).flatMap fun k => leBytes (d.snapOf (0x0A100000 + 0x400 * c + 8 * k)) 8)

/-- Whether a dump of ring 1 falls due at the boundary in progress. -/
def dumpDue (d : Dev) : Bool :=
  let n := d.fld R.TM_CTRL F.TM_CTRL_DUMP_BEATS
  n ≠ 0 && d.beatNo % n = 0

/-- The word at an offset of a ring, zero where nothing is held (R613). -/
def ringWord (d : Dev) (r o : Nat) : Nat :=
  if r = 2 then
    match d.tel.flight.find? fun (f : Flight) => f.place = o / 64 with
    | some f => leNat (slice (flightBytes f) (o % 64) 4)
    | none => 0
  else leNat ((List.range 4).map fun b => d.ringByte r (o + b))

/-- The ring and the offset in it that word `i` of the ring window shows. -/
def windowAt (d : Dev) (i : Nat) : Nat × Nat := (d.fld R.TM_RWIN F.TM_RWIN_RING, d.fld R.TM_RWIN F.TM_RWIN_PAGE * 4096 + 4 * i)

/-- The dump of ring 1 at the boundary in progress, where one falls due (R612); in Umber the beat does none (R560). -/
def ringDump (d : Dev) : Dev := if d.dumpDue ∧ d.powered ∧ ¬ d.actedIn 1 then (d.act1 1).ringCounters else d

/-- The words of the ring window. -/
def windowWord (a : Nat) : Bool := 0x0A002000 ≤ a && a < 0x0A003000

/-- The burst that holds a word of the page that the ring window shows: none behind the ring's end, where there is no ring. -/
def windowBurst (d : Dev) (i : Nat) : Option Nat :=
  match d.windowAt i with
  | (r, o) => if r < 3 ∧ o < d.ringBytes r then some ((d.ringBase r + o) / 32) else none

/-- Whether a read of a word waits: it is a word of the ring window, and its channel takes no access (R627). -/
def windowShut (d : Dev) (a : Nat) : Bool :=
  windowWord a && match d.windowBurst ((a % 0x1000000 - 0x2000) / 4) with | some b => d.ddrShut (32 * b) 32 | none => false

/-- A word of the page that the ring window shows is read from LPDDR6 (R613): zero where the read is uncorrectable (R625). -/
def windowRead (d : Dev) (i : Nat) : Nat × Dev :=
  match d.windowBurst i with
  | none => (0, d)
  | some b =>
    match d.burstRead b with
    | (true, d) => (d.ringWord (d.windowAt i).1 (d.windowAt i).2, d)
    | (false, d) => (0, d)

/-- The bursts of a flight record. -/
def flightBursts (d : Dev) (f : Flight) : List Nat := ddrBursts (d.ringBase 2 + 64 * f.place) 64

/-- The records that a FLIGHT_READ of up to `n` reads: one that cannot be read is skipped (R625) and another is read in its place. -/
def flightPicks (d : Dev) : List Flight → Nat → List Flight
  | [], _ => []
  | f :: l, n => if n = 0 then [] else f :: d.flightPicks l (if (d.flightBursts f).any d.burstLost then n else n - 1)

/-- The records of a FLIGHT_READ: from the first held at or after a sequence number (R617). -/
def flightFrom (d : Dev) (from' n : Nat) : List Flight :=
  d.flightPicks (d.tel.flight.filter fun f => (f.seq + 2 ^ 32 - from' % 2 ^ 32) % 2 ^ 32 < 2 ^ 31) n

/-- Whether a FLIGHT_READ waits for a channel that takes no access (R627). -/
def flightShut (d : Dev) (from' n : Nat) : Bool := (d.flightFrom from' n).any fun f => d.ddrShut (d.ringBase 2 + 64 * f.place) 64

/-- FLIGHT_READ: the bytes of the records read, in sequence order. -/
def flightRead (d : Dev) (from' n : Nat) : List Byte × Dev :=
  (d.flightFrom from' n).foldl (fun (x : List Byte × Dev) f =>
    match x.2.burstsRead (d.flightBursts f) with
    | ([], d) => (x.1 ++ flightBytes f, d)
    | (_, d) => (x.1, d)) ([], d)

end Dev
end Sys2Proof.Machine
end

