-- ==== Sys2Proof/Machine/TimeUnit.lean ====
section
/-! DEFINITION. Packets that the management complex and the time unit originate (spec/05_lake.md R662), and the time unit up to the step of
fabric time: rate, state of the servo, parents, announcements, time pulse outputs (spec/13_time.md R438 to R446, R452, R460 to R462). -/
namespace Sys2Proof.Machine

/-- An announcement that makes its port usable (R446). -/
def Ann.usable (a : Ann) : Bool := (a.state = 2 || a.state = 3) && a.timeSet && a.distance < 15

namespace Dev

/-! Originated packets. -/

/-- The first waiting packet of the time unit (`tu`) or of the management complex is granted cells, in the order formed (R662, R663). A MGMT packet is
routed as R468 gives; an announcement goes to the egress queue of its port (R452). -/
def originatedAdmit (d : Dev) (tu : Bool) : Dev :=
  match d.core.pkts.find? fun k => k.place = .waitCells && decide (k.h.kind = 0x43) = tu with
  | none => d
  | some k =>
    let p := plOf k.port
    let os := d.portOwners k.port k.h.vc 0
    if ¬ d.powered ∨ ¬ d.grants k.cells os then d
    else
      let h := { k.h with epoch := d.curEpoch p, src := d.chipId p }
      let (k, d) := d.chargeMain { k with h := h, age0 := d.lc, arrT := d.fabT, place := .queued } os false
      let d := (d.addPkt k).countAdmit k
      if tu then
        if d.linkUp k.port then
          let d := { d with core := { d.core with eseq := d.core.eseq + 1 } }
          (d.addPkt { k with copies := [{ out := k.port, stage := .egress, n := k.cells, eseq := d.core.eseq }] }).noteDepth k.port k.h.vc
        else ((d.inc (R.FW_PORT_DOWN p)).captureDrop k k.port 0x09).takePkt k.id
      else d.routeHeld p k

/-! The time unit. -/

def tuSrc (d : Dev) : Nat := d.fld R.TU_CTRL F.TU_CTRL_SRC
def tuState (d : Dev) : Nat := d.fld R.TU_STAT F.TU_STAT_STATE
def setTuState (d : Dev) (s : Nat) : Dev := d.setFld R.TU_STAT F.TU_STAT_STATE s

/-- Servo and 1588 run while the time unit neither drains nor is quiesced (01_architecture.md). -/
def tuActive (d : Dev) : Bool := !d.qreq .tu

/-- RATE changes now, with fabric time continuous (R439). -/
def setRate (d : Dev) (r : Int) : Dev :=
  let d := { d.keepBase with time := { d.keepBase.time with baseT := d.fabT, baseLc := d.lc, rate := r } }
  let n := unsgn 48 r
  (d.setNum R.TU_RATE_LO (n % 2 ^ 32)).setNum R.TU_RATE_HI (n / 2 ^ 32)

/-- TU_STAT as it reads: a grandmaster names itself in GM_CHIP, by its chip number as it stands (R442). -/
def tuStat (d : Dev) : Nat := let w := (d.reg R.TU_STAT).toNat; if d.tuSrc = 1 then w else putBits w 17 0 (d.chipId 0)

/-- TIME_SOURCE (R496). -/
def timeEvent (d : Dev) (cause : Nat) : Dev :=
  d.event 3 0x8006 (beBytes d.tuStat 4 ++ [BitVec.ofNat 8 cause, 0, 0, 0])

/-- Local counts of n beats. -/
def beatCounts (n : Nat) : Nat := 2560 * n

/-- The port code of the active parent, when it is named. -/
def parentCode (d : Dev) : Option Nat :=
  if d.on R.TU_STAT F.TU_STAT_ON_SECONDARY then
    if d.on R.TU_PARENT F.TU_PARENT_SEC_VALID then some (d.fld R.TU_PARENT F.TU_PARENT_SEC_CODE) else none
  else if d.on R.TU_PARENT F.TU_PARENT_PRI_VALID then some (d.fld R.TU_PARENT F.TU_PARENT_PRI_CODE) else none

/-- The active parent's last announcement. -/
def parentAnn (d : Dev) : Option Ann := if d.on R.TU_STAT F.TU_STAT_ON_SECONDARY then d.time.annSec else d.time.annPri

/-- Whether a parent port is usable (R446). -/
def portUsable (d : Dev) (valid : Bool) (code : Nat) (a : Option Ann) : Bool := valid && d.linkUp code && a.any Ann.usable

/-- The primary parent port is usable. -/
def primaryUsable (d : Dev) : Bool :=
  d.portUsable (d.on R.TU_PARENT F.TU_PARENT_PRI_VALID) (d.fld R.TU_PARENT F.TU_PARENT_PRI_CODE) d.time.annPri

/-- The local count of the last accepted measurement of the active parent: one that drove the servo, or one of that port before it became active. -/
def parentMeas (d : Dev) : Nat := max d.time.lastMeas (d.parentCode.elim 0 fun c => (Sparse.get ({} : LinkTime) d.time.links c).meas)

/-- Whether the source in use counts as lost (R444): for LINK, by the announcements and measurements of the active parent. -/
def sourceGone (d : Dev) : Bool :=
  match d.tuSrc with
  | 1 =>
    (match d.parentCode with | some c => !d.linkUp c | none => true)
      || d.parentMeas + beatCounts (d.fld R.TU_LIMITS F.TU_LIMITS_HOLD_BEATS) ≤ d.lc
      || (if d.on R.TU_STAT F.TU_STAT_ON_SECONDARY then d.time.annSecLc else d.time.annPriLc) + beatCounts 256 ≤ d.lc
  | 2 => d.time.ptp.expired
  | 3 => d.time.lastPps + 2 * 1250000000 ≤ d.lc
  | _ => false

/-- The mean of the rates of the last beats of LOCKED. -/
def meanRate (l : List Int) : Int := if l.isEmpty then 0 else l.sum / l.length

/-- A source is lost (R444): one record and one event; a LOCKED unit enters HOLDOVER with the mean rate of its last 64 beats (R443). -/
def sourceLost (d : Dev) : Dev :=
  if d.tuActive ∧ ¬ d.time.lost ∧ d.sourceGone then
    let d := { d with time := { d.time with lost := true } }
    let d := if d.tuState = 2 then
        ((d.setTuState 3).inc R.TU_HOLDOVER).setRate (if d.time.rateHist.isEmpty then d.time.rate else meanRate d.time.rateHist)
      else d
    (d.error 0x0E 0 0x59 2 [d.tuSrc]).timeEvent 1
  else d

/-- DISTANCE, GM_CHIP and TIME_SET of a child, which SRC LINK makes this device, from its active parent's last announcement (R442, R446, R456). Without
one they stay (log entry 23). TIME_SET is the parent's while the child is LOCKED, and stays in HOLDOVER. -/
def followAnn (d : Dev) : Dev :=
  match d.parentAnn with
  | some a =>
    if d.tuSrc ≠ 1 then d
    else
      let d := (d.setFld R.TU_STAT F.TU_STAT_DISTANCE (min (a.distance + 1) 255)).setFld R.TU_STAT F.TU_STAT_GM_CHIP a.gmChip
      if d.tuState = 2 then d.setFld R.TU_STAT F.TU_STAT_TIME_SET (b2n a.timeSet) else d
  | none => d

/-- SRC takes effect (R442, R443). A grandmaster is at distance 0 and names itself; a child takes both from its parent. -/
def setSource (d : Dev) (s : Nat) : Dev :=
  let d := d.setFld R.TU_CTRL F.TU_CTRL_SRC s
  let d := { d with time := { d.time with small := 0, integ := 0, lost := false, lastMeas := d.lc, annPriLc := d.lc, annSecLc := d.lc,
                                          lastPps := d.lc } }
  let d := if s = 0 then (d.setTuState 0).setRate 0 else d.setTuState 1
  if s = 1 then d.followAnn else (d.setFld R.TU_STAT F.TU_STAT_DISTANCE 0).setFld R.TU_STAT F.TU_STAT_GM_CHIP (d.chipId 0)

/-- A parent as TU_PARENT names it: VALID and the code; the code of one that is not named has no meaning. -/
def parentName (w : Nat) (sec : Bool) : Option Nat :=
  if sec then (if bit w 15 then some (bits w 9 0) else none) else if bit w 31 then some (bits w 25 16) else none

/-- TU_PARENT is written (R446): the announcements held belong to ports, so a port named anew has the announcement held for it under the other name, or
none yet, and the 256 beats of R444 run from now; the beats in which the primary port was usable or not are counted anew for a new one. -/
def parentWrite (d : Dev) (w : Nat) : Dev :=
  let old := (d.reg R.TU_PARENT).toNat
  let held (n : Option Nat) : Option Ann :=
    if n = none then none else if n = parentName old false then d.time.annPri else if n = parentName old true then d.time.annSec else none
  let since (n : Option Nat) : Nat :=
    if n = parentName old false then d.time.annPriLc else if n = parentName old true then d.time.annSecLc else d.lc
  let same := decide (parentName w false = parentName old false)
  let d := { d with time := { d.time with annPri := held (parentName w false), annSec := held (parentName w true),
                                          annPriLc := since (parentName w false), annSecLc := since (parentName w true),
                                          priGood := if same then d.time.priGood else 0, priBad := if same then d.time.priBad else 0 } }
  (d.setNum R.TU_PARENT w).followAnn

/-- The active parent changes (R446). -/
def parentSwitch (d : Dev) : Dev :=
  let sec := d.on R.TU_STAT F.TU_STAT_ON_SECONDARY
  let go := if sec then 256 ≤ d.time.priGood
    else d.on R.TU_PARENT F.TU_PARENT_SEC_VALID ∧ d.fld R.TU_LIMITS F.TU_LIMITS_HOLD_BEATS ≤ d.time.priBad ∧ 0 < d.time.priBad
  if d.tuSrc = 1 ∧ d.tuActive ∧ go then
    (((d.setFld R.TU_STAT F.TU_STAT_ON_SECONDARY (b2n !sec)).inc R.TU_PARENT_SW).followAnn).timeEvent 2
  else d

/-- What the time unit notes at each boundary: beats in which the primary parent was usable or not, and the rates of LOCKED. -/
def timeTick (d : Dev) : Dev :=
  let u := d.primaryUsable
  let h := if d.tuState = 2 then (d.time.rateHist ++ [d.time.rate]).drop (d.time.rateHist.length - 63) else d.time.rateHist
  { d with time := { d.time with priGood := if u then d.time.priGood + 1 else 0, priBad := if u then 0 else d.time.priBad + 1, rateHist := h } }

/-! Announcements (R452). -/

/-- The payload sent on a port; SEND_SEC and SEND_NS are filled in at transmission. ERR_NS is a free value. -/
def annPayload (d : Dev) (c : Nat) : List Byte × Dev :=
  match d.draw with
  | (e, d) =>
    let gm := d.tuSrc ≠ 1
    let st := if d.tuSrc = 0 then 2 else d.tuState
    let chip := if gm then d.chipId (plOf c) else d.fld R.TU_STAT F.TU_STAT_GM_CHIP
    let src := if gm then d.tuSrc else match d.parentAnn with | some a => a.src | none => 0
    let w := b2n (d.on R.TU_STAT F.TU_STAT_TIME_SET) * 2 ^ 31 + st * 2 ^ 28 + d.fld R.TU_STAT F.TU_STAT_DISTANCE * 2 ^ 18 + chip
    (beBytes w 4 ++ beBytes (e.toNat % 65536 * 65536 + src) 4 ++ List.replicate 16 0, d)

/-- One announcement is formed for a port; one that still waits for cells is replaced (R662). -/
def annForm (d : Dev) (c : Nat) : Dev :=
  let d := { d with core := { d.core with pkts := d.core.pkts.filter fun (k : Pkt) => !(k.place = Place.waitCells && k.h.kind = 0x43 && k.port = c) } }
  match d.annPayload c with
  | (pay, d) =>
    match d.freshId with
    | (id, d) =>
      let nb := (d.reg (if c % 2 = 0 then R.YZ_NEIGH (c / 2) else R.YZ_NEIGH1 (c / 2))).toNat
      d.addPkt { id := id, unit := plOf c, port := c, pay := pay, ended := true, orig := true, cells := ceilDiv (36 + pay.length) 256, place := .waitCells,
                 h := { vc := 7, epoch := d.curEpoch (plOf c), dest := nb % 2 ^ 18, plen := pay.length, src := d.chipId (plOf c), kind := 0x43 } }

/-- Once per 64 beats an announcement is formed for every UP logical port; each is queued when its cells are granted. A quiesced time unit forms none
(R38, R41: DEDUCED, log entry 68). -/
def announce (d : Dev) : Dev :=
  if d.on R.TU_CTRL F.TU_CTRL_ANN_EN ∧ d.powered ∧ d.tuActive ∧ d.time.lastAnnBeat + 64 ≤ d.time.beat then
    let d := { d with time := { d.time with lastAnnBeat := d.time.beat } }
    let ups := (List.range 1024).filter d.linkUp
    let d := ups.foldl annForm d
    ups.foldl (fun d _ => d.originatedAdmit true) d
  else d

/-- An announcement that arrived on a port (R452): acted on from a named parent port, otherwise counted. A payload shorter than its layout is read
as zeros beyond its end (log entry 22). -/
def annReceive (d : Dev) (port : Nat) (pay : List Byte) (arrT : Nat) : Dev :=
  let w := beNat (slice pay 0 4)
  let a : Ann := { timeSet := bit w 31, state := bits w 30 28, distance := bits w 25 18, gmChip := bits w 17 0, src := bits (beNat (slice pay 4 4)) 3 0,
                   sendNs := beNat (slice pay 8 8) * 10 ^ 9 + beNat (slice pay 16 4), arrT := arrT }
  let pri := d.on R.TU_PARENT F.TU_PARENT_PRI_VALID && decide (d.fld R.TU_PARENT F.TU_PARENT_PRI_CODE = port)
  let sec := d.on R.TU_PARENT F.TU_PARENT_SEC_VALID && decide (d.fld R.TU_PARENT F.TU_PARENT_SEC_CODE = port)
  if ¬ pri ∧ ¬ sec then d.inc R.TU_ANN_RX
  else
    let act := d.tuSrc = 1 ∧ (if d.on R.TU_STAT F.TU_STAT_ON_SECONDARY then sec else pri)
    let d := { d with time := { d.time with annPri := if pri then some a else d.time.annPri, annSec := if sec then some a else d.time.annSec,
                                            annPriLc := if pri ∧ a.usable then d.lc else d.time.annPriLc,
                                            annSecLc := if sec ∧ a.usable then d.lc else d.time.annSecLc } }
    if act then d.followAnn else d

/-! Time pulse outputs (R460 to R462). -/

def tpoAt (d : Dev) (n : Nat) : Tpo := d.time.tpo.getD n {}
def setTpo (d : Dev) (n : Nat) (t : Tpo) : Dev := { d with time := { d.time with tpo := d.time.tpo.set n t } }

/-- Units of 2^-16 ns in a second. -/
def secUnits : Nat := 10 ^ 9 * 65536

/-- GO (R461); the output is armed with its start time, period, width and mode (R460). A PERIODIC output with a period below 16 ns is unpredictable: its period is a free value of at least 1. -/
def tpoGo (d : Dev) (n : Nat) : Dev :=
  let a := R.TPO_CTRL n
  let now := d.fabT
  let sec := now / secUnits
  let ahead := ((d.reg (R.TPO_START_SEC n)).toNat + 2 ^ 32 - sec % 2 ^ 32) % 2 ^ 32
  let start := (sec + ahead) * secUnits + (d.reg (R.TPO_START_NS n)).toNat * 65536
  let per := (d.reg (R.TPO_PERIOD_NS n)).toNat
  let periodic := d.on a F.TPO_CTRL_MODE
  if ¬ d.on a F.TPO_CTRL_ARMED ∧ now + 1000 * 65536 ≤ start ∧ start < now + 2 ^ 31 * secUnits ∧ (periodic → (d.reg (R.TPO_WIDTH_NS n)).toNat < per) then
    match (if periodic ∧ per < 16 then d.draw.map (fun v => v.toNat + 1) id else (per * 65536, d)) with
    | (p, d) =>
      let t : Tpo :=
        { next := start, period := p, width := (d.reg (R.TPO_WIDTH_NS n)).toNat * 65536, periodic := periodic, high := (d.tpoAt n).high,
          cancel := (d.tpoAt n).high.isSome }
      (d.setTpo n t).setFld a F.TPO_CTRL_ARMED 1
  else d.setFld a F.TPO_CTRL_GO_REFUSED 1

/-- CANCEL: no further pulse; one in progress is finished (R461). -/
def tpoCancel (d : Dev) (n : Nat) : Dev :=
  (d.setTpo n { d.tpoAt n with cancel := (d.tpoAt n).high.isSome }).setFld (R.TPO_CTRL n) F.TPO_CTRL_ARMED 0

/-- A write of TPO_CTRL: MODE and POL, then CANCEL, then GO. The ball follows POL, the idle level. -/
def tpoWrite (d : Dev) (n : Nat) (mode pol : Nat) (cancel go : Bool) : Dev :=
  let d := if d.fld (R.TPO_CTRL n) F.TPO_CTRL_POL = pol then d else d.emit (.pulse n (decide (pol = 1) != (d.tpoAt n).high.isSome) d.lc)
  let d := (d.setFld (R.TPO_CTRL n) F.TPO_CTRL_MODE mode).setFld (R.TPO_CTRL n) F.TPO_CTRL_POL pol
  let d := if cancel then d.tpoCancel n else d
  if go then d.tpoGo n else d

/-- Fabric time reaches the next pulse. -/
def tpoPulse (d : Dev) (n : Nat) : Dev :=
  let t := d.tpoAt n
  let a := R.TPO_CTRL n
  if d.on a F.TPO_CTRL_ARMED ∧ t.next ≤ d.fabT ∧ t.high.isNone then
    (d.setTpo n { t with high := some (t.next + t.width), cancel := false, next := t.next + t.period }).emit (.pulse n (¬ d.on a F.TPO_CTRL_POL) d.lc)
  else d

/-- A pulse's width ends. -/
def tpoEnd (d : Dev) (n : Nat) : Dev :=
  let t := d.tpoAt n
  let a := R.TPO_CTRL n
  match t.high with
  | some e =>
    if e ≤ d.fabT then
      let d := (d.setTpo n { t with high := none, cancel := false }).emit (.pulse n (d.on a F.TPO_CTRL_POL) d.lc)
      if ¬ t.cancel ∧ ¬ t.periodic then d.setFld a F.TPO_CTRL_ARMED 0 else d
    else d
  | none => d

/-- Pulses whose times a step has passed are not made (R462). -/
def tpoSkip (d : Dev) (n : Nat) : Dev :=
  let t := d.tpoAt n
  let a := R.TPO_CTRL n
  if ¬ d.on a F.TPO_CTRL_ARMED ∨ d.fabT < t.next then d
  else if t.periodic then
    let k := (d.fabT - t.next) / max t.period 1 + 1
    (d.setTpo n { t with next := t.next + k * max t.period 1 }).incBy R.TPO_SKIP k
  else if t.high.isSome ∧ ¬ t.cancel then d
  else (d.setFld a F.TPO_CTRL_ARMED 0).inc R.TPO_SKIP

/-! The reference (R441). -/

/-- REFCLK_RACK is lost. -/
def refLost (d : Dev) : Dev :=
  if d.time.refPresent then
    ({ d with time := { d.time with refPresent := false } }.setFld R.TU_STAT F.TU_STAT_REF_LOST 1).error 0x0E 0 0x58 3 []
  else d

/-- REFCLK_RACK returns. -/
def refBack (d : Dev) : Dev := { d with time := { d.time with refPresent := true } }.setFld R.TU_STAT F.TU_STAT_REF_LOST 0

end Dev
end Sys2Proof.Machine
end

