-- ==== Sys2Proof/Machine/RwEffects.lean ====
section
/-! DEFINITION. What a write to RW, RWS and RWB fields does beside changing their bits (spec/00_scope.md R15 to R17): quiescence, link, slot, circuit and
epoch controls, the time source, Mordant staging, windows that are busy, gate lists in use, WAKE_REQ. Direct writes, the boundary and Mordant groups
all change fields through `putRw`. -/
namespace Sys2Proof.Machine

/-- The mask of a bit range. -/
def fldMask (f : Fld) : Nat := (2 ^ (f.hi + 1 - f.lo) - 1) * 2 ^ f.lo

/-- The bits of a word that fields of given types hold. -/
def typeMask (a : Nat) (p : FTy → Bool) : Nat := (((fieldsAt a).filter fun f => p f.ty).map fldMask).sum

/-- The bits that a write can change: RW, RWS and RWB fields. -/
def rwMask (a : Nat) : Nat := typeMask a fun t => t = .rw || t = .rws || t = .rwb

/-- A word with the bits of a mask replaced. -/
def maskIn (old mask v : Nat) : Nat := Nat.xor (Nat.land old mask) old + Nat.land v mask

/-- The quiesce unit whose QCTRL stands at an address (R499). -/
def qunitAt (a : Nat) : Option QUnit :=
  let b := a / 0x1000000
  let o := a % 0x1000000
  if b = 0x05 then
    if o < 0x20000 ∧ o % 0x100 = 0 then some (.port (o / 0x100))
    else if 0xE0000 ≤ o ∧ o < 0xE2000 ∧ o % 0x100 = 0 then some (.oe ((o - 0xE0000) / 0x100)) else none
  else if b = 0x02 then if 0x8000 ≤ o ∧ o < 0x9100 ∧ o % 0x100 = 0 then some (.xs ((o - 0x8000) / 0x100)) else none
  else if b = 0x03 then if o = 0 then some .lake else none
  else if b = 0x06 then if o = 0 then some .tu else none
  else if b = 0x07 then if o < 0x40000 ∧ o % 0x1000 = 0 then some (.ch (o / 0x1000)) else none
  else if b = 0x08 then if o = 0 then some .mp else none
  else if 0x10 ≤ b ∧ b < 0x20 then if o = 0 then some (.pl (b - 0x10)) else none
  else if 0x20 ≤ b ∧ b < 0x30 then if o = 0 then some (.vb (b - 0x20)) else none
  else none

/-- The Mordant group whose window holds an address, and the offset in the window. -/
def mrdAt (a : Nat) : Option (Nat × Nat) :=
  if 0x01004000 ≤ a ∧ a < 0x01014000 then some ((a - 0x01004000) / 0x4000, (a - 0x01004000) % 0x4000) else none

/-- Whether an offset in a group's window is an item word. -/
def isItem (o : Nat) : Bool := 0x100 ≤ o && o < 0x2100 && o % 16 ≠ 12

/-- Whether an address is the reserved fourth word of a staged item. -/
def isItemPad (a : Nat) : Bool := match mrdAt a with | some (_, o) => 0x100 ≤ o && o < 0x2100 && o % 16 = 12 | none => false

namespace Dev

/-- STATE of a Mordant group: 0 EMPTY, 1 STAGED, 2 ARMED, 3 APPLIED. -/
def mrdState (d : Dev) (g : Nat) : Nat := d.fld (R.MRD_STATUS g) F.MRD_STATUS_STATE
def setMrdState (d : Dev) (g s : Nat) : Dev := d.setFld (R.MRD_STATUS g) F.MRD_STATUS_STATE s

/-- The RW words of a Mordant group (R43, R660). -/
def mrdStage (d : Dev) (g o a : Nat) (w : Nat) : Dev :=
  if d.mrdState g = 2 then d
  else
    let d := d.setNum a w
    if (o = 0 ∨ isItem o) ∧ d.mrdState g = 0 then d.setMrdState g 1 else d

/-- WAKE_REQ follows REQ (R561). -/
def setWakeReq (d : Dev) (r : Nat) : Dev :=
  let d := d.setFld R.PW_CTRL F.PW_CTRL_REQ r
  if d.fld R.PW_STAT F.PW_STAT_REQ_PIN = r then d
  else (d.setFld R.PW_STAT F.PW_STAT_REQ_PIN r).emit (.pin "WAKE_REQ" 0 (r = 1) d.lc)

/-- REQ of PW_CTRL written; a one during ENTERING waits for UMBER (R561). -/
def wakeReqWrite (d : Dev) (r : Nat) : Dev :=
  if d.pwState = 1 ∧ r = 1 then { d with power := { d.power with reqLate := true } } else d.setWakeReq r

/-- EN of PTP_CTRL written, or ROLE or DOMAIN while it is one: the port initialises and listens, or is disabled; a port that is only master is MASTER at
once (R459). That a new ROLE or DOMAIN begins again as EN does is taken from the standard (log entry 24). -/
def ptpEnable (d : Dev) (en : Bool) : Dev :=
  let d := { d with time := { d.time with ptp := { lastAnn := d.lc } } }
  d.setFld R.PTP_STAT F.PTP_STAT_STATE (if ¬ en then 3 else if d.fld R.PTP_CTRL F.PTP_CTRL_ROLE = 2 then 6 else 4)

/-- Change the bits of a mask, which covers RW, RWS or RWB fields only, with all that belongs to it. -/
def putRw (d : Dev) (a mask v : Nat) : Dev :=
  let old := (d.reg a).toNat
  let w := maskIn old mask v
  let blk := a / 0x1000000
  let off := a % 0x1000000
  if mask = 0 then d
  else match qunitAt a with
  | some u => if bit w 0 then d.quiesceRequest u else d.quiesceRelease u
  | none =>
  match mrdAt a with
  | some (g, o) => d.mrdStage g o a w
  | none =>
  if blk = 0x05 ∧ off < 0x20000 ∧ off % 0x100 = 0x10 then
    let p := off / 0x100
    let d := d.setNum a w
    if bit old 31 = bit w 31 then d else if bit w 31 then d.portOn p else d.portOff p
  else if blk = 0x05 ∧ 0x40000 ≤ off ∧ off < 0x40400 then
    let i := (off - 0x40000) / 4
    if bit old 31 then
      let d := if bit w 31 then d else d.indigoOff i
      (d.setFld a F.IND_PAIR_PORT_A (bits w 8 0)).setFld a F.IND_PAIR_PORT_B (bits w 17 9)
    else
      let d := d.setNum a (if bit w 31 then w - 2 ^ 31 else w)
      if bit w 31 then d.indigoOn i else d
  else if blk = 0x05 ∧ 0xC0000 ≤ off ∧ off < 0xC0100 ∧ off % 16 = 0 then
    if bit old 0 = bit w 0 then d else d.slotEnable ((off - 0xC0000) / 16) (bit w 0)
  else if 0x10 ≤ blk ∧ blk < 0x20 ∧ off = 0x1000 then d.epochWrite (blk - 0x10) (w % 4)
  else if 0x10 ≤ blk ∧ blk < 0x20 ∧ (off = 0x1100 ∨ (0x1140 ≤ off ∧ off < 0x11D0)) ∧ d.on (R.TW_STAT (blk - 0x10)) F.TW_STAT_BUSY then
    d.setFld (R.TW_STAT (blk - 0x10)) F.TW_STAT_OVERRUN 1
  else if blk = 0x04 ∧ (off = 0x200 ∨ (0x240 ≤ off ∧ off < 0x380)) ∧ d.on R.CE_TW_STAT F.CE_TW_STAT_BUSY then
    d.setFld R.CE_TW_STAT F.CE_TW_STAT_OVERRUN 1
  else if 0x10 ≤ blk ∧ blk < 0x20 ∧ 0x20000 ≤ off ∧ off < 0x28000 then
    let p := blk - 0x10
    let k := (off - 0x20000) / 0x200
    let bank := off % 0x200 / 0x100
    let oper := d.fld (R.GCL_STAT p k) F.GCL_STAT_OPER_BANK
    if bank = oper ∨ d.on (R.GCL_STAT p k) F.GCL_STAT_PENDING then d.setFld (R.GCL_STAT p k) F.GCL_STAT_WR_REFUSED 1 else d.setNum a w
  else if a = R.TU_CTRL then
    let d := d.setNum a (putBits w 1 0 (old % 4))
    if old % 4 = w % 4 then d else d.setSource (w % 4)
  else if a = R.TU_PARENT then d.parentWrite w
  else if a = R.PW_CTRL then d.wakeReqWrite (w % 2)
  else if a = R.PTP_CTRL then
    let d := d.setNum a w
    if bit old 31 = bit w 31 ∧ (¬ bit w 31 ∨ (bits old 30 29 = bits w 30 29 ∧ bits old 23 16 = bits w 23 16)) then d else d.ptpEnable (bit w 31)
  else d.setNum a w

end Dev
end Sys2Proof.Machine
end

