-- ==== Sys2Proof/Machine/Advance.lean ====
section
/-! DEFINITION. Time goes on to a local count: the local count moves and the counters that add in every cycle add (spec/18_telemetry.md R603 to R607). -/
namespace Sys2Proof.Machine
namespace Dev

/-- The performance monitor selections that are enabled: unit, register number, event. Unlisted selection words are at reset, disabled. -/
def pmOn (d : Dev) : List (PmUnit × Nat × Nat) :=
  d.csr.regs.filterMap fun (x : Nat × Word) =>
    let o := x.1 % 0x1000000
    let b := x.1 / 0x1000000
    if 0xF00020 ≤ o ∧ o < 0xF00040 ∧ bit x.2.toNat 31 then
      let u : Option PmUnit := if b = 2 then some .sc else if b = 3 then some .lake else if b = 4 then some .ce else if b = 7 then some .ddr
        else if 0x10 ≤ b ∧ b < 0x20 then some (.pl (b - 0x10)) else if 0x20 ≤ b ∧ b < 0x30 then some (.vb (b - 0x20)) else none
      u.map fun u => (u, (o - 0xF00020) / 4, x.2.toNat % 65536)
    else none

/-- Port codes of a pipeline that hold packets with no eligible queue (EGRESS_BLOCKED). -/
def blockedCodes (d : Dev) (p : Nat) : Nat :=
  let outs := ((d.core.pkts.flatMap fun (k : Pkt) => (k.copies.filter fun x => x.out / 64 = p && x.stage = Stage.egress).map (·.out))).eraseDups
  outs.countP fun c => !(List.range 8).any fun v => d.egEligible c v

/-- What an event that counts in every cycle adds in one cycle (R606), where time alone does not change it. -/
def perCycle (d : Dev) (u : PmUnit) (ev : Nat) : Nat :=
  match u with
  | .pl p =>
    if ev = 0x0104 then b2n (d.core.pkts.any fun k => k.place = Place.fence && k.unit = p) else 0
  | .sc => if ev = 0x0203 then b2n (d.csr.regs.any fun (x : Nat × Word) => 0x02002000 ≤ x.1 && x.1 < 0x02003000 && bit x.2.toNat 16) else 0
  | .lake => if ev = 0x0302 then b2n d.poolWarn else 0
  | .vb b =>
    let busy := d.vat.arrays.filter fun j => j.lv / 96 = b && j.ops ≠ []
    if ev = 0x0501 then busy.length
    else if ev = 0x0502 then busy.countP fun j => j.ops.any fun o =>
        if o.builtin then d.vat.ctxs.any fun c => c.lv = j.lv && c.slot = j.slot && c.recipe = 5 else o.sq
    else if ev = 0x0503 then d.vat.runs.countP fun r => r.lv / 96 = b
    else if ev = 0x0504 then b2n (d.core.feFull.contains b)
    else 0
  | _ => 0

/-- Whether a unit runs on the vat clock (R603). -/
def PmUnit.vatClock : PmUnit → Bool
  | .vb _ | .ce => true
  | _ => false

/-- The cycles in which XOFF was held on each lossless VC of each port code (R607). -/
def xoffCycles (d : Dev) (core : Nat) : Dev :=
  d.csr.regs.foldl (fun (d : Dev) (x : Nat × Word) =>
    if 0x02002000 ≤ x.1 ∧ x.1 < 0x02003000 then
      let c := (x.1 - 0x02002000) / 4
      (List.range 8).foldl (fun d v =>
        let d := if bit (fget x.2 F.SC_XOFF_XOFF_RCVD) v then d.incBy (R.XOFF_RX_CYC c v) core else d
        if bit (fget x.2 F.SC_XOFF_XOFF_SENT) v then d.incBy (R.XOFF_TX_CYC c v) core else d) d
    else d) d

/-- What EGRESS_BLOCKED of a pipeline adds from the local count to `now`: eligibility changes with time (R194), so each count's cycles add what holds at it. -/
def blockedCycles (d : Dev) (p now : Nat) : Nat :=
  ((List.range (now - d.lc)).map fun i =>
    let x := d.lc + i
    ((x + 1) * 3 / 2 - x * 3 / 2) * { d with time := { d.time with lc := x } }.blockedCodes p).sum

/-- What an event that counts in every cycle adds over the `n` cycles to `now`. How many of them find a request queue full is free (DESIGN CHOICE, log entry 79). -/
def overCycles (d : Dev) (u : PmUnit) (ev n now : Nat) : Nat :=
  match u with
  | .ddr => if ev = 0x0603 then Config.ddrQueueFull d.lc % (n + 1) else n * d.perCycle u ev
  | .pl p => if ev = 0x0105 then d.blockedCycles p now else n * d.perCycle u ev
  | _ => n * d.perCycle u ev

/-- The performance monitors over the `core` core cycles and `vat` vat cycles to `now`. -/
def pmCycles (d : Dev) (core vat now : Nat) : Dev :=
  if d.on R.TM_CTRL F.TM_CTRL_FREEZE then d
  else
    let n (u : PmUnit) := if PmUnit.vatClock u then vat else core
    let e := d
    let d := pmUnits.foldl (fun (d : Dev) u => d.incBy (u.base + 8) (n u)) d
    d.pmOn.foldl (fun (d : Dev) (x : PmUnit × Nat × Nat) => d.incBy (x.1.base + 0x40 + 8 * x.2.1) (e.overCycles x.1 x.2.2 (n x.1) now)) d

/-- The local count moves on to `now` within the beat in progress; it never goes back. The core clock makes 1.5 and the vat clock 0.96 cycles in each
count. -/
def tick (d : Dev) (now : Nat) : Dev :=
  if now ≤ d.lc then d
  else
    let core := now * 3 / 2 - d.lc * 3 / 2
    let vat := now * 24 / 25 - d.lc * 24 / 25
    let d := if d.powered then ((d.pmCycles core vat now).xoffCycles core).noteAll now else d
    { d with time := { d.time with lc := now } }

end Dev
end Sys2Proof.Machine
end

