-- ==== Sys2Proof/Machine/Beat.lean ====
section
/-! DEFINITION. The beat boundary (spec/01_architecture.md R35 to R37) and Mordant groups (R43 to R50, R660, R661). -/
namespace Sys2Proof.Machine
namespace Dev

/-! Mordant groups. -/

/-- Target beat of a group. -/
def mrdTarget (d : Dev) (g : Nat) : Nat := (d.reg (R.MRD_TARGET_LO g)).toNat + bits (d.reg (R.MRD_TARGET_HI g)).toNat 15 0 * 2 ^ 32

/-- The item numbers of a group, ascending; a group holds at most 512. -/
def mrdItems (d : Dev) (g : Nat) : List Nat := List.range (min (d.fld (R.MRD_CTRL g) F.MRD_CTRL_COUNT) 512)

/-- The address, mask and value of an item. -/
def mrdItem (d : Dev) (g i : Nat) : Nat × Nat × Nat :=
  ((d.reg (R.MRD_ITEM_ADDR g i)).toNat, (d.reg (R.MRD_ITEM_MASK g i)).toNat, (d.reg (R.MRD_ITEM_VALUE g i)).toNat)

/-- The bits of a word that a group may write: RW and RWB fields (R44). -/
def mrdMask (a : Nat) : Nat := typeMask a fun t => t = .rw || t = .rwb

/-- Whether an item's mask covers another bit (TYPE). -/
def mrdBadItem (d : Dev) (g i : Nat) : Bool := match d.mrdItem g i with | (a, m, _) => Nat.land m (mrdMask a) ≠ m

/-- The beats from the beat in progress to a beat number, modulo 2^48. -/
def beatsAhead (d : Dev) (n : Nat) : Nat := (n + 2 ^ 48 - d.beatNo) % 2 ^ 48

/-- Whether the target is too near or not ahead (LATE). -/
def mrdLate (d : Dev) (g : Nat) : Bool := d.beatsAhead (d.mrdTarget g) < 2 || 2 ^ 47 ≤ d.beatsAhead (d.mrdTarget g)

/-- Whether another group is armed for the same beat (CONFLICT). -/
def mrdConflict (d : Dev) (g : Nat) : Bool := (List.range 4).any fun h => h ≠ g && d.mrdState h = 2 && d.mrdTarget h = d.mrdTarget g

/-- ARM (R44): `ecc` says that an item word has an uncorrectable error. Every check is made and sets its bit. -/
def mrdArm (d : Dev) (g : Nat) (ecc : Bool) : Dev :=
  if d.mrdState g = 0 ∨ d.mrdState g = 2 then d
  else
    let st := R.MRD_STATUS g
    let late := d.mrdLate g
    let conf := d.mrdConflict g
    let typ := (d.mrdItems g).any (d.mrdBadItem g)
    let set (b : Bool) (f : FR) (d : Dev) := if b then d.setFld st f 1 else d
    if late || conf || typ || ecc then
      set ecc F.MRD_STATUS_ECC (set typ F.MRD_STATUS_TYPE (set conf F.MRD_STATUS_CONFLICT (set late F.MRD_STATUS_LATE d)))
    else { d.setMrdState g 2 with csr := { (d.setMrdState g 2).csr with armBy := Sparse.del d.csr.armBy g } }

/-- CANCEL (R47). -/
def mrdCancel (d : Dev) (g : Nat) : Dev :=
  if d.mrdState g ≠ 2 then d
  else if 2 ≤ d.beatsAhead (d.mrdTarget g) then d.setMrdState g 1
  else d.setFld (R.MRD_STATUS g) F.MRD_STATUS_CANCEL_LATE 1

/-- CLEAR (R660). -/
def mrdClear (d : Dev) (g : Nat) : Dev :=
  if d.mrdState g = 2 then d else (d.setFld (R.MRD_CTRL g) F.MRD_CTRL_COUNT 0).setMrdState g 0

/-- A write of MRD_CTRL: COUNT, then CLEAR, CANCEL and ARM (R661). Commands take effect one after another, so two sessions never stage, arm or cancel one group at
once, which 14_control_protocol.md calls unpredictable (DESIGN CHOICE, log entry 90). -/
def mrdWrite (d : Dev) (g count : Nat) (clear cancel arm ecc : Bool) : Dev :=
  let d := d.putRw (R.MRD_CTRL g) (1023 * 65536) (count % 1024 * 65536)
  let d := if clear then d.mrdClear g else d
  let d := if cancel then d.mrdCancel g else d
  if arm then d.mrdArm g ecc else d

/-- The items of a group are written in ascending order (R45, R46). -/
def mrdPut (d : Dev) (g : Nat) : Dev :=
  (d.mrdItems g).foldl (fun d i => match d.mrdItem g i with | (a, m, v) => d.putRw a m v) d

/-- The group armed for the beat in progress, if any. -/
def mrdDue (d : Dev) : Option Nat := (List.range 4).find? fun g => d.mrdState g = 2 && d.mrdTarget g = d.beatNo

/-- Step 3 of R35. -/
def mrdApply (d : Dev) : Dev :=
  match d.mrdDue with
  | none => d
  | some g =>
    let d := (d.mrdPut g).setMrdState g 3
    let d := d.setFld (R.MRD_STATUS g) F.MRD_STATUS_DONE_EVT 1
    (d.setNum (R.MRD_APPLIED_BEAT_LO g) (d.beatNo % 2 ^ 32)).setNum (R.MRD_APPLIED_BEAT_HI g) (d.beatNo / 2 ^ 32)

/-! The boundary. -/

/-- Step 2 of R35: direct writes to RWB fields take effect (R17). -/
def rwbApply (d : Dev) : Dev :=
  let l := d.csr.rwb
  let d := { d with csr := { d.csr with rwb := [] } }
  l.foldl (fun (d : Dev) (x : Nat × Word × Word) => d.putRw x.1 x.2.1.toNat x.2.2.toNat) d

/-- Step 6 of R35: effective weights of the bundles sprayed in the beat that ended; other bundles compute theirs at their first packet (R107, R108). -/
def sprayWeights (d : Dev) : Dev :=
  let l := (d.tab.spray.filter fun x => x.2.used).map fun (x : Nat × Spray) =>
    let e := d.bundleEntry (x.1 / 8192) (x.1 / 4096 % 2) (x.1 % 4096)
    (x.1, ({ w := d.bundleWeights e, credit := List.replicate (byteAt e 0) 0, used := false } : Spray))
  { d with tab := { d.tab with spray := l } }

/-- Step 7 of R35: a TIME message falls due on every UP port code that is in no Indigo circuit (R447, R448). -/
def timeExchange (d : Dev) : Dev :=
  ((List.range 1024).filter fun c => d.linkState c = 5).foldl (fun d c => d.updLk c fun l => { l with timeDue := true }) d

/-- Step 1 of R35: snapshots, samples, the reports of the beat before (R608), and what is cleared after the snapshots. Blocks that are gated off have none (16_power_umber.md), but for
the snapshot, which Umber alone stops (R602). -/
def beatSample (d : Dev) : Dev :=
  if d.powered then (d.snapshot.pmClears.sampleAll).reportsBuild.ringQueues else d.snapshot.pmClears

/-- Steps 2 and 3: the previous banks that are due retire, direct writes and the Mordant group take effect, watch slots whose selection changed begin
again (R260), pipelines whose epoch changed note when their previous bank retires (R125, R126), and where something took effect, thresholds among it
perhaps, flow control follows at once (R154). -/
def beatCommit (d : Dev) : Dev :=
  let some' : Bool := d.csr.rwb ≠ [] || d.mrdDue.isSome
  let d := (List.range 16).foldl prevRetire d
  let old := (List.range 16).map d.curEpoch
  let d := d.rwbApply.mrdApply.watchReset
  let d := ((List.range 16).filter fun p => d.curEpoch p ≠ old.getD p 0).foldl setRetire d
  if some' then d.flow else d

/-- Step 3 by itself: the group due at the beat in progress is applied (R45), and pipelines whose epoch it changed note when their previous bank
retires. -/
def groupApply (d : Dev) : Dev :=
  let old := (List.range 16).map d.curEpoch
  let d := d.mrdApply.watchReset
  ((List.range 16).filter fun p => d.curEpoch p ≠ old.getD p 0).foldl setRetire d

/-- Steps 4 to 6. -/
def beatPace (d : Dev) : Dev :=
  if d.powered then
    let d := d.gclHandOver
    (d.shapedQueues.foldl shRefill d).sprayWeights
  else d

/-- A visit whose restores have begun does not wait for a request that has not been answered for 100 µs (log entry 86). -/
def calDwellOver (d : Dev) : Dev :=
  match d.optic.cal with
  | some v => if v.restoring ∧ d.powered then d.calCheck (2 * v.p) else d
  | none => d

/-- One boundary (R35); `exch` says whether step 7 is made (R454). -/
def boundary (d : Dev) (exch : Bool) : Dev :=
  let d := { d with time := { d.time with beat := d.time.beat + 1 } }.timeTick
  let d := d.beatSample.beatCommit.beatPace.marginWindow.calDwellOver
  if exch ∧ d.powered then d.timeExchange else d

/-- Several boundaries in order, step 7 at the last only (R454). No command can come between them, so the dump of ring 1 and the decay of scores that fall due at
one before the last are made with it (log entry 78). -/
def boundaries : Nat → Dev → Dev
  | 0, d => d
  | n + 1, d => boundaries n (if n = 0 then d.boundary true else (d.boundary false).ringDump.healthDecay)

/-- The local count of the next boundary: fabric time reaches the next multiple of 2,048 ns that has had none (R20, R455). -/
def boundaryCount (d : Dev) : Nat := d.countAt ((d.time.beat + 1) * beatUnits)

/-- Time goes on to `now`, and every boundary on the way is made at its own count; at most `fuel` of them. -/
def runTo : Nat → Nat → Dev → Dev
  | 0, now, d => d.tick now
  | n + 1, now, d => if d.boundaryCount ≤ now then runTo n now ((d.tick d.boundaryCount).boundary true) else d.tick now

/-- The local count to which a BEAT_BOUNDARY that comes at `now` takes the device: at least that of the next boundary. -/
def boundaryBy (d : Dev) (now : Nat) : Nat := max now d.boundaryCount

/-- The boundaries that a step of fabric time has passed are made (R454). -/
def catchUp (d : Dev) : Dev :=
  let n := d.fabT / beatUnits - d.time.beat
  if n = 0 then d else (boundaries n d).incBy R.TU_BEAT_CATCH n

/-- The local count moves on to `now`, with the beat boundaries that fall on the way (R20, R21), after those that a step has passed: R454 has them begin within
1 us of it, and they are made as time next goes on (DESIGN CHOICE, log entry 90). -/
def advance (d : Dev) (now : Nat) : Dev :=
  let d := d.catchUp
  if now ≤ d.lc then d else runTo (now - d.lc) now d

/-- A step of fabric time by `z` units of 2^-16 ns (R453 to R455, R462). Boundaries that it passes are made as time next goes on (`catchUp`). -/
def stepTime (d : Dev) (z : Int) : Dev :=
  let sh (a : Option Ann) : Option Ann := a.map fun a => { a with arrT := a.arrT + z }
  let d := d.keepBase
  let d := { d with time := { d.time with baseT := d.time.baseT + z, annPri := sh d.time.annPri, annSec := sh d.time.annSec } }
  let d := { d with time := { d.time with tpo := d.time.tpo.map fun (t : Tpo) => { t with high := t.high.map fun e => ((e : Int) + z).toNat } } }
  let d := d.inc R.TU_STEP
  let d := (List.range 4).foldl tpoSkip d
  let ns := unsgn 64 (z / 65536)
  (d.error 0x0E 0 0x5A 1 [ns / 2 ^ 32, ns % 2 ^ 32]).event 3 0x8007 (beBytes ns 8)

end Dev
end Sys2Proof.Machine
end

