-- ==== Sys2Proof/Machine/Servo.lean ====
section
/-! DEFINITION. The servo, the link exchange, setting the time, PPS and IEEE 1588 (spec/13_time.md R442 to R459). -/
namespace Sys2Proof.Machine

/-- The value nearest to `c` that equals `z` modulo `m`. -/
def nearestMod (c z m : Int) : Int := z + m * ((2 * (c - z) + m) / (2 * m))

/-- A quotient rounded to the nearest whole number, halves upwards. -/
def roundDiv (a b : Int) : Int := (2 * a + b) / (2 * b)

/-- RATE and the integral of the servo for a measurement `z` in 2^-16 ns; the integral is held in 2^-16 * 10^-6 ns, so that no step rounds but the
last. -/
def servoRate (z integ : Int) (kp ki rmax : Nat) : Int × Int :=
  let lim : Int := (rmax * 2048 * 2 ^ ki * 65536 : Nat)
  let i := clampI (-lim) lim (integ + z * 1000000)
  let num := (z * 1000000 * 2 ^ ki + i * 2 ^ kp) * 2 ^ 48
  let den : Int := (65536 * 1000000 * 2048 * 2 ^ kp * 2 ^ ki : Nat)
  -- clamp to +-rmax parts per million, then round
  let hi : Int := (rmax : Int) * 2 ^ 48 * 65536 * 2048 * 2 ^ kp * 2 ^ ki
  (roundDiv (clampI (-hi) hi num) den, i)

/-- A signed difference of two stamps modulo 2^22 (R448). -/
def stampDiff (a b : Nat) : Int := sgn 22 (a + 2 ^ 22 - b % 2 ^ 22)

namespace Dev

/-- A measurement is slewed: the integral and RATE (the servo of 13_time.md). Gains above 40 and a RATE_MAX of zero are unpredictable: RATE is a
free value then. -/
def slew (d : Dev) (z : Int) : Dev :=
  let kp := d.fld R.TU_SERVO F.TU_SERVO_KP_SHIFT
  let ki := d.fld R.TU_SERVO F.TU_SERVO_KI_SHIFT
  let rmax := d.fld R.TU_LIMITS F.TU_LIMITS_RATE_MAX
  match servoRate z d.time.integ kp ki rmax with
  | (r, i) =>
    if 40 < kp ∨ 40 < ki ∨ rmax = 0 then match d.draw with | (v, d) => d.setRate (sgn 48 v.toNat)
    else { d with time := { d.time with integ := i } }.setRate r

/-- Whether an offset in 2^-16 ns is within `ns`. -/
def within (z : Int) (ns : Nat) : Bool := z.natAbs ≤ ns * 65536

/-- A step outside ACQUIRE: the integral starts again. -/
def servoStep (d : Dev) (z : Int) : Dev := let d := d.stepTime z; { d with time := { d.time with integ := 0 } }

/-- ACQUIRE: step by the full offset. With LINK the whole number of 262,144 ns comes from the last announcement and the delay; without one nothing is
stepped (log entry 23). -/
def acquire (d : Dev) (z : Int) (delay : Int) : Dev :=
  if d.tuSrc = 1 then
    match d.parentAnn with
    | some a => d.servoStep (nearestMod ((a.sendNs : Int) * 65536 + delay - a.arrT) z (262144 * 65536))
    | none => d
  else d.servoStep z

/-- Measurements in a row with |theta| at most 10 ns; sixteen make an acquiring unit LOCKED (R443), and a child then takes TIME_SET (R456). -/
def countSmall (d : Dev) (z : Int) : Dev :=
  let n := if within z 10 then d.time.small + 1 else 0
  let d := { d with time := { d.time with small := n } }
  if d.tuState = 1 ∧ 16 ≤ n then (d.setTuState 2).followAnn else d

/-- An accepted measurement of the active source (R443, R445 and the servo): theta in 2^-16 ns, the peer's time less this one's. -/
def measure (d : Dev) (z delay : Int) : Dev :=
  let step := d.fld R.TU_SERVO F.TU_SERVO_STEP_NS
  let en := d.on R.TU_CTRL F.TU_CTRL_STEP_EN
  let d := d.inc R.TU_MEAS
  let d := { d with time := { d.time with lost := false, lastMeas := d.lc } }
  if d.tuState = 1 then (d.acquire z delay).countSmall z
  else
    let d := { d with time := { d.time with small := if within z 10 then d.time.small + 1 else 0 } }
    if within z step then
      let d := if d.tuState = 3 then (d.setTuState 2).followAnn else d
      d.slew z
    else if en then d.servoStep z
    else if d.tuState = 3 then { d.setTuState 1 with time := { (d.setTuState 1).time with small := 0 } }
    else d.slew z

/-- TU_THETA. -/
def setTheta (d : Dev) (n : Int) : Dev := d.setNum R.TU_THETA (unsgn 32 n)

/-- A TIME message is received (R447 to R449): `ttx`, `trx`, `rxv`, `seqTx` and `seqRx` from its body; `lc` is the local count at which the row arrived in
which its first LCS began. -/
def timeMsg (d : Dev) (c ttx trx : Nat) (rxv : Bool) (seqTx seqRx lc : Nat) : Dev :=
  if d.linkState c ≠ 5 then d
  else
    let t := Sparse.get {} d.time.links c
    let t4 := stamp (d.fabPast (min lc d.lc))
    let d := { d with time := { d.time with links := Sparse.ins d.time.links c { t with rx := some (seqTx % 16, t4) } } }
    match (if rxv then t.sent.find? fun x => x.1 = seqRx % 16 else none) with
    | none => d
    | some (_, t1) =>
      -- in units of 2^-5 ns: twice theta and twice the delay in 2^-4 ns
      let th := stampDiff trx t1 - stampDiff t4 ttx + sgn 16 (d.fld (R.TU_LINK c) F.TU_LINK_ASYM)
      let de := stampDiff t4 t1 - stampDiff ttx trx
      let lim := d.fld R.TU_LIMITS F.TU_LIMITS_DELAY_MAX_NS
      if de < 0 ∨ (lim * 32 : Nat) < de then d.inc R.TU_MEAS_REJ
      else
        let d := d.setFld (R.TU_LINK c) F.TU_LINK_DELAY (min (de / 32).toNat 65535)
        let d := { d with time := { d.time with links := Sparse.ins d.time.links c { Sparse.get {} d.time.links c with meas := d.lc } } }
        if d.tuSrc = 1 ∧ d.parentCode = some c ∧ d.tuActive then (d.setTheta (th / 2)).measure (th * 2048) (de * 2048) else d

/-! Setting the time (R456). -/

/-- SET_NOW. -/
def setNow (d : Dev) : Dev :=
  if d.tuSrc = 1 ∨ d.tuSrc = 2 then d.setFld R.TU_SET_CMD F.TU_SET_CMD_SET_REFUSED 1
  else
    let sec := (d.reg R.TU_SET_SEC_LO).toNat + (d.reg R.TU_SET_SEC_HI).toNat * 2 ^ 32
    let t : Nat := (sec * 10 ^ 9 + (d.reg R.TU_SET_NS).toNat) * 65536
    (d.stepTime ((t : Int) - d.fabT)).setFld R.TU_STAT F.TU_STAT_TIME_SET 1

/-- SET_AT_PPS: the seconds are taken when the command is written. -/
def setAtPps (d : Dev) : Dev :=
  if d.tuSrc = 1 ∨ d.tuSrc = 2 then d.setFld R.TU_SET_CMD F.TU_SET_CMD_SET_REFUSED 1
  else
    let sec := (d.reg R.TU_SET_SEC_LO).toNat + (d.reg R.TU_SET_SEC_HI).toNat * 2 ^ 32
    { d with time := { d.time with setSec := sec } }.setFld R.TU_SET_CMD F.TU_SET_CMD_SET_PENDING 1

/-- CMD of TU_SET_CMD. -/
def setCmd (d : Dev) (cmd : Nat) : Dev := if cmd = 1 then d.setNow else if cmd = 2 then d.setAtPps else d

/-- A rising edge of PPS_IN (R442, R456): it completes a SET_AT_PPS, or is a measurement against the nearest whole second. -/
def ppsEdge (d : Dev) : Dev :=
  let d := { d with time := { d.time with lastPps := d.lc } }
  if d.on R.TU_SET_CMD F.TU_SET_CMD_SET_PENDING then
    let d := d.setFld R.TU_SET_CMD F.TU_SET_CMD_SET_PENDING 0
    let d := (d.stepTime ((d.time.setSec * secUnits : Nat) - (d.fabT : Int))).setFld R.TU_STAT F.TU_STAT_TIME_SET 1
    (d.setNum R.TU_PPS_NS 0).setNum R.TU_PPS_FRAC 0
  else
    let t := d.fabT
    let f := t % secUnits
    let d := (d.setNum R.TU_PPS_NS (f / 65536)).setNum R.TU_PPS_FRAC (f % 65536)
    if d.tuSrc = 3 ∧ d.tuActive then
      let z : Int := if 2 * f < secUnits then -(f : Int) else (secUnits - f : Nat)
      (d.setTheta (z / 4096)).measure z 0
    else d

/-! IEEE 1588 (R457 to R459). What the standard fixes and the manual names only is taken from the standard (log entry 24). -/

/-- Whether messages are sent and processed: not during a restart of the management cores (R589). -/
def ptpOn (d : Dev) : Bool := d.on R.PTP_CTRL F.PTP_CTRL_EN && d.tuActive && d.mgmt.mpUp && d.mgmt.ready
def ptpState (d : Dev) : Nat := d.fld R.PTP_STAT F.PTP_STAT_STATE
def setPtpState (d : Dev) (s : Nat) : Dev := d.setFld R.PTP_STAT F.PTP_STAT_STATE s
def setPtp (d : Dev) (f : Ptp → Ptp) : Dev := { d with time := { d.time with ptp := f d.time.ptp } }
def ptpDomain (d : Dev) : Nat := d.fld R.PTP_CTRL F.PTP_CTRL_DOMAIN

/-- The clock identity, from the MAC address, and the port identity of the one port. -/
def clockId (d : Dev) : List Byte := d.mpMac.take 3 ++ [0xFF, 0xFE] ++ d.mpMac.drop 3
def portId (d : Dev) : List Byte := d.clockId ++ [0, 1]

/-- Own data set. -/
def ptpOwn (d : Dev) : PtpData :=
  { prio1 := d.fld R.PTP_CTRL F.PTP_CTRL_PRIO1, prio2 := d.fld R.PTP_CTRL F.PTP_CTRL_PRIO2, gm := d.clockId, src := d.portId }

/-- A message interval or timeout in local counts: 2^k seconds. -/
def logCounts (k : Int) : Nat := if 0 ≤ k then 1250000000 * 2 ^ k.toNat else 1250000000 / 2 ^ (-k).toNat

/-- The announce interval and the receipt timeout. -/
def annInterval (d : Dev) : Nat := logCounts (sgn 8 (d.fld R.PTP_INTV F.PTP_INTV_LOG_ANNOUNCE))
def annTimeout (d : Dev) : Nat := d.fld R.PTP_INTV F.PTP_INTV_ANN_TIMEOUT * d.annInterval

/-- The order of the best master clock algorithm: priorities, quality and grandmaster first, then the steps removed and the sender. -/
def ptpKey (x : PtpData) : Nat :=
  ((((((x.prio1 * 256 + x.cls) * 256 + x.acc) * 65536 + x.var) * 256 + x.prio2) * 2 ^ 64 + beNat x.gm) * 65536 + x.steps) * 2 ^ 80 + beNat x.src

/-- The best foreign master with two announcements in the last four intervals. -/
def ptpBest (d : Dev) : Option PtpData :=
  let q := d.time.ptp.foreign.filter fun x => 2 ≤ (x.2.filter fun t => d.lc ≤ t + 4 * d.annInterval).length
  q.foldl (fun (b : Option PtpData) (x : PtpData × List Nat) =>
    match b with | none => some x.1 | some y => if ptpKey x.1 < ptpKey y then some x.1 else b) none

/-- The state decision (R459): with a better foreign master the port follows it; otherwise it is master, unless ROLE lets it only be slave. -/
def ptpDecide (d : Dev) : Dev :=
  let role := d.fld R.PTP_CTRL F.PTP_CTRL_ROLE
  let best := d.ptpBest
  if role = 2 then d.setPtpState 6
  else
    match best with
    | some b =>
      if role = 1 ∨ ptpKey b < ptpKey d.ptpOwn then
        let same := d.time.ptp.master.any (·.src = b.src)
        let d := d.setPtp fun p => if same then { p with master := some b, expired := false } else
          { p with master := some b, sync := none, msDiff := none, lastMs := none, req := none, delay := none, lastAnn := d.lc, expired := false }
        if same ∧ d.ptpState = 9 then d else d.setPtpState 8
      else (d.setPtp fun p => { p with master := none }).setPtpState 6
    | none => d

/-- A port is UNCALIBRATED until its first offset, then SLAVE. A measurement drives the servo while SRC is PTP (R459). -/
def ptpMeasure (d : Dev) : Dev :=
  match d.time.ptp.msDiff, d.time.ptp.delay with
  | some ms, some de =>
    let d := if d.ptpState = 8 then d.setPtpState 9 else d
    let z := de - ms
    let d := d.setPtp fun p => { p with msDiff := none }
    if d.tuSrc = 2 then (d.setTheta (z / 4096)).measure z de else d
  | _, _ => d

/-- A master-to-slave difference. -/
def ptpMs (d : Dev) (z : Int) : Dev := d.setPtp fun p => { p with sync := none, msDiff := some z, lastMs := some z }

/-- Whether a message comes from the master followed. -/
def ptpFromMaster (d : Dev) (dom : Nat) (src : List Byte) : Bool :=
  d.ptpOn && dom = d.ptpDomain && (d.ptpState = 8 || d.ptpState = 9) && d.time.ptp.master.any fun m => m.src = src

/-- A Sync is received now: origin time and correction in 2^-16 ns. -/
def ptpSync (d : Dev) (dom : Nat) (src : List Byte) (seq : Nat) (twoStep : Bool) (t1 : Nat) (corr : Int) : Dev :=
  if ¬ d.ptpFromMaster dom src then d
  else if twoStep then d.setPtp fun p => { p with sync := some (seq, d.fabT, corr) }
  else (d.ptpMs ((d.fabT : Int) - t1 - corr)).ptpMeasure

/-- A Follow_Up of the Sync that waits. -/
def ptpFollow (d : Dev) (dom : Nat) (src : List Byte) (seq : Nat) (t1 : Nat) (corr : Int) : Dev :=
  if ¬ d.ptpFromMaster dom src then d
  else match d.time.ptp.sync with
    | some (s, t2, c) =>
      if s = seq then (d.ptpMs ((t2 : Int) - t1 - c - corr)).ptpMeasure else d
    | none => d

/-- A Delay_Resp to the request in progress: the path delay is half the sum of the last master-to-slave difference and the slave-to-master one. -/
def ptpResp (d : Dev) (dom : Nat) (src req : List Byte) (seq t4 : Nat) (corr : Int) : Dev :=
  if ¬ d.ptpFromMaster dom src ∨ req ≠ d.portId then d
  else match d.time.ptp.req, d.time.ptp.lastMs with
    | some (s, t3), some ms =>
      if s = seq then (d.setPtp fun p => { p with req := none, delay := some ((ms + ((t4 : Int) - t3 - corr)) / 2) }).ptpMeasure else d
    | _, _ => d

/-! Messages sent. -/

/-- A time as the ten bytes of the standard. -/
def ptpTime (t : Nat) : List Byte := beBytes (t / secUnits) 6 ++ beBytes (t % secUnits / 65536) 4

/-- The 34-byte header. -/
def ptpHdr (d : Dev) (typ len flags seq ctl : Nat) (log : Nat) (corr : Int) : List Byte :=
  [BitVec.ofNat 8 typ, 0x12] ++ beBytes len 2 ++ [BitVec.ofNat 8 d.ptpDomain, 0] ++ beBytes flags 2 ++ beBytes (unsgn 64 corr) 8
    ++ [0, 0, 0, 0] ++ d.portId ++ beBytes seq 2 ++ [BitVec.ofNat 8 ctl, BitVec.ofNat 8 log]

/-- Send one message: in an Ethernet frame of type 0x88F7, or in UDP over IPv6 (R457). -/
def ptpSend (d : Dev) (event : Bool) (msg : List Byte) : Dev :=
  if d.on R.PTP_CTRL F.PTP_CTRL_IPV6 then
    let port := beBytes (if event then 319 else 320) 2
    let dst := [0xFF, 0x0E, 0, 0, 0, 0, 0, 0, 0, 0, 0, 0, 0, 0, 0x01, 0x81]
    let hd := port ++ port ++ beBytes (8 + msg.length) 2
    let ck := ip6Sum d.mpIp6 dst 17 (hd ++ [0, 0] ++ msg)
    let d := d.emit (.ptp d.lc msg)
    d.sendEth [0x33, 0x33, 0, 0, 0x01, 0x81] 0x86DD (ip6Packet d.mpIp6 dst 17 64 (hd ++ beBytes (if ck = 0 then 0xFFFF else ck) 2 ++ msg))
  else (d.emit (.ptp d.lc msg)).sendEth [0x01, 0x1B, 0x19, 0, 0, 0] 0x88F7 msg

/-- A Delay_Req is received now; the master answers (R457). -/
def ptpReq (d : Dev) (dom : Nat) (src : List Byte) (seq : Nat) (corr : Int) : Dev :=
  if d.ptpOn ∧ dom = d.ptpDomain ∧ d.ptpState = 6 then
    let t := d.fabT
    let msg := d.ptpHdr 9 54 0 seq 3 (d.fld R.PTP_INTV F.PTP_INTV_LOG_DELAY_REQ) (corr - (t % 65536 : Nat)) ++ ptpTime t ++ slice src 0 10
    d.ptpSend false msg
  else d

/-- An Announce is received now (R459). -/
def ptpAnnounce (d : Dev) (dom : Nat) (x : PtpData) : Dev :=
  if ¬ d.ptpOn ∨ dom ≠ d.ptpDomain ∨ x.src = d.portId ∨ 255 ≤ x.steps then d
  else
    let old := (d.time.ptp.foreign.find? fun (y : PtpData × List Nat) => y.1.src = x.src).elim [] (·.2)
    let d := d.setPtp fun p => { p with foreign := (p.foreign.filter fun y => y.1.src ≠ x.src) ++ [(x, (d.lc :: old).take 4)],
                                        lastAnn := if p.master.any (·.src = x.src) then d.lc else p.lastAnn }
    d.ptpDecide

/-- No Announce of the master followed, or none at all while listening, for the receipt timeout (R444, R459): the source is lost, whether or not another master is
there to be followed from now on. It runs whether or not messages come through: with the
management link down none do. -/
def ptpAnnTimeout (d : Dev) : Dev :=
  if d.on R.PTP_CTRL F.PTP_CTRL_EN ∧ d.tuActive ∧ (d.ptpState = 4 ∨ d.ptpState = 8 ∨ d.ptpState = 9) ∧ d.time.ptp.lastAnn + d.annTimeout ≤ d.lc then
    let gone := d.time.ptp.master
    let d := d.setPtp fun p => { p with master := none, sync := none, msDiff := none, lastMs := none, req := none, delay := none, lastAnn := d.lc, expired := true,
                                        foreign := p.foreign.filter fun y => !gone.any fun m => m.src = y.1.src }
    let d := d.setPtpState (if d.fld R.PTP_CTRL F.PTP_CTRL_ROLE = 1 then 4 else 6)
    (if d.tuSrc = 2 then d.sourceLost else d).ptpDecide
  else d

/-- Whether a message last sent at some count is due again. -/
def ptpDue (d : Dev) (last : Option Nat) (interval : Nat) : Bool := match last with | some t => decide (t + interval ≤ d.lc) | none => true

/-- The messages that are due now (R458, R459): Sync with or without Follow_Up and Announce from a master, Delay_Req from a slave. -/
def ptpSends (d : Dev) : Dev :=
  if ¬ d.ptpOn then d
  else if d.ptpState = 6 then
    let d := if d.ptpDue d.time.ptp.sentAnn d.annInterval then
        let p := d.time.ptp
        let o := d.ptpOwn
        let body := List.replicate 10 0 ++ [0, 37, 0, BitVec.ofNat 8 o.prio1, BitVec.ofNat 8 o.cls, BitVec.ofNat 8 o.acc] ++ beBytes o.var 2
          ++ [BitVec.ofNat 8 o.prio2] ++ o.gm ++ [0, 0, 0xA0]
        ((d.setPtp fun p => { p with annSeq := (p.annSeq + 1) % 65536, sentAnn := some d.lc }).ptpSend false
          (d.ptpHdr 11 64 0 p.annSeq 5 (d.fld R.PTP_INTV F.PTP_INTV_LOG_ANNOUNCE) 0 ++ body))
      else d
    if d.ptpDue d.time.ptp.sentSync (logCounts (sgn 8 (d.fld R.PTP_INTV F.PTP_INTV_LOG_SYNC))) then
      let seq := d.time.ptp.syncSeq
      let log := d.fld R.PTP_INTV F.PTP_INTV_LOG_SYNC
      let t := d.fabT
      let two := d.on R.PTP_CTRL F.PTP_CTRL_TWO_STEP
      let d := d.setPtp fun p => { p with syncSeq := (p.syncSeq + 1) % 65536, sentSync := some d.lc }
      if two then
        let d := d.ptpSend true (d.ptpHdr 0 44 0x0200 seq 0 log 0 ++ List.replicate 10 0)
        d.ptpSend false (d.ptpHdr 8 44 0 seq 2 log (t % 65536 : Nat) ++ ptpTime t)
      else d.ptpSend true (d.ptpHdr 0 44 0 seq 0 log (t % 65536 : Nat) ++ ptpTime t)
    else d
  else if d.ptpState = 8 ∨ d.ptpState = 9 then
    if d.ptpDue d.time.ptp.sentReq (logCounts (sgn 8 (d.fld R.PTP_INTV F.PTP_INTV_LOG_DELAY_REQ))) then
      let seq := d.time.ptp.reqSeq
      let d := d.setPtp fun p => { p with reqSeq := (p.reqSeq + 1) % 65536, req := some (seq, d.fabT), sentReq := some d.lc }
      d.ptpSend true (d.ptpHdr 1 44 0 seq 1 0x7F 0 ++ List.replicate 10 0)
    else d
  else d

end Dev
end Sys2Proof.Machine
end

