-- ==== Sys2Proof/Machine/Rows.lean ====
section
/-! DEFINITION. Rows on the lanes of a link: the data stream with its framing, link control symbols and the control messages they carry
(spec/11_optical_links.md R366 to R382, spec/15_faults_sparing.md R528). -/
namespace Sys2Proof.Machine
namespace Dev

/-! Sending (R374, R376). -/

/-- Wire errors of the transfers that carry the row in the making over the bridge of its OE: each is recorded, and the bytes of an uncorrectable transfer are
lost: what leaves in their place is free (R528). -/
def rowWires (d : Dev) (c : Nat) (wires : List WireErr) : Dev :=
  if wires.isEmpty then d
  else
    let d := wires.foldl (fun d e => d.wireError (c / 32) e) d
    let row := (d.lk c).txRow.getD []
    let r := (List.range row.length).foldl (fun (x : List (Byte × Bool) × Dev) i =>
      let b := row.getD i (0, false)
      if wires.any fun e => e.loses i then match x.2.draw with | (v, d) => (x.1 ++ [(BitVec.ofNat 8 v.toNat, b.2)], d) else (x.1 ++ [b], x.2)) ([], d)
    r.2.updLk c fun l => { l with txRow := l.txRow.map fun _ => r.1 }

/-- The bytes of the next row are taken from the data stream, at the start of the row, where a lane command may take effect (R382). -/
def rowBegin (d : Dev) (c : Nat) (data : List Byte) : Option Dev :=
  if (d.lk c).txRow.isSome then some d
  else
    let d := d.laneEffect c true
    if ¬ rowsOn (d.linkState c) then none else d.rowTake c data

/-- A link control symbol is sent (R151, R152, R376); when it fills the control symbols of its row, the row goes out. `wires` are the wire errors of the bridge
since the last one (R528). In ALIGN the slot carries a row of training codewords, and once the far end's READY is seen and READY is sent, normal rows
follow (R390). -/
def lcsSend (d : Dev) (c : Nat) (data : List Byte) (wires : List WireErr) : Dev :=
  if d.linkState c = 2 then
    let d := wires.foldl (fun d e => d.wireError (c / 32) e) d
    let ready := d.trainReady c
    match d.trainingRow c (d.rowAt c) ready (d.waves c) with
    | (l, d) =>
      let d := d.emit (.row c d.lc (d.rowAt c) l)
      if ¬ ready ∨ l.isEmpty then d
      else
        let d := d.updLk c fun l => { l with readySent := true }
        if (d.lk c).farReady then d.startRows c else d
  else if ¬ rowsOn (d.linkState c) then d
  else
    match d.rowBegin c data with
    | none => d
    | some d =>
      let d := (d.rowWires c wires).nextMsg c
      let l := d.lk c
      let d := d.setLk c { l with out := l.out.drop 1, outN := if l.out.length ≤ 1 then 0 else l.outN + 1 }
      match l.out with
      | b :: r =>
        let d := d.ctlSlot c l.outN b
        if r = [] ∧ l.outTyp = 4 then (d.updLk c fun l => { l with featSent := true }).featureDone c else d
      | [] => d.ctlSlot c 0 0

/-! Control messages (R380, R381). -/

/-- A DOWN message (R389). -/
def downMsg (d : Dev) (c : Nat) : Dev := if rowsOn (d.linkState c) then d.linkDown c 3 else d

/-- What a control message received does: its type, its body, the row in which its first LCS began and the local count at which that row arrived. Messages of
other types are ignored. -/
def ctlMsg (d : Dev) (c typ b first lc : Nat) : Dev :=
  let code := bits b 55 52
  let lane := bits b 51 48
  let wl := bits b 47 44
  let row := bits b 23 0
  if typ = 1 then d.trainMsg c (bits b 55 38) (bits b 37 28) (bit b 27) row first
  else if typ = 2 then d.echoReq c row
  else if typ = 3 then d.echoResp c (bits b 55 32) (bits b 31 16)
  else if typ = 4 then d.featureMsg c (bits b 55 48)
  else if typ = 5 then d.timeMsg c (bits b 55 34) (bits b 33 12) (bit b 11) (bits b 7 4) (bits b 3 0) lc
  else if typ = 6 then
    if code = 1 ∨ code = 3 ∨ code = 5 then d.laneMsg c code lane wl row first
    else if code = 2 ∨ code = 4 ∨ code = 6 then d.laneAck c (code - 1) lane wl row
    else if code = 7 then d.laneRefuse c lane wl row
    else d
  else if typ = 7 then d.downMsg c
  else d

/-! Receiving (R371 to R379). -/

/-- Framing resumes at a byte of a row after the one in which a header failed (R379). -/
def resume (d : Dev) (c row first : Nat) : Dev :=
  let l := d.lk c
  if first = 0xFFF ∨ ¬ l.skip ∨ rowDist l.skipRow row = 0 ∨ 2 ^ 23 ≤ rowDist l.skipRow row then d
  else
    let d := d.inc (R.YZ_FRAME_RESYNC (c / 2))
    match l.rxMark.find? fun x => x.1 = row with
    | none => d.setLk c { l with skip := false }
    | some (_, m) => d.setLk c { l with skip := false, rxBody := none, rxq := l.rxq.drop (m + first - l.rxAbs), rxAbs := max l.rxAbs (m + first) }

/-- A link control symbol that began in row `row` arrives (R152, R153, R376 to R380); the row arrived at local count `lc`. -/
def lcsReceive (d : Dev) (c w row lc : Nat) : Dev :=
  if ¬ rowsOn (d.linkState c) then d
  else if ¬ lcsOk w then (d.inc (R.YZ_LCS_BAD (c / 2))).updLk c fun l => { l with asm := [] }
  else
    let typ := bits w 39 36
    let d := if d.linkState c = 5 then
        (d.setFld (R.SC_XOFF c) F.SC_XOFF_XOFF_RCVD (bits w 35 28 % 32 + bits (bits w 35 28) 7 7 * 128)).updLk c fun l =>
          { l with lastGood := d.lc, starved := false }
      else d
    let d := d.resume c row (bits w 27 16)
    let asm := (d.lk c).asm
    if typ = 1 then d.updLk c fun l => { l with asm := [bits w 15 8], asmRow := row, asmLc := lc }
    else if 2 ≤ typ ∧ typ ≤ 8 ∧ asm.length + 1 = typ then
      let m := asm ++ [bits w 15 8]
      if typ = 8 then
        let v := m.foldl (fun a b => a * 256 + b) 0
        (d.updLk c fun l => { l with asm := [] }).ctlMsg c (v / 2 ^ 56) (v % 2 ^ 56) (d.lk c).asmRow (d.lk c).asmLc
      else d.updLk c fun l => { l with asm := m }
    else d.updLk c fun l => { l with asm := [] }

/-- Exclusive-OR of codewords. -/
def xorAll (l : List (List Nat)) : List Nat := l.foldl (fun a w => List.zipWith Nat.xor a w) (List.replicate 272 0)

/-- The LCSs of a control stream: whole ones, none where a symbol of theirs was lost, and what is left. -/
def takeLcs : Nat → List (Option Nat) → List (Option Nat) × List (Option Nat)
  | 0, l => ([], l)
  | n + 1, l =>
    if l.length < 4 then ([], l)
    else
      let r := takeLcs n (l.drop 4)
      let q := l.take 4
      ((if q.any Option.isNone then none else some (q.foldl (fun a x => a * 1024 + x.getD 0) 0)) :: r.1, r.2)

/-- Descramble one lane's codeword; an unknown state is a free value, and a lost codeword leaves it unknown. -/
def descramble (d : Dev) (w : Option (List Nat)) (s : Option Nat) : Option (List Nat) × Option Nat × Dev :=
  match w with
  | none => (none, none, d)
  | some w =>
    let (s, d) := match s with | some s => (s, d) | none => match d.draw with | (v, d) => (v.toNat % 2 ^ 58, d)
    let r := scrMsg true (w.take 256) s
    (some r.2, some r.1, d)

/-- Framing takes its next step (R374, R379): a nonzero byte outside a packet begins a header, whose length and X flag give the packet's end; a lost byte
outside a packet begins none. None when the bytes received do not reach. -/
def frameStep (d : Dev) (c : Nat) : Option Dev :=
  let l := d.lk c
  let take (n : Nat) (body : Option Nat) : Dev := d.setLk c { l with rxq := l.rxq.drop n, rxAbs := l.rxAbs + n, rxBody := body }
  let bytes (n k : Nat) : List Byte := ((l.rxq.drop n).take k).map (·.getD 0)
  let lost (n : Nat) : Bool := (l.rxq.take n).any Option.isNone
  if l.skip then none
  else
    match l.rxBody with
    | some n => if l.rxq.length < n then none else some ((take n none).payloadEnd c (bytes 0 (n - 4)) (bytes (n - 4) 4) (lost n))
    | none =>
      let idle := (l.rxq.takeWhile fun b => b.all (· = 0)).length
      if 0 < idle then some (take idle none)
      else
        let h := parseHdr (bytes 0 32)
        let hl := 32 + (if h.x then 16 else 0)
        let peek := if h.kind = 0x02 then min 12 h.plen else 0
        if l.rxq.length < 32 ∨ l.rxq.length < hl + peek then none
        else some ((take hl (some (h.plen + 4))).headerArrival c (bytes 0 (hl + peek)) (lost hl))

/-- Framing goes on through the bytes received; each step takes at least one of them. -/
def frameAll : Nat → Dev → Nat → Dev
  | 0, d, _ => d
  | n + 1, d, c => match d.frameStep c with | none => d | some d => frameAll n d c

/-- The data stream of one row: framing, and while it is lost the bytes of the last two rows are kept (R379). -/
def rowBytes (d : Dev) (c row : Nat) (b : List (Option Byte)) : Dev :=
  let l := d.lk c
  let begin' := l.rxAbs + l.rxq.length + (if l.rxBits.isEmpty then 0 else 1)
  let mark := (l.rxMark ++ [(row, begin')]).drop ((l.rxMark.length + 1) - 2)
  let d := frameAll (l.rxq.length + b.length) (d.setLk c { l with rxq := l.rxq ++ b, rxMark := mark }) c
  let l := d.lk c
  if l.skip then
    let old := (l.rxMark.headD (0, 0)).2
    d.setLk c { l with rxBody := none, rxq := l.rxq.drop (old - l.rxAbs), rxAbs := max l.rxAbs old }
  else d

/-- Framing that resumed within the bytes kept goes on through them. -/
def reframe (d : Dev) (c : Nat) : Dev := frameAll (d.lk c).rxq.length d c

/-- One LCS of a row that has arrived, the first of which began in the row before where `early` says so: framing may resume by its FIRST. -/
def rowLcs (d : Dev) (c : Nat) (w : Option Nat) (early : Bool) (prevLc : Nat) : Dev :=
  let row := ((d.lk c).rowRx + 2 ^ 24 - (if early then 2 else 1)) % 2 ^ 24
  match w with
  | some w => (d.lcsReceive c w row (if early then prevLc else d.lc)).reframe c
  | none => d.updLk c fun l => { l with asm := [] }

/-- A row arrives (R371, R372, R402, R412, R427): `cws` holds the codeword of each wavelength, none when missing. Its link control symbols are acted on,
and the headers and payloads that its data stream completes arrive (log entry 21). A codeword that decodes ends the loss of its lane; one that a ring under
calibration misses says nothing of its lane (R433). -/
def rowReceive (d : Dev) (c : Nat) (cws : List (Option (List Nat))) (wires : List WireErr) : Dev :=
  let d := d.laneEffect c false
  if ¬ rowsOn (d.linkState c) then d
  else
    let p := c / 2
    let r := (d.waves c).foldl (fun (x : Dev × List (Nat × List Nat) × List Nat) j =>
      match (if x.1.ring p j true = 2 ∧ ¬ x.1.laneCut p j true then cws.getD j none else none) with
      | none => (x.1, x.2.1, x.2.2 ++ [j])
      | some cw =>
        match x.1.decodeLane p j cw with
        | (some w, d) => (d, x.2.1 ++ [(j, w)], x.2.2)
        | (none, d) => (d, x.2.1, x.2.2 ++ [j])) (d, [], [])
    let d := r.1
    let got := r.2.1
    let miss := r.2.2
    let d := got.foldl (fun d x => d.rxBack c x.1) d
    let l := d.lk c
    let word (j : Nat) : Option (List Nat) := Sparse.find got j
    let par := if l.rxSt = 0 then word 8 else none
    let dat := l.rxMap.map word
    let lost := dat.countP Option.isNone
    let trust := match par with
      | some q => if lost = 0 then (if xorAll (dat.filterMap id) = q then min (l.trust + 1) 8 else 0) else l.trust
      | none => l.trust
    let fix : Option (List Nat) := match par with
      | some q => if lost = 1 ∧ l.trust = 8 then some (xorAll (q :: dat.filterMap id)) else none
      | none => none
    let rows := dat.map fun w => match w with | some w => some w | none => fix
    let d := if fix.isSome then d.inc (R.YZ_PARITY_FIX p) else d
    let d := if rows.any Option.isNone ∨ wires.any (·.w2.isSome) then d.inc (R.YZ_ROW_LOST p) else d
    let r := (List.range rows.length).foldl (fun (x : Dev × List (Option (List Nat)) × List (Option Nat)) i =>
      match x.1.descramble (rows.getD i none) (l.descr.getD i none) with
      | (m, s, d) => (d, x.2.1 ++ [m], x.2.2 ++ [s])) (d, [], [])
    let d := r.1
    let msgs := r.2.1
    let ctl := takeLcs 4 (l.rxCtl ++ msgs.map fun m => m.map fun l => l.getD 0 0)
    let byt := takeBytes 2560 (l.rxBits ++ (rowSymbols (msgs.map fun m => m.map fun l => l.drop 1)).flatMap symBits)
    let b := byt.1.mapIdx fun i x => if wires.any fun e => e.loses i then none else x
    let early := !l.rxCtl.isEmpty
    let row := l.rowRx
    let d := (d.updLk c fun l => { l with
      bad := (List.range 9).map fun j => if d.ring p j true = 5 then l.bad.getD j 0 else if miss.contains j then l.bad.getD j 0 + 1 else 0,
      good := (List.range 9).map fun j => if (word j).isSome then l.good.getD j 0 + 1 else 0,
      trust := trust, descr := r.2.2 }).rowBytes c row b
    let d := d.updLk c fun l => { l with rxCtl := ctl.2, rxBits := byt.2, rowRx := (row + 1) % 2 ^ 24, rowLc := d.lc }
    let d := wires.foldl (fun d e => d.wireError (p / 16) e) d
    let d := d.emit (.rxRow c d.lc row ctl.1 b)
    (List.range ctl.1.length).foldl (fun (d : Dev) i => d.rowLcs c (ctl.1.getD i none) (early && i = 0) l.rowLc) d

end Dev
end Sys2Proof.Machine
end

