-- ==== Sys2Proof/Syntax.lean ====
section
/-! DEFINITION. The commands of the block: one constructor for each row of spec/opcode_table.json, in the table's order, named after the row's mnemonic
(the instructions of a vat's sequencer with `seq` before it).

A row that is an event takes first `now`, the local count at which it happens (0.8 ns each, spec/13_time.md R438). Other operands: `c` a port code, `p` a
physical port, `pl` a pipeline, `b` a vat bank, `v` a physical vat, `lv` a logical vat, `g` a Mordant group or a group of bridge wires, `j` a wavelength, `rx` the receive side,
`n` a session, time pulse output or core, `seq` the SEQ of a UCP command and `body` its body, `ep` the endpoint that a frame `fr` comes from, `a` the
address of a register and `v` the word written, `q` a quiesce unit, `id` the number of a packet held, `err` an error that the storage read reports.
What an operand means beyond that is said where the row is given its meaning. -/
namespace Sys2Proof
open Machine Machine.Dev

/-- The commands. -/
inductive Instr where
  /-- `BEAT_BOUNDARY` (spec/01_architecture.md R35). -/
  | beatBoundary (now : Nat)
  /-- `REGISTER_WRITE` (spec/00_scope.md R15). -/
  | registerWrite (a v : Nat)
  /-- `QUIESCE_REQUEST` (spec/01_architecture.md R39). -/
  | quiesceRequest (now : Nat) (q : QUnit)
  /-- `QUIESCE_RELEASE` (spec/04_switch_core.md R157). -/
  | quiesceRelease (now : Nat) (q : QUnit)
  /-- `QUIESCE_DRAINED` (spec/01_architecture.md R39). -/
  | quiesceDrained (now : Nat) (q : QUnit)
  /-- `FORCED_QUIESCE` (spec/01_architecture.md R40). -/
  | forcedQuiesce (now : Nat) (q : QUnit)
  /-- `MRD_STAGE` (spec/01_architecture.md R660). -/
  | mrdStage (now a v : Nat)
  /-- `MRD_CLEAR` (spec/01_architecture.md R660). -/
  | mrdClear (now g count : Nat)
  /-- `MRD_CANCEL` (spec/01_architecture.md R47). -/
  | mrdCancel (now g count : Nat)
  /-- `MRD_ARM` (spec/01_architecture.md R44). -/
  | mrdArm (now g count : Nat) (ecc : Bool)
  /-- `MORDANT_GROUP_APPLY` (spec/01_architecture.md R45). -/
  | mordantGroupApply (now : Nat)
  /-- `RETIRE_NOW` (spec/03_forwarding.md R126). -/
  | retireNow (now pl : Nat)
  /-- `PREV_BANK_RETIRE` (spec/03_forwarding.md R126). -/
  | prevBankRetire (now pl : Nat)
  /-- `REFCLK_LOST` (spec/13_time.md R441). -/
  | refclkLost (now : Nat)
  /-- `REFCLK_RESTORED` (spec/13_time.md R441). -/
  | refclkRestored (now : Nat)
  /-- `ROW_RECEIVE` (spec/11_optical_links.md R371). -/
  | rowReceive (now c : Nat) (cws : List (Option (List Nat))) (wires : List WireErr)
  /-- `PACKET_HEADER_ARRIVAL` (spec/02_fabric_protocol.md R86). -/
  | packetHeaderArrival (now c : Nat) (raw : List Byte) (lost : Bool) (sram : Option SramErr)
  /-- `PAYLOAD_END` (spec/02_fabric_protocol.md R83). -/
  | payloadEnd (now c : Nat) (pay check : List Byte) (lost : Bool)
  /-- `EM_OVERFLOW_LOOKUP_DONE` (spec/03_forwarding.md R118). -/
  | emOverflowLookupDone (now id : Nat) (errs : List (Nat × List Nat))
  /-- `EM_LEARN_APPLY` (spec/03_forwarding.md R121). -/
  | emLearnApply (now pl : Nat) (errs : List (Nat × List Nat))
  /-- `EM_AGE_OUT` (spec/03_forwarding.md R122). -/
  | emAgeOut (now part : Nat) (mac : List Byte) (errs : List (Nat × List Nat))
  /-- `FENCE_RELEASE` (spec/04_switch_core.md R159). -/
  | fenceRelease (now id : Nat)
  /-- `FENCE_STALL_RELEASE` (spec/04_switch_core.md R160). -/
  | fenceStallRelease (now id : Nat)
  /-- `CROSSBAR_SLOT` (spec/04_switch_core.md R144). -/
  | crossbarSlot (now : Nat) (full : List Nat) (errs : List PartErr)
  /-- `SLICE_HARD_FAULT` (spec/15_faults_sparing.md R503). -/
  | sliceHardFault (now x : Nat)
  /-- `AGE_LIMIT` (spec/04_switch_core.md R162). -/
  | ageLimit (now id : Nat) (out : Option Nat)
  /-- `EGRESS_CHOOSE` (spec/06_scheduling_shaping.md R194). -/
  | egressChoose (now c : Nat)
  /-- `LAUNCH_TIME_REACHED` (spec/06_scheduling_shaping.md R212). -/
  | launchTimeReached (now c v : Nat)
  /-- `TRANSMIT_COMPLETE` (spec/05_lake.md R169). -/
  | transmitComplete (now c : Nat) (ptr : Option Nat)
  /-- `RESULT_ADMIT` (spec/05_lake.md R180). -/
  | resultAdmit (now b : Nat) (err : Option ResErr)
  /-- `ORIGINATED_ADMIT` (spec/05_lake.md R662). -/
  | originatedAdmit (now : Nat) (tu : Bool)
  /-- `GCL_GO` (spec/06_scheduling_shaping.md R207). -/
  | gclGo (now c len cyc : Nat)
  /-- `GCL_CANCEL` (spec/06_scheduling_shaping.md R209). -/
  | gclCancel (now c len cyc : Nat)
  /-- `GCL_HANDOVER` (spec/06_scheduling_shaping.md R208). -/
  | gclHandover (now : Nat)
  /-- `GATE_INTERVAL_EXPIRY` (spec/06_scheduling_shaping.md R204). -/
  | gateIntervalExpiry (now c : Nat)
  /-- `CONTRIBUTION_ACCEPT` (spec/07_collectives.md R227). -/
  | contributionAccept (now b : Nat) (err : Option DescErr)
  /-- `VAT_CONTRIBUTION` (spec/07_collectives.md R230). -/
  | vatContribution (now lv : Nat) (err : Option DescErr)
  /-- `HANDLER_STEP` (spec/09_vat_programming.md R315). -/
  | handlerStep (now lv : Nat)
  /-- `HANDLER_FINAL` (spec/09_vat_programming.md R312). -/
  | handlerFinal (now lv k : Nat) (err : Option DescErr)
  /-- `ARRAY_OP_COMPLETE` (spec/09_vat_programming.md R315). -/
  | arrayOpComplete (now lv arr : Nat) (err : Option (Nat × Bool)) (desc : Option DescErr)
  /-- `CHUNK_TIMEOUT` (spec/07_collectives.md R242). -/
  | chunkTimeout (now lv k : Nat) (ptr : Option (Nat × Nat × Nat)) (err : Option DescErr)
  /-- `RECORD_ENTRY_EXPIRE` (spec/07_collectives.md R229). -/
  | recordEntryExpire (now lv stream chunk : Nat)
  /-- `LAUNCH_ACK_ACCEPT` (spec/07_collectives.md R247). -/
  | launchAckAccept (now b : Nat) (err : Option DescErr)
  /-- `LAUNCH_TIMEOUT` (spec/07_collectives.md R250). -/
  | launchTimeout (now b stream chunk : Nat) (err : Option DescErr)
  /-- `LAUNCH_SLOT_FREE` (spec/07_collectives.md R252). -/
  | launchSlotFree (now b stream chunk : Nat)
  /-- `CE_ABORT_GO` (spec/07_collectives.md R253). -/
  | ceAbortGo (now part : Nat)
  /-- `PARTITION_ABORT_RUN` (spec/07_collectives.md R254). -/
  | partitionAbortRun (now : Nat) (err : Option DescErr)
  /-- `CE_TW_READ` (spec/07_collectives.md R259). -/
  | ceTwRead (now table : Nat)
  /-- `CE_TW_WRITE` (spec/07_collectives.md R257). -/
  | ceTwWrite (now table : Nat)
  /-- `CE_TW_INVALIDATE` (spec/07_collectives.md R258). -/
  | ceTwInvalidate (now table : Nat)
  /-- `CE_WINDOW_COMPLETE` (spec/07_collectives.md R259). -/
  | ceWindowComplete (now : Nat) (err : Option DescErr)
  /-- `TW_READ` (spec/03_forwarding.md R132). -/
  | twRead (now pl table bank : Nat)
  /-- `TW_WRITE` (spec/03_forwarding.md R128). -/
  | twWrite (now pl table bank : Nat)
  /-- `TW_INVALIDATE` (spec/03_forwarding.md R128). -/
  | twInvalidate (now pl table bank : Nat)
  /-- `TW_BANK_COPY` (spec/03_forwarding.md R136). -/
  | twBankCopy (now pl table bank : Nat)
  /-- `TW_EM_INSERT` (spec/03_forwarding.md R135). -/
  | twEmInsert (now pl : Nat)
  /-- `TW_EM_DELETE` (spec/03_forwarding.md R135). -/
  | twEmDelete (now pl : Nat)
  /-- `TW_EM_FIND` (spec/03_forwarding.md R132). -/
  | twEmFind (now pl : Nat)
  /-- `TW_EM_FLUSH` (spec/03_forwarding.md R135). -/
  | twEmFlush (now pl : Nat)
  /-- `TABLE_WINDOW_COMPLETE` (spec/03_forwarding.md R132). -/
  | tableWindowComplete (now pl : Nat) (ecc : Bool) (errs : List (Nat × List Nat))
  /-- `NOP` (spec/09_vat_programming.md R323). -/
  | seqNop (lv : Nat) (ecc : Bool) (err : Option DescErr)
  /-- `DONE` (spec/09_vat_programming.md R323). -/
  | seqDone (lv : Nat) (ecc : Bool) (err : Option DescErr)
  /-- `SETF` (spec/09_vat_programming.md R323). -/
  | seqSetf (lv : Nat) (ecc : Bool) (err : Option DescErr)
  /-- `LI` (spec/09_vat_programming.md R323). -/
  | seqLi (lv : Nat) (ecc : Bool) (err : Option DescErr)
  /-- `LUI` (spec/09_vat_programming.md R323). -/
  | seqLui (lv : Nat) (ecc : Bool) (err : Option DescErr)
  /-- `ADD` (spec/09_vat_programming.md R323). -/
  | seqAdd (lv : Nat) (ecc : Bool) (err : Option DescErr)
  /-- `SUB` (spec/09_vat_programming.md R323). -/
  | seqSub (lv : Nat) (ecc : Bool) (err : Option DescErr)
  /-- `AND` (spec/09_vat_programming.md R323). -/
  | seqAnd (lv : Nat) (ecc : Bool) (err : Option DescErr)
  /-- `OR` (spec/09_vat_programming.md R323). -/
  | seqOr (lv : Nat) (ecc : Bool) (err : Option DescErr)
  /-- `XOR` (spec/09_vat_programming.md R323). -/
  | seqXor (lv : Nat) (ecc : Bool) (err : Option DescErr)
  /-- `SHL` (spec/09_vat_programming.md R323). -/
  | seqShl (lv : Nat) (ecc : Bool) (err : Option DescErr)
  /-- `SHR` (spec/09_vat_programming.md R323). -/
  | seqShr (lv : Nat) (ecc : Bool) (err : Option DescErr)
  /-- `SAR` (spec/09_vat_programming.md R323). -/
  | seqSar (lv : Nat) (ecc : Bool) (err : Option DescErr)
  /-- `MUL` (spec/09_vat_programming.md R323). -/
  | seqMul (lv : Nat) (ecc : Bool) (err : Option DescErr)
  /-- `MAX` (spec/09_vat_programming.md R323). -/
  | seqMax (lv : Nat) (ecc : Bool) (err : Option DescErr)
  /-- `MIN` (spec/09_vat_programming.md R323). -/
  | seqMin (lv : Nat) (ecc : Bool) (err : Option DescErr)
  /-- `ADDI` (spec/09_vat_programming.md R323). -/
  | seqAddi (lv : Nat) (ecc : Bool) (err : Option DescErr)
  /-- `SUBI` (spec/09_vat_programming.md R323). -/
  | seqSubi (lv : Nat) (ecc : Bool) (err : Option DescErr)
  /-- `ANDI` (spec/09_vat_programming.md R323). -/
  | seqAndi (lv : Nat) (ecc : Bool) (err : Option DescErr)
  /-- `ORI` (spec/09_vat_programming.md R323). -/
  | seqOri (lv : Nat) (ecc : Bool) (err : Option DescErr)
  /-- `XORI` (spec/09_vat_programming.md R323). -/
  | seqXori (lv : Nat) (ecc : Bool) (err : Option DescErr)
  /-- `SHLI` (spec/09_vat_programming.md R323). -/
  | seqShli (lv : Nat) (ecc : Bool) (err : Option DescErr)
  /-- `SHRI` (spec/09_vat_programming.md R323). -/
  | seqShri (lv : Nat) (ecc : Bool) (err : Option DescErr)
  /-- `SARI` (spec/09_vat_programming.md R323). -/
  | seqSari (lv : Nat) (ecc : Bool) (err : Option DescErr)
  /-- `MULI` (spec/09_vat_programming.md R323). -/
  | seqMuli (lv : Nat) (ecc : Bool) (err : Option DescErr)
  /-- `MAXI` (spec/09_vat_programming.md R323). -/
  | seqMaxi (lv : Nat) (ecc : Bool) (err : Option DescErr)
  /-- `MINI` (spec/09_vat_programming.md R323). -/
  | seqMini (lv : Nat) (ecc : Bool) (err : Option DescErr)
  /-- `GETS` (spec/09_vat_programming.md R318). -/
  | seqGets (lv : Nat) (ecc : Bool) (err : Option DescErr)
  /-- `LDW` (spec/09_vat_programming.md R323). -/
  | seqLdw (lv : Nat) (ecc : Bool) (err : Option DescErr)
  /-- `STW` (spec/09_vat_programming.md R323). -/
  | seqStw (lv : Nat) (ecc : Bool) (err : Option DescErr)
  /-- `BRA` (spec/09_vat_programming.md R323). -/
  | seqBra (lv : Nat) (ecc : Bool) (err : Option DescErr)
  /-- `BEQ` (spec/09_vat_programming.md R323). -/
  | seqBeq (lv : Nat) (ecc : Bool) (err : Option DescErr)
  /-- `BNE` (spec/09_vat_programming.md R323). -/
  | seqBne (lv : Nat) (ecc : Bool) (err : Option DescErr)
  /-- `BLT` (spec/09_vat_programming.md R323). -/
  | seqBlt (lv : Nat) (ecc : Bool) (err : Option DescErr)
  /-- `BGE` (spec/09_vat_programming.md R323). -/
  | seqBge (lv : Nat) (ecc : Bool) (err : Option DescErr)
  /-- `AOP` (spec/09_vat_programming.md R324). -/
  | seqAop (lv : Nat) (ecc : Bool) (err : Option DescErr)
  /-- `WAIT` (spec/09_vat_programming.md R323). -/
  | seqWait (lv : Nat) (ecc : Bool) (err : Option DescErr)
  /-- `OUT` (spec/09_vat_programming.md R327). -/
  | seqOut (lv : Nat) (ecc : Bool) (err : Option DescErr)
  /-- `SEND` (spec/09_vat_programming.md R331). -/
  | seqSend (lv : Nat) (ecc : Bool) (err : Option DescErr)
  /-- `RECV` (spec/09_vat_programming.md R332). -/
  | seqRecv (lv : Nat) (ecc : Bool) (err : Option DescErr)
  /-- `RECIPE_BUDGET_EXPIRE` (spec/09_vat_programming.md R335). -/
  | recipeBudgetExpire (now lv : Nat) (err : Option DescErr)
  /-- `MESSAGE_DELIVER` (spec/09_vat_programming.md R333). -/
  | messageDeliver (now src dst : Nat)
  /-- `MESSAGE_EXPIRE` (spec/09_vat_programming.md R334). -/
  | messageExpire (now lv : Nat)
  /-- `LCS_SEND` (spec/04_switch_core.md R151). -/
  | lcsSend (now c : Nat) (data : List Byte) (wires : List WireErr)
  /-- `LCS_RECEIVE` (spec/11_optical_links.md R377). -/
  | lcsReceive (now c w row : Nat)
  /-- `LCS_TIMEOUT_XOFF` (spec/11_optical_links.md R378). -/
  | lcsTimeoutXoff (now c : Nat)
  /-- `LCS_TIMEOUT_DOWN` (spec/11_optical_links.md R378). -/
  | lcsTimeoutDown (now c : Nat)
  /-- `TRAIN` (spec/11_optical_links.md R391). -/
  | train (now c chip port : Nat) (split : Bool) (row first : Nat)
  /-- `ECHO_REQ` (spec/11_optical_links.md R381). -/
  | echoReq (now c row : Nat)
  /-- `ECHO_RESP` (spec/11_optical_links.md R393). -/
  | echoResp (now c row turn : Nat)
  /-- `FEATURE` (spec/11_optical_links.md R392). -/
  | feature (now c lvl : Nat)
  /-- `TIME` (spec/13_time.md R448). -/
  | time (now c ttx trx : Nat) (rxv : Bool) (seqTx seqRx arr : Nat)
  /-- `MOVE` (spec/12_optical_health.md R421). -/
  | move (now c lane wl row first : Nat)
  /-- `MOVE_ACK` (spec/12_optical_health.md R423). -/
  | moveAck (now c lane wl row : Nat)
  /-- `RESTORE` (spec/12_optical_health.md R421). -/
  | restore (now c lane wl row first : Nat)
  /-- `RESTORE_ACK` (spec/12_optical_health.md R424). -/
  | restoreAck (now c lane wl row : Nat)
  /-- `NARROW` (spec/12_optical_health.md R425). -/
  | narrow (now c lane wl row first : Nat)
  /-- `NARROW_ACK` (spec/12_optical_health.md R425). -/
  | narrowAck (now c lane wl row : Nat)
  /-- `REFUSE` (spec/12_optical_health.md R423). -/
  | refuse (now c lane wl row : Nat)
  /-- `LANE_REQUEST` (spec/12_optical_health.md R422). -/
  | laneRequest (now c code lane wl row first : Nat)
  /-- `DOWN` (spec/11_optical_links.md R388). -/
  | down (now c : Nat)
  /-- `LANE_EFFECT_ROW` (spec/12_optical_health.md R420). -/
  | laneEffectRow (now c : Nat) (tx : Bool)
  /-- `LANE_ACK_TIMEOUT` (spec/12_optical_health.md R426). -/
  | laneAckTimeout (now c : Nat)
  /-- `LANE_LOST` (spec/11_optical_links.md R386). -/
  | laneLost (now p j : Nat) (rx : Bool) (why : Nat)
  /-- `HOLDOFF_EXPIRE` (spec/11_optical_links.md R388). -/
  | holdoffExpire (now c : Nat)
  /-- `LINK_ENABLE` (spec/11_optical_links.md R389). -/
  | linkEnable (now p : Nat)
  /-- `LINK_DISABLE` (spec/11_optical_links.md R387). -/
  | linkDisable (now p : Nat)
  /-- `LIGHT_ARRIVAL` (spec/12_optical_health.md R410). -/
  | lightArrival (now p j : Nat)
  /-- `LIGHT_EXIT` (spec/12_optical_health.md R410). -/
  | lightExit (now c : Nat)
  /-- `TRAINING_CODEWORD` (spec/11_optical_links.md R390). -/
  | trainingCodeword (now c j : Nat) (cw : List Nat)
  /-- `TRAINING_TIMEOUT` (spec/11_optical_links.md R389). -/
  | trainingTimeout (now c : Nat)
  /-- `INDIGO_ENABLE` (spec/11_optical_links.md R395). -/
  | indigoEnable (now n a b : Nat)
  /-- `INDIGO_DISABLE` (spec/11_optical_links.md R396). -/
  | indigoDisable (now n : Nat)
  /-- `INDIGO_ACTIVE` (spec/11_optical_links.md R395). -/
  | indigoActive (now n : Nat)
  /-- `INDIGO_CODEWORD_PASS` (spec/11_optical_links.md R397). -/
  | indigoCodewordPass (now n : Nat) (ab : Bool) (j : Nat) (cw : List Nat) (wires outs : List WireErr)
  /-- `IDENTITY_READ` (spec/12_optical_health.md R405). -/
  | identityRead (now p j : Nat) (rx : Bool) (chips : List Bool)
  /-- `IDENTITY_TIMEOUT` (spec/12_optical_health.md R407). -/
  | identityTimeout (now p j : Nat) (rx : Bool)
  /-- `RELOCK_ATTEMPT_END` (spec/12_optical_health.md R407). -/
  | relockAttemptEnd (now p j : Nat) (rx : Bool) (chips : List Bool)
  /-- `MARGIN_EVAL` (spec/12_optical_health.md R411). -/
  | marginEval (now : Nat) (powers : List LanePower) (limits : List (Nat × Nat))
  /-- `CAL_VISIT_START` (spec/12_optical_health.md R430). -/
  | calVisitStart (now p j : Nat)
  /-- `CAL_DWELL_END` (spec/12_optical_health.md R432). -/
  | calDwellEnd (now : Nat)
  /-- `SLOT_ENABLE` (spec/12_optical_health.md R435). -/
  | slotEnable (now k : Nat) (en : Bool)
  /-- `MODULE_INSERTED` (spec/12_optical_health.md R435). -/
  | moduleInserted (now k : Nat)
  /-- `MODULE_REMOVED` (spec/12_optical_health.md R435). -/
  | moduleRemoved (now k : Nat)
  /-- `LASER_READY` (spec/12_optical_health.md R436). -/
  | laserReady (now k : Nat) (taps : List Int)
  /-- `SOURCE_LOST` (spec/13_time.md R444). -/
  | sourceLost (now : Nat)
  /-- `PARENT_SWITCH` (spec/13_time.md R446). -/
  | parentSwitch (now : Nat)
  /-- `TIME_ANNOUNCE_SEND` (spec/13_time.md R452). -/
  | timeAnnounceSend (now : Nat)
  /-- `TIME_ANNOUNCE_RECEIVE` (spec/13_time.md R452). -/
  | timeAnnounceReceive (now c : Nat) (pay : List Byte)
  /-- `SET_NOW` (spec/13_time.md R456). -/
  | setNow (now : Nat)
  /-- `SET_AT_PPS` (spec/13_time.md R456). -/
  | setAtPps (now : Nat)
  /-- `PPS_EDGE` (spec/13_time.md R456). -/
  | ppsEdge (now : Nat)
  /-- `SYNC` (spec/13_time.md R458). -/
  | sync (now dom : Nat) (src : List Byte) (seq : Nat) (twoStep : Bool) (t1 : Nat) (corr : Int)
  /-- `FOLLOW_UP` (spec/13_time.md R458). -/
  | followUp (now dom : Nat) (src : List Byte) (seq t1 : Nat) (corr : Int)
  /-- `DELAY_REQ` (spec/13_time.md R457). -/
  | delayReq (now dom : Nat) (src : List Byte) (seq : Nat) (corr : Int)
  /-- `DELAY_RESP` (spec/13_time.md R457). -/
  | delayResp (now dom : Nat) (src req : List Byte) (seq t4 : Nat) (corr : Int)
  /-- `ANNOUNCE` (spec/13_time.md R459). -/
  | announce (now dom : Nat) (data : PtpData)
  /-- `PTP_MESSAGE_SEND` (spec/13_time.md R458). -/
  | ptpMessageSend (now : Nat)
  /-- `TPO_GO` (spec/13_time.md R461). -/
  | tpoGo (now n mode pol : Nat)
  /-- `TPO_CTRL_CANCEL` (spec/13_time.md R461). -/
  | tpoCtrlCancel (now n mode pol : Nat)
  /-- `TPO_PULSE` (spec/13_time.md R460). -/
  | tpoPulse (now n : Nat)
  /-- `TPO_PULSE_END` (spec/13_time.md R460). -/
  | tpoPulseEnd (now n : Nat)
  /-- `MGMT_PORT_LINK_CHANGE` (spec/14_control_protocol.md R465). -/
  | mgmtPortLinkChange (now : Nat) (up kr cr : Bool)
  /-- `MGMT_FRAME_RECEIVE` (spec/14_control_protocol.md R466). -/
  | mgmtFrameReceive (now : Nat) (fcs : Bool) (fr : List Byte)
  /-- `NEIGHBOR_SOLICITATION` (spec/14_control_protocol.md R467). -/
  | neighborSolicitation (now : Nat) (mac pkt : List Byte)
  /-- `ECHO_REQUEST` (spec/14_control_protocol.md R467). -/
  | echoRequest (now : Nat) (mac pkt : List Byte)
  /-- `HELLO` (spec/14_control_protocol.md R477). -/
  | hello (now : Nat) (ep : Ep) (fr : List Byte)
  /-- `FINISH` (spec/14_control_protocol.md R478). -/
  | finish (now : Nat) (ep : Ep) (fr : List Byte)
  /-- `HELLO_TIMEOUT` (spec/14_control_protocol.md R478). -/
  | helloTimeout (now n : Nat)
  /-- `COMMAND` (spec/14_control_protocol.md R483). -/
  | command (now : Nat) (ep : Ep) (fr : List Byte)
  /-- `EVENT_ACK` (spec/14_control_protocol.md R494). -/
  | eventAck (now : Nat) (ep : Ep) (fr : List Byte)
  /-- `EVENT_RESEND` (spec/14_control_protocol.md R494). -/
  | eventResend (now n : Nat)
  /-- `SESSION_IDLE_TIMEOUT` (spec/14_control_protocol.md R480). -/
  | sessionIdleTimeout (now n : Nat)
  /-- `DEVICE_INFO` (spec/14_control_protocol.md R491). -/
  | deviceInfo (n seq : Nat) (body : List Byte)
  /-- `SESSION_CLOSE` (spec/14_control_protocol.md R480). -/
  | sessionClose (n seq : Nat) (body : List Byte)
  /-- `SESSION_FLUSH` (spec/14_control_protocol.md R487). -/
  | sessionFlush (n seq : Nat) (body : List Byte)
  /-- `SESSION_HISTORY` (spec/14_control_protocol.md R481). -/
  | sessionHistory (n seq : Nat) (body : List Byte)
  /-- `EVENT_SUBSCRIBE` (spec/14_control_protocol.md R493). -/
  | eventSubscribe (n seq : Nat) (body : List Byte)
  /-- `NOP_COMMAND` (spec/14_control_protocol.md R491). -/
  | nopCommand (n seq : Nat) (body : List Byte)
  /-- `CSR_READ` (spec/14_control_protocol.md R498). -/
  | csrRead (n seq : Nat) (body : List Byte) (errs : List (Nat × List Nat))
  /-- `CSR_WRITE` (spec/14_control_protocol.md R492). -/
  | csrWrite (n seq : Nat) (body : List Byte)
  /-- `CSR_RMW` (spec/14_control_protocol.md R492). -/
  | csrRmw (n seq : Nat) (body : List Byte) (errs : List (Nat × List Nat))
  /-- `CSR_POLL` (spec/14_control_protocol.md R492). -/
  | csrPoll (n seq : Nat) (body : List Byte) (errs : List (Nat × List Nat))
  /-- `CSR_POLL_TIMEOUT` (spec/14_control_protocol.md R492). -/
  | csrPollTimeout (now n : Nat) (errs : List (Nat × List Nat))
  /-- `TBL_READ` (spec/14_control_protocol.md R492). -/
  | tblRead (n seq : Nat) (body : List Byte)
  /-- `TBL_WRITE` (spec/14_control_protocol.md R492). -/
  | tblWrite (n seq : Nat) (body : List Byte)
  /-- `TBL_INVALIDATE` (spec/14_control_protocol.md R492). -/
  | tblInvalidate (n seq : Nat) (body : List Byte)
  /-- `BANK_COPY` (spec/14_control_protocol.md R492). -/
  | bankCopy (n seq : Nat) (body : List Byte)
  /-- `EM_INSERT` (spec/14_control_protocol.md R492). -/
  | emInsert (n seq : Nat) (body : List Byte)
  /-- `EM_DELETE` (spec/14_control_protocol.md R492). -/
  | emDelete (n seq : Nat) (body : List Byte)
  /-- `EM_FIND` (spec/14_control_protocol.md R492). -/
  | emFind (n seq : Nat) (body : List Byte)
  /-- `EM_FLUSH` (spec/14_control_protocol.md R492). -/
  | emFlush (n seq : Nat) (body : List Byte)
  /-- `TBL_WRITE_ALL` (spec/14_control_protocol.md R492). -/
  | tblWriteAll (n seq : Nat) (body : List Byte)
  /-- `CE_READ` (spec/14_control_protocol.md R492). -/
  | ceRead (n seq : Nat) (body : List Byte)
  /-- `CE_WRITE` (spec/14_control_protocol.md R492). -/
  | ceWrite (n seq : Nat) (body : List Byte)
  /-- `CE_INVALIDATE` (spec/14_control_protocol.md R492). -/
  | ceInvalidate (n seq : Nat) (body : List Byte)
  /-- `PARTITION_ABORT` (spec/07_collectives.md R253). -/
  | partitionAbort (n seq : Nat) (body : List Byte)
  /-- `CE_STATUS` (spec/14_control_protocol.md R491). -/
  | ceStatus (n seq : Nat) (body : List Byte)
  /-- `PORT_STATUS` (spec/14_control_protocol.md R491). -/
  | portStatus (n seq : Nat) (body : List Byte)
  /-- `PORT_ENABLE` (spec/14_control_protocol.md R491). -/
  | portEnable (n seq : Nat) (body : List Byte)
  /-- `PORT_QUIESCE` (spec/14_control_protocol.md R488). -/
  | portQuiesce (n seq : Nat) (body : List Byte)
  /-- `INDIGO_SET` (spec/14_control_protocol.md R491). -/
  | indigoSet (n seq : Nat) (body : List Byte)
  /-- `LANE_STATUS` (spec/14_control_protocol.md R491). -/
  | laneStatus (n seq : Nat) (body : List Byte)
  /-- `SLOT_CTRL` (spec/14_control_protocol.md R491). -/
  | slotCtrl (n seq : Nat) (body : List Byte)
  /-- `TIME_STATUS` (spec/14_control_protocol.md R491). -/
  | timeStatus (n seq : Nat) (body : List Byte)
  /-- `TPO_ARM` (spec/13_time.md R461). -/
  | tpoArm (n seq : Nat) (body : List Byte)
  /-- `TPO_CANCEL` (spec/13_time.md R461). -/
  | tpoCancel (n seq : Nat) (body : List Byte)
  /-- `PORT_HOLD` (spec/15_faults_sparing.md R544). -/
  | portHold (n seq : Nat) (ids : List Nat)
  /-- `LASER_SERVICE` (spec/15_faults_sparing.md R544). -/
  | laserService (n seq : Nat) (ids : List Nat)
  /-- `OE_SELFTEST` (spec/15_faults_sparing.md R544). -/
  | oeSelftest (n seq : Nat) (ids : List Nat)
  /-- `VAT_RETIRE` (spec/15_faults_sparing.md R520). -/
  | vatRetire (n seq : Nat) (ids : List Nat)
  /-- `SLICE_SWAP` (spec/15_faults_sparing.md R523). -/
  | sliceSwap (n seq : Nat) (ids : List Nat)
  /-- `DDR_RETIRE` (spec/15_faults_sparing.md R534). -/
  | ddrRetire (n seq : Nat) (ids : List Nat)
  /-- `BANK_SELFTEST` (spec/15_faults_sparing.md R544). -/
  | bankSelftest (n seq : Nat) (ids : List Nat)
  /-- `MAINT_STOP` (spec/15_faults_sparing.md R548). -/
  | maintStop (n seq : Nat) (body : List Byte)
  /-- `MAINT_STATUS` (spec/14_control_protocol.md R491). -/
  | maintStatus (n seq : Nat) (body : List Byte)
  /-- `ERR_READ` (spec/15_faults_sparing.md R512). -/
  | errRead (n seq : Nat) (body : List Byte)
  /-- `ERR_ACK` (spec/15_faults_sparing.md R511). -/
  | errAck (n seq : Nat) (body : List Byte)
  /-- `ER_ACK` (spec/15_faults_sparing.md R511). -/
  | erAck (now k : Nat)
  /-- `FW_STATUS` (spec/14_control_protocol.md R491). -/
  | fwStatus (n seq : Nat) (body : List Byte)
  /-- `IMG_BEGIN` (spec/14_control_protocol.md R492). -/
  | imgBegin (n seq : Nat) (body : List Byte)
  /-- `IMG_DATA` (spec/14_control_protocol.md R492). -/
  | imgData (n seq : Nat) (body : List Byte)
  /-- `FIRMWARE_IMAGE_COMMIT` (spec/17_boot_security.md R584). -/
  | firmwareImageCommit (n seq : Nat)
  /-- `RECIPE_LOAD` (spec/09_vat_programming.md R342). -/
  | recipeLoad (n seq : Nat)
  /-- `FW_ACTIVATE` (spec/17_boot_security.md R585). -/
  | fwActivate (n seq : Nat) (body : List Byte) (errs : List (Nat × List Nat))
  /-- `GET_CERTS` (spec/17_boot_security.md R596). -/
  | getCerts (n seq : Nat) (body : List Byte)
  /-- `ATTEST` (spec/17_boot_security.md R598). -/
  | attest (n seq : Nat) (body : List Byte)
  /-- `CRED_READ` (spec/14_control_protocol.md R491). -/
  | credRead (n seq : Nat) (body : List Byte)
  /-- `CRED_WRITE` (spec/14_control_protocol.md R479). -/
  | credWrite (n seq : Nat) (body : List Byte)
  /-- `SVN_COMMIT_FIRMWARE` (spec/17_boot_security.md R591). -/
  | svnCommitFirmware (n seq : Nat)
  /-- `SVN_COMMIT_RECIPE` (spec/17_boot_security.md R591). -/
  | svnCommitRecipe (n seq : Nat)
  /-- `CTR_SNAPSHOT` (spec/18_telemetry.md R601). -/
  | ctrSnapshot (n seq : Nat) (body : List Byte)
  /-- `TELEM_SUBSCRIBE` (spec/18_telemetry.md R608). -/
  | telemSubscribe (n seq : Nat) (body : List Byte)
  /-- `FLIGHT_READ` (spec/18_telemetry.md R617). -/
  | flightRead (n seq : Nat) (body : List Byte) (errs : List (Nat × List Nat))
  /-- `POWER_STATUS` (spec/16_power_umber.md R571). -/
  | powerStatus (n seq : Nat) (body : List Byte)
  /-- `THERMAL_STATUS` (spec/16_power_umber.md R571). -/
  | thermalStatus (n seq : Nat) (body : List Byte)
  /-- `UMBER_ENTER` (spec/16_power_umber.md R559). -/
  | umberEnter (n seq : Nat) (body : List Byte)
  /-- `UMBER_ENTRY_COMPLETE` (spec/16_power_umber.md R560). -/
  | umberEntryComplete (now : Nat)
  /-- `WAKE_REQ_WRITE` (spec/16_power_umber.md R561). -/
  | wakeReqWrite (now : Nat) (req : Bool)
  /-- `GRANT_INSTANT` (spec/16_power_umber.md R562). -/
  | grantInstant (now : Nat)
  /-- `RAMP_STEP` (spec/16_power_umber.md R563). -/
  | rampStep (now : Nat) (pll : Option Nat)
  /-- `WAKE_COMPLETE` (spec/16_power_umber.md R564). -/
  | wakeComplete (now : Nat) (bad : List Nat)
  /-- `BIST_DONE` (spec/17_boot_security.md R581). -/
  | bistDone (now : Nat) (rows vats slices wires : List (Nat × Nat))
  /-- `THERMAL_WARN` (spec/16_power_umber.md R566). -/
  | thermalWarn (now sensor t : Nat)
  /-- `THERMAL_TRIP` (spec/16_power_umber.md R567). -/
  | thermalTrip (now sensor t : Nat)
  /-- `RAIL_WARN` (spec/16_power_umber.md R568). -/
  | railWarn (now rail mv : Nat)
  /-- `UNDERVOLTAGE_RESET` (spec/16_power_umber.md R568). -/
  | undervoltageReset (now rail mv : Nat)
  /-- `POWER_OVER` (spec/16_power_umber.md R569). -/
  | powerOver (now w : Nat)
  /-- `POWER_ON_RESET` (spec/17_boot_security.md R573). -/
  | powerOnReset (now : Nat)
  /-- `FULL_RESET` (spec/17_boot_security.md R573). -/
  | fullReset (now : Nat) (pwrgood : Bool)
  /-- `RESET_RELEASE` (spec/17_boot_security.md R578). -/
  | resetRelease (now : Nat)
  /-- `BOOT_RETRY` (spec/17_boot_security.md R580). -/
  | bootRetry (now : Nat)
  /-- `FIRMWARE_READY` (spec/17_boot_security.md R588). -/
  | firmwareReady (now : Nat)
  /-- `WATCHDOG_EXPIRE` (spec/17_boot_security.md R587). -/
  | watchdogExpire (now : Nat) (errs : List (Nat × List Nat))
  /-- `TRIAL_CONFIRM` (spec/17_boot_security.md R586). -/
  | trialConfirm (now : Nat)
  /-- `CORE_FAULT` (spec/15_faults_sparing.md R525). -/
  | coreFault (now n : Nat) (errs : List (Nat × List Nat))
  /-- `MGMT_RESET` (spec/17_boot_security.md R573). -/
  | mgmtReset (now : Nat)
  /-- `DATAPATH_RESET` (spec/17_boot_security.md R575). -/
  | datapathReset (now : Nat)
  /-- `DATAPATH_RESET_DONE` (spec/17_boot_security.md R575). -/
  | datapathResetDone (now : Nat)
  /-- `PROGRAM_OWNER` (spec/17_boot_security.md R594). -/
  | programOwner (now index : Nat)
  /-- `PROGRAM_RKEY` (spec/17_boot_security.md R595). -/
  | programRkey (now index : Nat)
  /-- `REVOKE_FKEY` (spec/17_boot_security.md R595). -/
  | revokeFkey (now index : Nat)
  /-- `REVOKE_RKEY` (spec/17_boot_security.md R595). -/
  | revokeRkey (now index : Nat)
  /-- `FUSE_PROGRAM_DONE` (spec/17_boot_security.md R590). -/
  | fuseProgramDone (now : Nat)
  /-- `VAT_HARD_FAULT` (spec/15_faults_sparing.md R521). -/
  | vatHardFault (now v unit : Nat) (err : Option DescErr)
  /-- `VAT_DRAIN_END` (spec/15_faults_sparing.md R520). -/
  | vatDrainEnd (now v : Nat) (err : Option DescErr)
  /-- `VAT_SPARE_TEST_END` (spec/15_faults_sparing.md R520). -/
  | vatSpareTestEnd (now v : Nat) (pass : Bool)
  /-- `SLICE_SWAP_SWITCHOVER` (spec/15_faults_sparing.md R523). -/
  | sliceSwapSwitchover (now : Nat) (pass : Bool) (unit : Nat)
  /-- `WIRE_SPARE_SWITCH` (spec/15_faults_sparing.md R529). -/
  | wireSpareSwitch (now g : Nat)
  /-- `DEFERRED_ROW_REPAIR` (spec/15_faults_sparing.md R532). -/
  | deferredRowRepair (now mac row : Nat)
  /-- `SEGMENT_MOVE_COMPLETE` (spec/19_lpddr6.md R628). -/
  | segmentMoveComplete (now c : Nat) (fail : Bool)
  /-- `SELFTEST_COMPLETE` (spec/15_faults_sparing.md R547). -/
  | selftestComplete (now handle data : Nat)
  /-- `HEALTH_DECAY` (spec/15_faults_sparing.md R537). -/
  | healthDecay (now : Nat)
  /-- `HS_RELEASE` (spec/15_faults_sparing.md R542). -/
  | hsRelease (now kind n : Nat)
  /-- `PM_CLEAR` (spec/18_telemetry.md R605). -/
  | pmClear (now : Nat) (pu : PmUnit)
  /-- `TELEMETRY_REPORT` (spec/18_telemetry.md R608). -/
  | telemetryReport (now : Nat)
  /-- `RING_DUMP` (spec/18_telemetry.md R612). -/
  | ringDump (now : Nat)
  /-- `FLIGHT_FREEZE` (spec/18_telemetry.md R616). -/
  | flightFreeze (now : Nat)
  /-- `PATROL_SCRUB` (spec/19_lpddr6.md R626). -/
  | patrolScrub (now c addr : Nat) (burst : List Nat) (newer : Bool)
  /-- `ZQ_CALIBRATION` (spec/19_lpddr6.md R620). -/
  | zqCalibration (now : Nat)
  /-- `IMG_COMMIT_COMPLETE` (spec/09_vat_programming.md R342). -/
  | imgCommitComplete (now : Nat) (ok : Bool)
  /-- `RAIL_LEAVES_TOLERANCE` (spec/16_power_umber.md R565). -/
  | railLeavesTolerance (now rail : Nat)
  /-- `ANNOUNCE_RECEIPT_TIMEOUT` (spec/13_time.md R459). -/
  | announceReceiptTimeout (now : Nat)
deriving DecidableEq, Repr

end Sys2Proof
end

