-- ==== Sys2Proof/Machine/Spare.lean ====
section
/-! DEFINITION. Retirement of LPDDR6 channels into the spare region (spec/15_faults_sparing.md R534, R535, spec/19_lpddr6.md R627 to R630). -/
namespace Sys2Proof.Machine
namespace Dev

/-- SPARE_FREE: the free spare segments of channels that are neither retired nor retiring (R628). -/
def spareFree (d : Dev) : Nat := d.sparesFor.length
def setSpareFree (d : Dev) : Dev := d.setFld R.DD_STAT F.DD_STAT_SPARE_FREE d.spareFree

/-- The lowest-numbered channel whose spare segment is free. -/
def spareFor (d : Dev) : Option Nat := d.sparesFor.head?

/-- Set or clear a bit of HOSTED. -/
def setHosted (d : Dev) (c j v : Nat) : Dev :=
  d.setFld (R.DD_CHSTAT c) F.DD_CHSTAT_HOSTED (putBits (d.fld (R.DD_CHSTAT c) F.DD_CHSTAT_HOSTED) j j v)

/-- The logical segments that a channel holds, as 16 slot + segment, ascending. -/
def chSegs (d : Dev) (c : Nat) : List Nat :=
  (ddrSegs.filter fun x => (d.ddrMap x.1 x.2).1 = c && !(d.ddrMap x.1 x.2).2.2).map fun x => 16 * x.1 + x.2

/-- Channels retired or being retired. -/
def chRetired (d : Dev) : Nat := (List.range 64).countP fun c => 2 ≤ d.chState c

/-- Retirement of a channel begins. -/
def ddrRetire (d : Dev) (c handle : Nat) : Dev :=
  let segs := d.chSegs c
  let d := { d with ddr := { d.ddr with moving := d.ddr.moving ++ [(c, handle, segs)] } }
  (d.setFld (R.DD_CHSTAT c) F.DD_CHSTAT_STATE 2).setSpareFree

/-- A channel retirement that escalation calls for; with four retired, or the channel retired already, nothing follows but the record (R534). -/
def autoDdr (d : Dev) (c ref : Nat) : Dev :=
  if 64 ≤ c ∨ 2 ≤ d.chState c ∨ 4 ≤ d.chRetired then d
  else if d.conflicts [member 5 c] then d.waitWear (.chanRetire c ref)
  else match d.maintBegin 0x8005 true [member 5 c] 0 with
    | (d, h) => (d.setAction ref h).ddrRetire c h

/-- Map a logical segment to another place. -/
def ddrRemap (d : Dev) (i c g : Nat) : Dev :=
  let a := R.DD_REMAP (i / 16) (i % 16)
  let old := d.ddrMap (i / 16) (i % 16)
  let d := d.setHosted old.1 old.2.1 0
  ((d.setFld a F.DD_REMAP_CH c).setFld a F.DD_REMAP_SEG g).setHosted c g 1

/-- The overflow entries that lie in some segments: the store lies in segment 0 of its slots. -/
def ovfIn (d : Dev) (segs : List Nat) : List (List Byte) :=
  d.tab.ovf.filter fun e =>
    let b := emBucket (emPart e) (emMac e)
    segs.contains (16 * ddrSlot (ovfBase b + 16 * d.ovfPlace (emPart e) (emMac e)))

/-- The contents of some logical segments are gone (R535): overflow entries, ring records and flight records that lie in them are lost; copies of tables
and of the recipe image are written again from the die, and the firmware copies from boot storage, where the segments are mapped. What a channel that takes no access
holds up waits (R627). -/
def segsLost (d : Dev) (segs : List Nat) : Dev :=
  let lost := d.ovfIn segs
  let d := (lost.map fun e => emBucket (emPart e) (emMac e)).eraseDups.foldl (fun (d : Dev) b =>
    d.ovfGone b (lost.filter fun e => emBucket (emPart e) (emMac e) = b)) d
  let d := [0, 1].foldl (fun (d : Dev) r =>
    d.ringGap r fun k => (d.ringPieces r (d.ringAt r k) ((d.ringRecs r).getD k []).length).any fun x => inSegs segs x.1 x.2) d
  let held (f : Flight) : Bool := inSegs segs (d.ringBase 2 + 64 * f.place) 64
  let d := { d with tel := { d.tel with flight := d.tel.flight.filter fun f => !held f },
                    ddr := { d.ddr with bad := d.ddr.bad.filter fun b => !segs.contains (ddrSeg (32 * b)) } }
  let low := segs.filter fun i => i % 16 = 0
  if low = [] then d else (low.foldl (fun (d : Dev) i => if d.slotShut (i / 16) then d.later (.refill (i / 16)) else d.slotRefill (i / 16)) d).fwCopies

/-- The segments of a failed channel are remapped under R628 while a spare segment is free, and unmapped when none is (R630). -/
def segsRemap (d : Dev) (segs : List Nat) : Dev :=
  segs.foldl (fun (d : Dev) i =>
    match d.spareFor with
    | some t => d.ddrRemap i t 15
    | none =>
      let old := d.ddrMap (i / 16) (i % 16)
      (d.setHosted old.1 old.2.1 0).setFld (R.DD_REMAP (i / 16) (i % 16)) F.DD_REMAP_UNMAPPED 1) d

/-- A channel that is retired without its segments having been copied: they are remapped and refilled, with the record [0xFFFFFFFF, d1], and a DEGRADED one where
some stay unmapped (R630, R535). -/
def channelGone (d : Dev) (c : Nat) (segs : List Nat) (d1 : Nat) : Dev :=
  let d := { d with ddr := { d.ddr with moving := d.ddr.moving.filter fun (x : Nat × Nat × List Nat) => x.1 ≠ c } }
  let d := (d.setFld (R.DD_CHSTAT c) F.DD_CHSTAT_STATE 3).setQ (.ch c) true false true
  let d := d.error 0x0F c 0x51 2 [0xFFFFFFFF, d1]
  let d := (d.segsRemap segs).segsLost segs
  let d := if segs.any fun i => (d.ddrMap (i / 16) (i % 16)).2.2 then
      (match d.occur 0x0F c 0x51 3 [0xFFFFFFFF, d1] none with
        | (d, ref) => match d.recAt ref with | some n => d.raiseSev n 3 | none => d)
    else d
  d.setSpareFree

/-- The copy of a segment reads its bursts: those known to be uncorrectable, which stay so where they come to lie, and those that the copy finds in error
(R625, R632). -/
def copyRead (d : Dev) (i : Nat) : Dev :=
  let known := d.ddr.bad.filter fun b => ddrSeg (32 * b) = i
  let found := (Config.copyErrs d.lc i).map fun x => (ddrLogical (i / 16) (i % 16) (32 * (x.1 % 2 ^ 23)) / 32, x.2)
  let d := known.foldl scrubBad d
  (found.filter fun x => !known.contains x.1).foldl (fun (d : Dev) x => if x.2 then d.scrubBad x.1 else d.burstFixed x.1) d

/-- The copy of a retiring channel's next segment completes (R628), or the channel fails (`fail`, R535): what it still holds is lost, and D1 of the record counts
the static entries removed. After the last segment the channel is quiesced and retired. A copy waits while no spare segment is free, and while one of its two
channels takes no access (R627). The segment copied goes out with the check symbols of its new addresses (R624), and the retirement takes its next turn behind the
others under way. -/
def segmentMove (d : Dev) (c : Nat) (fail : Bool) : Dev :=
  match d.ddr.moving.find? fun x => x.1 = c with
  | none => d
  | some (_, h, segs) =>
    let finish (d : Dev) : Dev :=
      let d := { d with ddr := { d.ddr with moving := d.ddr.moving.filter fun (x : Nat × Nat × List Nat) => x.1 ≠ c } }
      let d := (d.setFld (R.DD_CHSTAT c) F.DD_CHSTAT_STATE 3).setQ (.ch c) true false true
      d.setSpareFree.maintEnd h 0 0
    if fail then (d.channelGone c segs ((d.ovfIn segs).countP emStatic)).maintEnd h 1 0
    else match segs with
      | [] => finish d
      | i :: rest =>
        match d.moveTo c with
        | none => d
        | some t =>
          if d.chShut c ∨ d.chShut t then d
          else
            let d := (((d.copyRead i).pm .ddr 0x0601 none (2 ^ 28)).pm .ddr 0x0602 none (2 ^ 28)).segmentOut i t 15
            let d := ((d.ddrRemap i t 15).inc R.DD_SEG_MOVED).setSpareFree
            let d := { d with ddr := { d.ddr with moving := (d.ddr.moving.filter fun (x : Nat × Nat × List Nat) => x.1 ≠ c) ++ [(c, h, rest)] } }
            if rest.isEmpty then finish d else d

/-- A channel fails training at a wake (R630). A retirement of it that was under way is over, failed. -/
def trainFail (d : Dev) (c : Nat) : Dev :=
  if 64 ≤ c ∨ d.chState c = 3 then d
  else
    let segs := d.chSegs c
    let d := match d.ddr.moving.find? fun x => x.1 = c with | some (_, h, _) => d.maintEnd h 1 0 | none => d
    (d.setFld (R.DD_CHSTAT c) F.DD_CHSTAT_TRAIN_FAIL 1).channelGone c segs 0

end Dev
end Sys2Proof.Machine
end

