-- ==== Sys2Proof/Machine/Power.lean ====
section
/-! DEFINITION. Umber, wake, thermal and rail protection (spec/16_power_umber.md R550 to R572). -/
namespace Sys2Proof.Machine

/-- Nominal voltage of a rail in mV (R550). -/
def railNominal (r : Nat) : Nat := [750, 1200, 800, 700, 650, 750, 900, 1800].getD r 0

namespace Dev

def setPw (d : Dev) (s : Nat) : Dev := d.setFld R.PW_STAT F.PW_STAT_STATE s

/-- A POWER event (R570). -/
def powerEvent (d : Dev) (cause reading : Nat) : Dev := d.event 7 0x800C (beBytes cause 2 ++ beBytes reading 2)

/-- A measured value, which nothing in the device fixes: 16 bits, free. -/
def measured (d : Dev) : Nat × Dev := match d.draw with | (v, d) => (v.toNat % 65536, d)

/-- The preconditions of UMBER_ENTER (R559). -/
def umberOk (d : Dev) : Bool :=
  d.running
    && (List.range 512).all (fun p => !d.on (R.YZ_CTRL p) F.YZ_CTRL_EN)
    && (List.range 256).all (fun i => !d.on (R.IND_PAIR i) F.IND_PAIR_EN)
    && (List.range 16).all (fun p => d.qack (.pl p) && d.qack (.vb p) && !d.prevHeld p)
    && d.qack .lake
    && (List.range 4).all (fun g => d.mrdState g ≠ 2)
    && d.core.gcl.isEmpty && d.faults.maint.isEmpty && d.mgmt.staging.commit.isNone

/-- LM_EN is deasserted on every slot. -/
def lmOff (d : Dev) : Dev := (List.range 16).foldl (fun d k => d.setLmEn k false) d

/-- LM_EN is asserted on every slot that is enabled and has its module. -/
def lmOn (d : Dev) : Dev :=
  (List.range 16).foldl (fun d k =>
    if d.on (R.OH_SLOT_CTRL k) F.OH_SLOT_CTRL_EN ∧ d.on (R.OH_SLOT_STAT k) F.OH_SLOT_STAT_PRESENT then d.setLmEn k true else d) d

/-- Channels in self-refresh that are not quiesced become active. -/
def leaveRefresh (d : Dev) : Dev :=
  (List.range 64).foldl (fun d c => if d.chState c = 1 ∧ ¬ d.chQuiet c then d.setFld (R.DD_CHSTAT c) F.DD_CHSTAT_STATE 0 else d) d

/-- During a wake the channels have left self-refresh and LM_EN is asserted from 18.0 ms after the grant (R563). -/
def lmWake (d : Dev) : Dev := if d.pwState = 3 ∧ d.power.begun + 22500000 ≤ d.lc then d.leaveRefresh.lmOn else d

/-- Every active channel enters self-refresh. -/
def selfRefresh (d : Dev) : Dev :=
  (List.range 64).foldl (fun d c => if d.chState c = 0 then d.setFld (R.DD_CHSTAT c) F.DD_CHSTAT_STATE 1 else d) d

/-- Entry into Umber begins, after the reply (R560 steps 1 to 3). -/
def umberEnter (d : Dev) : Dev :=
  let d := { (d.setPw 1).setWakeReq 0 with power := { ((d.setPw 1).setWakeReq 0).power with begun := d.lc, reqLate := false } }
  d.lmOff.selfRefresh

/-- What the gated blocks do not retain (R557): packets, queues, that of pending learns among them, tally stores. Packets that wait in the management complex and the time unit, which run on, go
on waiting (R662), and cells that a bad pointer has put out of service stay so, since no reset is among this (R191). No link is left to go down: none
trains outside RUN (`startPort`). -/
def gateOff (d : Dev) : Dev :=
  { d with core := { d.core with pkts := d.core.pkts.filter fun k => k.place = Place.waitCells,
                                 cells := d.core.cells.filter fun x => !d.core.pkts.any fun k => k.cellsAt.contains x.1,
                                 tx := [], qstat := [], rx := [] },
           tab := { d.tab with learnQ := [] },
           vat := { d.vat with ctxs := [], steps := [], arrays := [], runs := [], wait := [], msgs := [] } }

/-- Entry ends (R560 step 6). A REQ written meanwhile takes effect (R561). -/
def umberDone (d : Dev) : Dev :=
  if d.pwState ≠ 1 then d
  else
    let d := ((d.gateOff.setFld R.PW_STAT F.PW_STAT_STEP 0).inc R.PW_UMBER_ENTRIES).setPw 2
    match d.measured with
    | (w, d) =>
      let d := d.powerEvent 4 w
      if d.power.reqLate then { d.setWakeReq 1 with power := { (d.setWakeReq 1).power with reqLate := false } } else d

/-- WAKE_GRANT is sampled high (R562). -/
def grant (d : Dev) : Dev :=
  if d.pwState = 2 ∧ d.on R.PW_STAT F.PW_STAT_REQ_PIN then
    let t := d.fabNs
    let d := (d.setNum R.PW_GRANT_LO (t % 2 ^ 32)).setNum R.PW_GRANT_HI (t / 2 ^ 32 % 2 ^ 32)
    let d := (d.setFld R.PW_STAT F.PW_STAT_STEP 0).setPw 3
    { d with power := { d.power with begun := d.lc } }
  else d

/-- A rail leaves tolerance, or a PLL (0x100 and its number) fails to lock, during a wake (R565): the GS5 gates off again as at entry. The failure is counted
as STATE leaves WAKING. -/
def wakeFail (d : Dev) (what : Nat) : Dev :=
  if d.pwState ≠ 3 then d
  else
    let k := d.fld R.PW_STAT F.PW_STAT_STEP
    let d := ((d.inc R.PW_WAKE_FAIL).lmOff.selfRefresh.gateOff.setFld R.PW_STAT F.PW_STAT_STEP 0).setPw 2
    let d := (d.setWakeReq 0).setFld R.PW_STAT F.PW_STAT_WAKE_FAIL 1
    (d.error 0x13 0 0x74 3 [k, what]).powerEvent 6 k

/-- The next ramp step ends at 0.5 + 0.4 k ms (R563). -/
def rampStep (d : Dev) : Dev :=
  let k := d.fld R.PW_STAT F.PW_STAT_STEP + 1
  if d.pwState = 3 ∧ k ≤ 32 ∧ d.power.begun + 625000 + 500000 * k ≤ d.lc then d.setFld R.PW_STAT F.PW_STAT_STEP k else d

/-- RAMP_STEP: a step ends, or a PLL fails to lock (R565). -/
def ramp (d : Dev) (pll : Option Nat) : Dev := match pll with | some n => d.wakeFail (0x100 + n) | none => d.rampStep

/-- The wake completes 25 ms after the grant, within 50 us (R563, R564); `bad` lists channels that failed training (R630). Ports enabled since the entry
began train from here on. -/
def wakeDone (d : Dev) (bad : List Nat) : Dev :=
  if d.pwState ≠ 3 ∨ d.lc < d.power.begun + 31187500 then d
  else
    let d := (bad.foldl trainFail d).leaveRefresh
    let d := ((d.lmOn.setFld R.PW_STAT F.PW_STAT_STEP 32).setPw 0).setWakeReq 0
    let d := (List.range 512).foldl startPort ((d.inc R.PW_WAKES).fwCopies)
    match d.measured with | (w, d) => d.powerEvent 5 w

/-- A sensor (0 to 63 die, 64 to 95 OE) reads `t` in 0.1 degrees C (R566). -/
def thermWarn (d : Dev) (sensor t : Nat) : Dev :=
  let die := sensor < 64
  let warn := 10 * (if die then d.fld R.TH_CTRL F.TH_CTRL_DIE_WARN else d.fld R.TH_CTRL F.TH_CTRL_OE_WARN)
  let d := if warn ≤ t then ((d.error 0x13 0 0x70 1 [sensor, t]).inc R.TH_WARN_CNT).powerEvent 1 t else d
  if (if die then 1050 else 850) < t then d.error 0x13 0 0x71 3 [sensor, t] else d

/-- A rail below 94 % of nominal for more than 10 us (R568). -/
def railWarn (d : Dev) (rail mv : Nat) : Dev :=
  if rail < 8 ∧ mv * 100 < 94 * railNominal rail then ((d.error 0x13 0 0x72 1 [rail, mv]).inc R.PW_RAIL_WARN).powerEvent 2 mv else d

/-- Package power above 1,600 W for 1 ms (R569). -/
def powerOver (d : Dev) (w : Nat) : Dev := if 1600 < w then (d.error 0x13 0 0x73 3 [w]).powerEvent 3 w else d

end Dev
end Sys2Proof.Machine
end

