-- ==== Sys2Proof/Machine/Boot.lean ====
section
/-! DEFINITION. Resets, the boot sequence, firmware images, warm restarts and fuses (spec/17_boot_security.md R573 to R595). -/
namespace Sys2Proof.Machine

/-! Keys. -/

/-- Recipe key k: 0 and 1 fused at manufacture, 2 and 3 by PROGRAM_RKEY. -/
def recipeKey (u : Fuses) (k : Nat) : Option (List Byte) :=
  if k < 2 then Config.recipeKey k
  else if k = 2 then (if u.rkey2 = [] then none else some u.rkey2)
  else if k = 3 then (if u.rkey3 = [] then none else some u.rkey3) else none

/-- A key that is fused and not revoked. -/
def firmwareKeyOk (u : Fuses) (k : Nat) : Option (List Byte) := if k < 4 ∧ ¬ bit u.fRev k then Config.firmwareKey k else none
def recipeKeyOk (u : Fuses) (k : Nat) : Option (List Byte) := if k < 4 ∧ ¬ bit u.rRev k then recipeKey u k else none

/-- Whether a key is fused. -/
def firmwareFused (k : Nat) : Bool := k < 4 && (Config.firmwareKey k).isSome
def recipeFused (u : Fuses) (k : Nat) : Bool := (recipeKey u k).isSome

/-! Images (R582, R583). -/

/-- Security version and firmware version of an image. -/
def imgSvn (i : List Byte) : Nat := leNat (slice i 8 4)
def imgVer (i : List Byte) : Nat := leNat (slice i 12 4)

/-- The check of R583 that fails first, 0 when the image passes. -/
def imageCheck (u : Fuses) (i : List Byte) : Nat :=
  let l := i.length
  let sigOk : Bool := match firmwareKeyOk u (byteAt i 0x14) with
    | some k => decide (96 ≤ l) && Config.ecdsaVerify k (Config.sha384 (i.take (l - 96))) (i.drop (l - 96))
    | none => false
  if ¬ sigOk then 1
  else if imgSvn i < u.fwMin then 2
  else if leNat (slice i 0 4) = 0x4E474657 ∧ leNat (slice i 4 2) = 1 ∧ leNat (slice i 6 2) = 0 ∧ leNat (slice i 16 4) = l ∧ 256 ≤ l ∧ l ≤ 16777216 ∧
      imgSvn i ≤ 64 ∧ (slice i 0x20 32).all (· = 0) ∧ leNat (slice i 0x18 4) < l - 160 ∧ leNat (slice i 0x1C 4) ≤ Config.revision.toNat then 0
  else 3

namespace Dev

/-! Boot. -/

/-- Whether a slot can be booted: not marked failed, and its image passes. -/
def slotOk (d : Dev) (u : Fuses) (s : Nat) : Bool := !d.mgmt.slotBad.getD s true && imageCheck u (d.mgmt.slots.getD s []) = 0

/-- A slot that fails its check is not selected again until an image is written into it (R578). -/
def markSlot (d : Dev) (u : Fuses) (s : Nat) : Dev :=
  if d.slotOk u s then d else { d with mgmt := { d.mgmt with slotBad := d.mgmt.slotBad.set s true } }

/-! Boot storage (R577; spec/20_package_electrical.md R650). -/

/-- A write enable and the operation that it permits. -/
def spiWrite (d : Dev) (op addr len : Nat) (data : List Byte) : Dev := (d.spi 1 0 0 []).spi op addr len data

/-- Bytes written from an address that begins a page: 256 bytes in a page (PRESUMED, log entry 83). -/
def spiPages (d : Dev) (addr : Nat) (bs : List Byte) : Dev :=
  (List.range (ceilDiv bs.length 256)).foldl (fun (d : Dev) i =>
    let p := slice bs (256 * i) (min 256 (bs.length - 256 * i))
    d.spiWrite 2 (addr + 256 * i) p.length p) d

/-- An image is written into a slot: its 64 KiB sectors are erased, then its pages programmed. -/
def spiImage (d : Dev) (s : Nat) (img : List Byte) : Dev :=
  let base := 0x1000000 * s
  let d := (List.range (ceilDiv img.length 0x10000)).foldl (fun (d : Dev) i => d.spiWrite 3 (base + 0x10000 * i) 0x10000 []) d
  d.spiPages base img

/-- The selector copy that the ROM uses: of those whose CRC passes the one with the higher sequence number. -/
def selIndex (d : Dev) : Option Nat :=
  let a := d.mgmt.sel.getD 0 {}
  let b := d.mgmt.sel.getD 1 {}
  match a.good, b.good with
  | true, true => some (if a.seq < b.seq then 1 else 0)
  | true, false => some 0
  | false, true => some 1
  | false, false => none

/-- The selector; with neither copy good, slot A, not in trial. -/
def selected (d : Dev) : Selector :=
  match d.selIndex with
  | some i => d.mgmt.sel.getD i {}
  | none => { good := false }

/-- The 16 bytes of a selector copy: the CRC-32C of R81 closes them. -/
def selectorBytes (x : Selector) : List Byte :=
  let f := slice (Config.selectorFields x.slot x.trial x.seq) 0 12
  f ++ leBytes (crc32c f) 4

/-- The boot selector is rewritten: the copy not in use takes the next sequence number (DESIGN CHOICE, log entry 83). Its sector is erased, so the copies
that are good are programmed again. -/
def writeSelector (d : Dev) (slot : Nat) (trial : Bool) : Dev :=
  let k := if d.selIndex = some 0 then 1 else 0
  let d := { d with mgmt := { d.mgmt with sel := d.mgmt.sel.set k { slot := slot, trial := trial, seq := d.selected.seq + 1 } } }
  (List.range 2).foldl (fun (d : Dev) i =>
    let x := d.mgmt.sel.getD i {}
    if x.good then d.spiWrite 2 (0x2010000 + 16 * i) 16 (selectorBytes x) else d) (d.spiWrite 3 0x2010000 0x10000 [])

/-- The image of a slot starts (R578 step 5). A slot other than the selected one gives boot cause FALLBACK and runs in no trial (R579). -/
def startSlot (d : Dev) (s cause : Nat) : Dev :=
  let fb := s ≠ d.selected.slot
  let d := { d with mgmt := { d.mgmt with image := d.mgmt.slots.getD s [], booting := true, ready := false, stopped := false, since := d.lc } }
  let d := (d.setFld R.SB_STAT F.SB_STAT_BOOT_CAUSE (if fb then 7 else cause)).setFld R.SB_STAT F.SB_STAT_ACTIVE_SLOT s
  d.setFld R.SB_STAT F.SB_STAT_TRIAL (b2n (!fb && d.selected.trial))

/-- No image passes: the management port's link goes down, and the ROM tries again every 10 s (R580). -/
def bootStop (d : Dev) : Dev :=
  let d := { d with mgmt := { d.mgmt with stopped := true, booting := false, ready := false, since := d.lc, mpUp := false } }
  if d.running then d else d.setWakeReq 0

/-- Steps 4 and 5 of R578 with a candidate: it, or the other slot, starts; with both failing the boot stops. -/
def bootFrom (d : Dev) (u : Fuses) (s cause : Nat) : Dev :=
  let o := 1 - s
  let d := d.spiRead s
  if d.slotOk u s then d.startSlot s cause
  else
    let d := (d.markSlot u s).spiRead o
    if d.slotOk u o then d.startSlot o cause else (d.markSlot u o).bootStop

/-- Step 3 of R578: the selected slot is the candidate, or the other one while the trial flag is set. -/
def bootSelect (d : Dev) (u : Fuses) (cause : Nat) : Dev :=
  let d := d.spi 0 0x2010000 32 []
  d.bootFrom u (if d.selected.trial then 1 - d.selected.slot else d.selected.slot) cause

/-- What a boot begins as: 0 a warm restart, 1 a management reset, 2 the boot sequence of R578. -/
def setBoot (d : Dev) (k : Nat) : Dev := { d with mgmt := { d.mgmt with boot := k } }

/-- The ROM tries again 10 s after it stopped, from step 3 on (R580). -/
def bootRetry (d : Dev) (u : Fuses) : Dev :=
  if d.mgmt.stopped ∧ d.mgmt.since + 10 * 1250000000 ≤ d.lc then (d.setBoot 2).bootSelect u (d.fld R.SB_STAT F.SB_STAT_BOOT_CAUSE) else d

/-- The credential entry that the fused owner key makes: the key as an uncompressed point (R475, R479). -/
def ownerCred (key : List Byte) : Cred := { priv := 3, key := 4 :: slice key 1 48 ++ slice (Config.p384Y key) 0 48 }

/-- The active slot. -/
def activeSlot (d : Dev) : Nat := d.fld R.SB_STAT F.SB_STAT_ACTIVE_SLOT
def inTrial (d : Dev) : Bool := d.on R.SB_STAT F.SB_STAT_TRIAL

/-- Steps 6 and 7 of R578, for a boot that no warm restart began: the management port is brought up, and the boot sequence ends in Umber with REQ set. -/
def bootEnd (d : Dev) : Dev :=
  let d := if d.mgmt.boot = 0 then d else d.quiesceRelease .mp
  if d.mgmt.boot = 2 ∧ d.pwState = 2 then d.setWakeReq 1 else d

/-- The firmware reports ready (R578 step 6, R588): CERT_OK by the subject key of certificate 2 (R597), the owner's credential entry, UCP. A slot booted that is not the selected one is
selected from now on, not in trial (R579). The certificate block is read out of boot storage. -/
def firmwareReady (d : Dev) (u : Fuses) : Dev :=
  if d.mgmt.booting then
    let d := d.spi 0 0x2000000 0x10000 []
    let c0 : Cred := if u.owned then ownerCred u.owner else {}
    let d := { d with mgmt := { d.mgmt with booting := false, ready := true, readyAt := d.lc, creds := d.mgmt.creds.set 0 c0 } }
    let d := if d.selected.slot = d.activeSlot then d else d.writeSelector d.activeSlot false
    (d.setFld R.SB_STAT F.SB_STAT_CERT_OK (b2n (decide (Config.certKey (Config.certificates 2) = Config.deviceKey Config.deviceSecret)))).bootEnd
  else d

/-- A warm management restart onto a slot (R588, R589): sessions close with cause 0x5, an IMG_COMMIT that has begun runs on (R481), nothing is cleared in
hardware. With no good copy of the image the boot stops under R580. A boot that it cuts short before the firmware reported ready is still to be ended (R555, R578). -/
def warmRestart (d : Dev) (u : Fuses) (s cause : Nat) : Dev :=
  let d := d.closeWhere (fun _ => true) 5
  let st := d.mgmt.staging
  let left := if d.mgmt.ready then 0 else d.mgmt.boot
  let d := { d with mgmt := { d.mgmt with staging := if st.commit.isSome then st else {}, inbox := [], boot := left } }
  let d := match d.fwRead s with | (true, d) => d | (false, d) => d.spiRead s
  if d.slotOk u s then d.startSlot s cause else d.bootStop

/-- Whether the watchdog can expire (R587): the firmware has not reported ready within 2 s, or has been ready long enough to miss four heartbeats of 1 ms. That
it missed them is the command's (log entry 26). -/
def watchdogDue (d : Dev) : Bool :=
  (d.mgmt.booting && d.mgmt.since + 2 * 1250000000 ≤ d.lc) || (d.mgmt.ready && d.mgmt.readyAt + 4 * 1250000 ≤ d.lc)

/-- The watchdog expires (R586, R587): the previous slot boots during a trial, otherwise the active one again (log entry 26). -/
def watchdog (d : Dev) (u : Fuses) : Dev :=
  if d.watchdogDue then d.warmRestart u (if d.inTrial then 1 - d.activeSlot else d.activeSlot) 6 else d

/-- The trial of a new image is confirmed (R586). -/
def trialConfirm (d : Dev) : Dev :=
  if d.mgmt.ready ∧ d.inTrial ∧ d.mgmt.readyAt + 10 * 1250000000 ≤ d.lc then
    (d.setFld R.SB_STAT F.SB_STAT_TRIAL 0).writeSelector d.selected.slot false
  else d

/-! Resets. -/

/-- Registers and counters without those of some blocks. -/
def clearBlocks (c : Csr) (p : Nat → Bool) : Csr :=
  let keep {α : Type} (l : List (Nat × α)) := l.filter fun x => !p (x.1 / 0x1000000)
  { regs := keep c.regs, rwb := keep c.rwb, ctrs := keep c.ctrs, snap := keep c.snap, latch := keep c.latch }

/-- What survives in boot storage (R577). -/
def storage (m : Mgmt) : Mgmt := { slots := m.slots, slotBad := m.slotBad, sel := m.sel }

/-- The levels of LM_PRESENT stand in PRESENT whatever is reset. -/
def keepPresent (old d : Dev) : Dev :=
  (List.range 16).foldl (fun d k => if old.on (R.OH_SLOT_STAT k) F.OH_SLOT_STAT_PRESENT then d.setFld (R.OH_SLOT_STAT k) F.OH_SLOT_STAT_PRESENT 1 else d) d

/-- LM_EN pins that a reset deasserts. -/
def lmDrop (old d : Dev) : Dev :=
  (List.range 16).foldl (fun d k => if old.power.lmEn.getD k false then d.emit (.pin "LM_EN" k false old.lc) else d) d

/-- A full reset (R573): everything but fuses, boot storage and soft repairs. -/
def fullReset (d : Dev) (cause : Nat) : Dev :=
  let n : Dev := { mgmt := storage d.mgmt, time := { refPresent := d.time.refPresent }, out := d.out, free := d.free,
                   power := { resetLow := d.power.resetLow, pwrGood := d.power.pwrGood, uvHold := d.power.uvHold, tripped := d.power.tripped } }
  let n := (n.setReg R.SR_STAT (d.reg R.SR_STAT)).setFld R.SB_STAT F.SB_STAT_BOOT_CAUSE cause
  lmDrop d (keepPresent d n)

/-- A power-on reset clears soft repairs too; RESET_N is still held low (R554). -/
def powerOnReset (d : Dev) : Dev :=
  let n : Dev := { mgmt := storage d.mgmt, time := { refPresent := d.time.refPresent }, out := d.out, free := d.free,
                   power := { resetLow := true } }
  lmDrop d (keepPresent d n)

/-- RESET_N or PWRGOOD goes low: a full reset that lasts (R554, R573). PWRGOOD low ends an undervoltage hold (R568) and releases
THERMTRIP_N (R567). The cause of the reset that holds the device already stays: an undervoltage's is read after PWRGOOD has fallen and risen. -/
def resetAssert (d : Dev) (pwrgood : Bool) : Dev :=
  let d := if pwrgood ∧ d.power.pwrGood ∧ d.power.tripped then d.emit (.pin "THERMTRIP_N" 0 true d.lc) else d
  let cause := if d.power.uvHold then 3 else if d.power.resetLow ∨ d.power.tripped then d.fld R.SB_STAT F.SB_STAT_BOOT_CAUSE else 2
  let d := { d with power := { d.power with resetLow := true, refHold := false, pwrGood := d.power.pwrGood && !pwrgood, uvHold := d.power.uvHold && !pwrgood } }
  d.fullReset cause

/-- A rail below 88 % of nominal for more than 1 us (R568). -/
def undervoltage (d : Dev) (rail mv : Nat) : Dev :=
  if rail < 8 ∧ mv * 100 < 88 * railNominal rail ∧ d.power.pwrGood then { d with power := { d.power with uvHold := true } }.fullReset 3 else d

/-- A sensor at its trip temperature (R567): every gate closes and nothing is kept; THERMTRIP_N stays low. -/
def thermTrip (d : Dev) (sensor t : Nat) : Dev :=
  if (if sensor < 64 then 1150 else 950) ≤ t ∧ d.power.pwrGood ∧ ¬ d.power.tripped then
    { d with power := { d.power with tripped := true } }.fullReset 1 |>.emit (.pin "THERMTRIP_N" 0 false d.lc)
  else d

/-- Whether the device is held in reset or has no power: nothing in it acts. -/
def inReset (d : Dev) : Bool := d.power.resetLow || !d.power.pwrGood || d.power.uvHold || d.power.tripped || d.power.refHold

/-- The level of LM_PRESENT, filtered for 200 ns (R651; that the command is the filtered change, DESIGN CHOICE, log entry 90), changes: `held` in reset, where only
PRESENT follows it. -/
def modulePin (d : Dev) (held : Bool) (k : Nat) (high : Bool) : Dev :=
  if held then d.setFld (R.OH_SLOT_STAT k) F.OH_SLOT_STAT_PRESENT (b2n high) else if high then d.moduleIn k else d.moduleOut k

/-- Whether boundary scan is available (spec/20_package_electrical.md R649). TRST_N itself is held low in operation and no command drives it. -/
def scanAvailable (d : Dev) : Bool := d.power.pwrGood && d.power.resetLow

/-- RESET_N is released with PWRGOOD high (R554, R578): the boot begins, once the reference is present (R34). An undervoltage or a thermal trip goes on holding
the device (R567, R568). -/
def resetRelease (d : Dev) (u : Fuses) : Dev :=
  if d.power.uvHold ∨ d.power.tripped then { d with power := { d.power with resetLow := false } }
  else
    let d := { d with power := { d.power with resetLow := false, pwrGood := true, refHold := !d.time.refPresent } }
    if d.power.refHold ∨ d.mgmt.booting ∨ d.mgmt.ready ∨ d.mgmt.stopped then d else (d.setBoot 2).bootSelect u (d.fld R.SB_STAT F.SB_STAT_BOOT_CAUSE)

/-- REFCLK_RACK is lost: in reset only its absence is noted (R34). -/
def refclkLost (d : Dev) : Dev := if d.inReset then { d with time := { d.time with refPresent := false } } else d.refLost

/-- REFCLK_RACK returns: a device that its absence alone held in reset leaves reset (R34). -/
def refclkBack (d : Dev) (u : Fuses) : Dev :=
  if d.inReset then
    let d := { d with time := { d.time with refPresent := true } }
    if d.power.refHold then d.resetRelease u else d
  else d.refBack

/-- The blocks of the management complex: device identity, management port, security and boot. -/
def mgmtBlock (b : Nat) : Bool := b = 0 || b = 0x08 || b = 0x0C

/-- What a management reset clears (R573): the management complex, with the packets in it, its sessions and their records. -/
def mgmtClear (d : Dev) : Dev :=
  let d := { d with csr := clearBlocks d.csr mgmtBlock, mgmt := storage d.mgmt }
  let d := { d with core := { d.core with pkts := d.core.pkts.filter fun k => !(k.place = Place.waitCells && k.h.vc = 0) } }
  d.setFld R.SB_STAT F.SB_STAT_BOOT_CAUSE 4

/-- A management reset (R573), and the boot after it. -/
def mgmtReset (d : Dev) (u : Fuses) : Dev := (d.mgmtClear.setBoot 1).bootSelect u 4

/-- The blocks that a data-path reset clears: commit unit, switch core, Lake, collective engine, links, pipelines, vat banks. -/
def dpBlock (b : Nat) : Bool := (1 ≤ b && b ≤ 5) || (0x10 ≤ b && b < 0x30)

/-- Whether an access to LPDDR6 that waits is a write. -/
def isWrite : DdrWait → Bool
  | .restore _ _ _ _ _ _ | .image _ _ _ | .lose _ _ => false
  | .mirror _ _ _ _ _ _ | .bulk _ _ _ _ | .imageCopy _ | .fwCopy _ | .refill _ => true

/-- The contents of the tables' copies in LPDDR6. -/
def copiesOf (t : Tables) : Tables := { chipC := t.chipC, bundleC := t.bundleC, treeC := t.treeC, partC := t.partC }

/-- The maintenance activities whose work a data-path reset clears end with it (R515, R547): a lane action failed, as where its link ends, and the retirement of a vat,
a slice swap or a calibration visit abandoned (DESIGN CHOICE, log entry 88). -/
def dpEnds (d : Dev) : Dev :=
  (d.faults.maint.filter fun m => [4, 5, 0x8001, 0x8002, 0x8003, 0x8004].contains m.code).foldl (fun (d : Dev) m =>
    d.maintEnd m.handle (if m.code = 0x8002 then 1 else 3) 0) d

/-- What a data-path reset leaves of the switch core: the packets that wait in the management complex and the time unit (R662), and the drains and discards of
the units that it does not clear (R573). -/
def dpCore (c : Core) : Core :=
  let keep (l : List (Nat × Nat)) := l.filter fun x => !dpBlock (x.1 / 0x1000000)
  { nextId := c.nextId, pkts := c.pkts.filter fun k => k.place = Place.waitCells, drains := keep c.drains, discards := keep c.discards }

/-- A data-path reset (R573, R575). The contents of LPDDR6 stay, and the writes to it that wait; a refill of what is cleared waits no longer. -/
def dpReset (d : Dev) : Dev :=
  let d := d.dpEnds
  let n := { d with csr := clearBlocks d.csr dpBlock, core := dpCore d.core, tab := copiesOf d.tab, ce := {}, vat := {}, link := {}, optic := {},
                    ddr := { d.ddr with late := d.ddr.late.filter isWrite },
                    faults := { d.faults with aborts := [], abortRun := none, retired := [], retire := [] },
                    power := { d.power with lmEn := List.replicate 16 false, dpReset := some d.lc } }
  let n := (n.setFld R.ER_STAT F.ER_STAT_FATAL 0)
  lmDrop d (keepPresent d n)

/-- A data-path reset is complete. -/
def dpResetDone (d : Dev) : Dev := { d with power := { d.power with dpReset := none } }

/-- A management core is lost (R525, R526); MC4 is active once another has been lost. With fewer than two working cores the management complex is reset and stays stopped until a further
reset clears it. -/
def coreFault (d : Dev) (u : Fuses) (n : Nat) : Dev :=
  if d.mgmt.cores.getD n false then
    let cores := d.mgmt.cores.set n false
    let left := cores.countP id
    let spare := !(d.mgmt.cores.take 4).all id && cores.getD 4 false
    let d := { d with mgmt := { d.mgmt with cores := cores } }.error 0x0D n 0x48 3 [(cores.take 4).countP id + b2n spare]
    if 2 ≤ left then d.warmRestart u d.activeSlot 6
    else
      let d := (d.closeWhere (fun _ => true) 6).mgmtClear
      { d with mgmt := { d.mgmt with cores := cores } }
  else d

/-! The power-on self-test (R581). -/

/-- A vat that fails the self-test: its record; a mapped one is mapped out through the lowest-numbered spare that passes, as step 3 of R520 does, before the
test ends. The spares that fail have left the spares by then, so that the first one passes. -/
def bistVat (d : Dev) (v unit : Nat) : Dev :=
  match d.occur 0x09 v 0x3A 3 [unit] none with
  | (d, ref) => (d.autoRetire v true false ref).spareTest v true

/-- A vat that is a spare and fails is a spare no longer. -/
def bistSpares (d : Dev) (vats : List (Nat × Nat)) : Dev :=
  { d with faults := { d.faults with retired := d.faults.retired ++ (vats.map (·.1)).filter fun v => (d.logicalOf v).isNone && !d.faults.retired.contains v } }

/-- A bridge wire that fails: its record, and it is spared at once where a spare of its group is free (R529). -/
def bistWire (d : Dev) (g w : Nat) : Dev := ((d.error 0x05 g 0x18 1 [w]).wireSpare g w).wireSwitch g

/-- The self-test of the first wake ends: SRAM rows with a hard fault, failing vats with the failing unit, slices with the crossbar unit that failed, and
bridge wires (group, wire). A failing slice is handled as a failed spare test of R524: the record, and the mapping as it was (DEDUCED, log entry 81). -/
def bistDone (d : Dev) (rows vats slices wires : List (Nat × Nat)) : Dev :=
  if ¬ d.running ∨ ¬ d.power.first then d
  else
    let d := rows.foldl (fun (d : Dev) (x : Nat × Nat) => (d.error 0x10 x.1 0x41 2 [x.2, 0]).softRepair x.1 x.2) d
    let d := vats.foldl (fun (d : Dev) (x : Nat × Nat) => d.bistVat x.1 x.2) (d.bistSpares vats)
    let d := slices.foldl (fun (d : Dev) (x : Nat × Nat) =>
      let d := d.error 0x07 x.1 0x22 3 [x.2]
      if x.1 = d.fld R.SC_SLICE F.SC_SLICE_SPARE then { d with core := { d.core with badSpare := true } } else d) d
    let d := wires.foldl (fun (d : Dev) (x : Nat × Nat) => d.bistWire x.1 x.2) d
    { d.setFld R.SB_STAT F.SB_STAT_BIST_DONE 1 with power := { d.power with first := false } }

/-! Fuses (R594, R595). The fuses themselves stand beside the device in State. -/

/-- The key staged in SB_KEYPROG. -/
def stagedKey (d : Dev) : List Byte := ((List.range 13).flatMap fun n => leBytes (d.reg (R.SB_KEYPROG n)).toNat 4).take 49

/-- Whether an operation through SB_FUSECMD is refused (R595). The last firmware key is the last of those fused. -/
def fuseRefused (d : Dev) (u : Fuses) (op index : Nat) : Bool :=
  match op with
  | 1 => u.owned || !Config.onP384 d.stagedKey
  | 2 => !(index = 2 || index = 3) || recipeFused u index || !Config.onP384 d.stagedKey
  | 3 => d.mgmt.image ≠ [] && byteAt d.mgmt.image 0x14 = index ||
      ((List.range 4).filter fun k => firmwareFused k && !bit u.fRev k) = [index]
  | 4 => d.vat.image ≠ [] && byteAt d.vat.image 0x14 = index
  | _ => false

/-- GO of SB_FUSECMD with an operation (R594, R595). -/
def fuseGo (d : Dev) (u : Fuses) (op index : Nat) : Dev :=
  let a := R.SB_FUSECMD
  let d := (d.setFld a F.SB_FUSECMD_OP op).setFld a F.SB_FUSECMD_INDEX index
  if ¬ (1 ≤ op ∧ op ≤ 4) then d
  else if d.fuseRefused u op index then d.setFld a F.SB_FUSECMD_REFUSED 1
  else { d.setFld a F.SB_FUSECMD_BUSY 1 with mgmt := { d.mgmt with fuseBusy := some (op, index, d.stagedKey) } }

/-- The fuses after the operation in progress; an index that names no key has no fuse. -/
def blown (u : Fuses) (op index : Nat) (key : List Byte) : Fuses :=
  match op with
  | 1 => { u with owned := true, owner := key }
  | 2 => if index = 2 then { u with rkey2 := key } else { u with rkey3 := key }
  | 3 => if index < 4 then { u with fRev := putBits u.fRev index index 1 } else u
  | 4 => if index < 4 then { u with rRev := putBits u.rRev index index 1 } else u
  | _ => u

/-- Fuse blowing ends: BUSY clears; a new owner key becomes credential entry 0 and every session closes with cause 0x3 (R594). -/
def fuseDone (d : Dev) (u : Fuses) : Dev × Fuses :=
  match d.mgmt.fuseBusy with
  | none => (d, u)
  | some (op, index, key) =>
    let d := { d.setFld R.SB_FUSECMD F.SB_FUSECMD_BUSY 0 with mgmt := { d.mgmt with fuseBusy := none } }
    let d := if op = 1 then
        { d with mgmt := { d.mgmt with creds := d.mgmt.creds.set 0 (ownerCred key) } }.closeWhere (fun _ => true) 3
      else d
    (d, blown u op index key)

/-- The version of a slot for SVN_COMMIT: a failed slot counts as the active one (R591). -/
def slotSvn (d : Dev) (s : Nat) : Nat :=
  if d.mgmt.slotBad.getD s true ∨ d.mgmt.slots.getD s [] = [] then imgSvn d.mgmt.image else imgSvn (d.mgmt.slots.getD s [])

/-- SVN_COMMIT of kind 1. -/
def svnFirmware (d : Dev) (u : Fuses) : Fuses := { u with fwMin := max u.fwMin (min 64 (min (d.slotSvn 0) (d.slotSvn 1))) }

/-- SVN_COMMIT of kind 2, with a recipe image loaded. -/
def svnRecipe (d : Dev) (u : Fuses) : Fuses := { u with rcpMin := max u.rcpMin (min 64 (leNat (slice d.vat.image 8 4))) }

end Dev
end Sys2Proof.Machine
end

