-- ==== Sys2Proof/Machine/CsrAccess.lean ====
section
/-! DEFINITION. Reads and writes of CSR words (spec/00_scope.md R13 to R18, spec/14_control_protocol.md R497, R498, spec/02_fabric_protocol.md R94):
the words that are formed at the read, the latches, the fields that act on a write, and the writes whose results the spec calls unpredictable. -/
namespace Sys2Proof.Machine
namespace Dev

/-! Reading. -/

/-- The pipelines' and other units' index of an address in a block of 16. -/
def blkIdx (a : Nat) : Nat := a / 0x1000000 % 16

/-- The counter whose snapshot stands at an address of a performance monitor set (R603): the snapshots of PM_CYCLES and PM_CNT0 to PM_CNT7. -/
def snapSource (a : Nat) : Option Nat :=
  let base := a / 0x1000000 * 0x1000000 + 0xF00000
  let o := a % 0x1000000
  if (pmUnits.any fun u => u.base = base) ∧ 0xF00080 ≤ o ∧ o < 0xF000C8 ∧ o % 8 = 0 then
    (if o = 0xF00080 then some (base + 8) else some (base + 0x40 + (o - 0xF00088)))
  else none

/-- A 64-bit value that is read in two words, at its low word's address. -/
def wideAt (d : Dev) (a : Nat) : Option Nat :=
  if isCtrLow a then some (d.ctr a)
  else match snapSource a with
    | some c => some (d.snapOf c)
    | none => if a = R.TU_BEAT_LO then some d.beatNo else none

/-- Commands that a session holds or runs: OUTSTANDING. -/
def heldCmds (s : Sess) : Nat := s.held.length + b2n s.run.isSome

/-- UCP_SESSn. -/
def sessWord (d : Dev) (n : Nat) : Nat :=
  let s := d.sessAt n
  if s.state = 0 then 0
  else s.state * 2 ^ 30 + (if s.state = 2 then s.priv else 0) * 2 ^ 28 + s.ep.kind * 2 ^ 26 + s.cred * 2 ^ 22 + heldCmds s

/-- The fields of a word that are formed from other state at the read, put into the word held. A reserve that OUTSTANDING of LK_RESV cannot hold reads as a
free value (DESIGN CHOICE, log entry 71): R174 states none. -/
def liveWord (d : Dev) (u : Fuses) (a : Nat) : Nat :=
  let w := (d.reg a).toNat
  let put (f : FR) (v w : Nat) : Nat := putBits w f.hi f.lo v
  let blk := a / 0x1000000
  let off := a % 0x1000000
  if a = R.LK_POOL then put F.LK_POOL_POOL_WARN (b2n d.poolWarn) (put F.LK_POOL_MAIN_FREE d.mainFree w)
  else if a = R.LK_RESV then put F.LK_RESV_OUTSTANDING (if d.outstanding < 2 ^ 21 then d.outstanding else Config.wideReserve d.outstanding) w
  else if a = R.SC_HR_POOL then put F.SC_HR_POOL_HR_RESERVED d.hrReserved w
  else if a = R.CE_STAT then d.vat.ctxs.length
  else if a = R.CE_STAT2 then d.ce.launch.length
  else if a = R.TU_STAT then d.tuStat
  else if a = R.ER_STAT then put F.ER_STAT_UNACKED d.unacked w
  else if a = R.SB_STAT then put F.SB_STAT_LIFECYCLE (b2n u.owned) w
  else if a = R.SB_SVN then u.rcpMin * 2 ^ 16 + u.fwMin
  else if a = R.SB_KEYS then ((List.range 4).map fun k => b2n (recipeFused u k) * 2 ^ (12 + k)).sum + u.rRev * 2 ^ 8 + u.fRev
  else if blk = 0x02 ∧ 0x300 ≤ off ∧ off < 0x340 then d.fenceUse ((off - 0x300) / 4)
  else if blk = 0 ∧ 0x210 ≤ off ∧ off < 0x230 then d.sessWord ((off - 0x210) / 4)
  else if 0x10 ≤ blk ∧ blk < 0x20 ∧ off = 0x1024 then d.tab.em.countP fun (x : Nat × List Byte) => emValid x.2
  else if 0x10 ≤ blk ∧ blk < 0x20 ∧ off = 0x1028 then d.tab.ovf.length
  else if 0x10 ≤ blk ∧ blk < 0x20 ∧ off = 0x514 then d.held (blkIdx a)
  else w

/-- Whether a word holds measurements (R571 and the registers of 16_power_umber.md): two values of 16 bits, free at every read. -/
def isMeasured (a : Nat) : Bool :=
  a = R.PW_POWER || a = R.TH_STAT || (R.PW_RAIL 0 ≤ a && a < R.PW_RAIL 8)

/-- Latch words for the next read of each. -/
def latch (d : Dev) (l : List (Nat × Nat)) : Dev :=
  { d with csr := { d.csr with latch := l.foldl (fun m x => Sparse.ins m x.1 (BitVec.ofNat 32 x.2)) d.csr.latch } }

/-- Fabric time as the words of TU_NOW: seconds low and high, nanoseconds, fraction (R19). -/
def nowWords (d : Dev) : Nat × Nat × Nat × Nat :=
  let s := d.fabT / secUnits
  let r := d.fabT % secUnits
  (s % 2 ^ 32, s / 2 ^ 32 % 2 ^ 32, r / 65536, r % 65536)

/-- The value of a word that a latch may hold and that has no low word of its own. -/
def highWord (d : Dev) (a : Nat) : Option Nat :=
  match d.nowWords with
  | (_, hi, ns, fr) =>
    if a = R.TU_NOW_SEC_HI then some hi
    else if a = R.TU_NOW_NS then some ns
    else if a = R.TU_NOW_FRAC then some fr
    else if a % 8 = 4 then (d.wideAt (a - 4)).map (· / 2 ^ 32)
    else none

/-- Read one word (R15, R94). A word of the ring window is read from LPDDR6 (R613). -/
def csrRead (d : Dev) (u : Fuses) (a : Nat) : Nat × Dev :=
  match Sparse.find d.csr.latch a with
  | some w => (w.toNat, { d with csr := { d.csr with latch := Sparse.del d.csr.latch a } })
  | none =>
    if a = R.TU_NOW_SEC_LO then
      match d.nowWords with
      | (lo, hi, ns, fr) => (lo, d.latch [(R.TU_NOW_SEC_HI, hi), (R.TU_NOW_NS, ns), (R.TU_NOW_FRAC, fr)])
    else match d.wideAt a with
    | some v => (v % 2 ^ 32, d.latch [(a + 4, v / 2 ^ 32)])
    | none =>
      match d.highWord a with
      | some v => (v, d)
      | none =>
        if isMeasured a then
          match d.draw with | (v, d) => (v.toNat % 2 ^ 32, d)
        else if a = R.PW_STAT then
          -- GRANT_PIN is the level of WAKE_GRANT, which no command gives at every moment: a free value at each read (log entry 80)
          match d.draw with | (v, d) => (putBits (d.liveWord u a) 29 29 (v.toNat % 2), d)
        else if windowWord a then d.windowRead ((a % 0x1000000 - 0x2000) / 4)
        else (d.liveWord u a, d)

/-! Writing. -/

/-- Clear the W1C bits written with one (R15). -/
def w1c (d : Dev) (a v : Nat) : Dev :=
  let m := Nat.land (typeMask a fun t => t = .w1c) v
  if m = 0 then d
  else
    let old := (d.reg a).toNat
    d.setNum a (Nat.xor old (Nat.land old m))

/-- Keep a direct write to RWB fields for the next boundary; a later write of the same bits replaces it (R17). -/
def rwbPend (d : Dev) (a m v : Nat) : Dev :=
  let m := Nat.land (typeMask a fun t => t = .rwb) m
  if m = 0 then d
  else
    let (m0, v0) : Nat × Nat := match d.csr.rwb.find? fun (x : Nat × Word × Word) => x.1 = a with
      | some x => (x.2.1.toNat, x.2.2.toNat)
      | none => (0, 0)
    let l := d.csr.rwb.filter fun (x : Nat × Word × Word) => x.1 ≠ a
    { d with csr := { d.csr with rwb := l ++ [(a, BitVec.ofNat 32 (Nat.lor m0 m), BitVec.ofNat 32 (maskIn v0 m v))] } }

/-- The window of a pipeline's gate list control at an address: port code. -/
def gclAt (a : Nat) : Option Nat :=
  let blk := a / 0x1000000
  let off := a % 0x1000000
  if 0x10 ≤ blk ∧ blk < 0x20 ∧ 0x30000 ≤ off ∧ off < 0x30800 ∧ off % 0x20 = 0 then some (64 * (blk - 0x10) + (off - 0x30000) / 0x20) else none

/-- Fields that act on a write (WO): `v` holds the bits written, `w` the word with its RW fields as they stand after the write. -/
def actOn (d : Dev) (u : Fuses) (a v w : Nat) : Dev :=
  let blk := a / 0x1000000
  let off := a % 0x1000000
  if 0x10 ≤ blk ∧ blk < 0x20 ∧ off = 0x1000 then (if bit v 16 then d.retireNow (blk - 0x10) else d)
  else if 0x10 ≤ blk ∧ blk < 0x20 ∧ off = 0x1104 then d.twStart (blk - 0x10) (bits v 11 8) (bits v 3 0) (bits v 4 4)
  else if a = R.CE_TW_CMD then d.ceTwStart (bits v 11 8) (bits v 3 0)
  else if a = R.CE_ABORT then (if bit v 31 then (d.abortRequest (bits w 11 0)).1 else d)
  else if a = R.TU_SET_CMD then d.setCmd (bits v 1 0)
  else if a = R.ER_ACK then d.ackRecord (bits v 5 0)
  else if a = R.HS_RELEASE then d.hsRelease (bits v 31 24) (bits v 10 0)
  else if a = R.SB_RST then
    let d := if bit v 0 then d.dpReset else d
    if bit v 1 then d.mgmtReset u else d
  else if a = R.SB_FUSECMD then (if bit v 31 then d.fuseGo u (bits w 3 0) (bits w 7 4) else d)
  else if off = 0xF00000 ∧ pmUnits.any (fun p => p.base = a) then
    (if bit v 0 ∧ ¬ d.tel.pmClear.contains a then { d with tel := { d.tel with pmClear := d.tel.pmClear ++ [a] } } else d)
  else d

/-- Write the bits of a mask in one word: W1C bits clear, RW and RWS fields change at once, RWB fields at the next boundary, then what acts on a
write acts. -/
def csrWrite (d : Dev) (u : Fuses) (a m v : Nat) : Dev :=
  let d := d.w1c a (Nat.land m v)
  let d := d.rwbPend a m v
  let rm := Nat.land (typeMask a fun t => t = .rw || t = .rws) m
  let w := maskIn (d.reg a).toNat rm v
  let x := Nat.land m v
  match mrdAt a with
  | some (g, 0) => d.mrdWrite g (bits w 25 16) (bit x 2) (bit x 1) (bit x 0) false
  | _ =>
  match gclAt a with
  | some c => d.gclWrite c (bits w 22 16) (bits w 12 0) (bit x 30) (bit x 31)
  | none =>
    if R.TPO_CTRL 0 ≤ a ∧ a < R.TPO_CTRL 4 ∧ (a - R.TPO_CTRL 0) % 0x20 = 0 then
      d.tpoWrite ((a - R.TPO_CTRL 0) / 0x20) (bits w 0 0) (bits w 1 1) (bit x 30) (bit x 31)
    else (d.putRw a rm v).actOn u a x w

/-- A register write without a session: as one CSR access of one word; nothing where no block is or the address is no word's (R498). -/
def registerWrite (d : Dev) (u : Fuses) (a v : Nat) : Dev := if reservedBlock a || a % 4 ≠ 0 then d else d.csrWrite u a (2 ^ 32 - 1) v

/-! Writes whose results are unpredictable (R7, R13, R16 and the lists of controller errors). -/

/-- Whether the block that owns the RWS fields of a register is quiesced (R16). -/
def rwsQuiet (d : Dev) (a : Nat) : Bool :=
  let blk := a / 0x1000000
  let off := a % 0x1000000
  if 0x10 ≤ blk ∧ blk < 0x20 then d.qack (.pl (blk - 0x10))
  else if blk = 0x02 then d.qack (.port ((off - 0x1000) / 4))
  else if blk = 0x05 then d.qack (.port (off / 0x100))
  else if blk = 0x06 then d.qack .tu
  else if blk = 0x08 then d.qack .mp
  else (List.range 64).all fun c => d.qack (.ch c)

/-- Values that the lists of controller errors name, in a word as written. -/
def badValue (a w : Nat) : Bool :=
  let blk := a / 0x1000000
  let off := a % 0x1000000
  let pl := 0x10 ≤ blk && blk < 0x20
  (blk = 0x02 && 0x100 ≤ off && off < 0x120 && bits w 15 0 = 0)
    || (blk = 0x02 && 0x1000 ≤ off && off < 0x1800 && (150 < bits w 25 18 || 150 < bits w 7 0))
    || (blk = 0x05 && off < 0x20000 && off % 0x100 = 0x10 && (bits w 23 20 = 0 || 2 < bits w 23 20))
    || (blk = 0x03 && 0x140 ≤ off && off < 0x160 && off ≠ 0x154 && off ≠ 0x158 && (bits w 31 28 = 0 || bits w 20 0 = 0))
    || (blk = 0x03 && 0x180 ≤ off && off < 0x1A0 && (bits w 31 16 < bits w 15 0 || bits w 31 16 < 33))
    || (a = R.LK_PUSH && bits w 2 0 = 0)
    || (pl && 0x10000 ≤ off && off < 0x20000 && off % 8 = 0 && bit w 31 && (bits w 15 0 = 0 || 3840 < bits w 15 0 || bits w 23 16 = 0))
    || (a = R.CE_DEFAULTS && (bits w 31 16 = 0 || bits w 15 0 = 0))
    || (a = R.OH_THRESH && (bits w 23 16 ≤ bits w 15 8 || bits w 15 8 ≤ bits w 7 0))
    || (a = R.OH_LEVELS && (sgn 16 (bits w 31 16) < -1400 || -600 < sgn 16 (bits w 31 16) || sgn 16 (bits w 15 0) < -800 || -100 < sgn 16 (bits w 15 0)))
    || (a = R.OH_CAL && bits w 15 0 * 1000000 < (bits w 27 16 * 100 + 1000) * 4608)
    || (a = R.OH_SPARE && (bits w 30 24 < 16 || 64 < bits w 30 24))
    || (a = R.TU_SERVO && (40 < bits w 31 24 || 40 < bits w 23 16))
    || (a = R.ER_CTRL && bits w 15 0 = 0)
    || (a = R.HS_CTRL && bits w 15 0 = 0)
    || (a = R.DD_CTRL && (bits w 15 8 = 0 || 2 < bits w 1 0))
    || (pl && off = 0x1020 && (bits w 31 16 = 0 || 32767 < bits w 31 16))
    || (pl && off = 0x508 && bits w 13 0 = 0)
    || (a = R.TH_CTRL && (105 < bits w 7 0 || 85 < bits w 15 8))
    || (a = R.TM_CTRL && bits w 15 0 = 0)
    || (a = R.TM_RING_CTRL 1 && bit w 31 && bits w 15 0 = 0)
    || (a = R.TM_FR_CTRL && (bits w 27 24 = 0 || 5 < bits w 27 24))
    || (a = R.TU_LIMITS && (bits w 15 8 = 0 || bits w 31 16 = 0))

/-- Whether an activity of another session holds the resource that EN of YZ_CTRL, EN of OH_SLOT_CTRL or QREQ switches. -/
def heldElsewhere (d : Dev) (sess : Option Nat) (a : Nat) : Bool :=
  let off := a % 0x1000000
  let m : Option Nat :=
    if a / 0x1000000 = 0x05 ∧ off < 0x20000 ∧ off % 0x100 = 0x10 then some (member 1 (off / 0x100))
    else if a / 0x1000000 = 0x05 ∧ 0xC0000 ≤ off ∧ off < 0xC0100 ∧ off % 16 = 0 then some (member 3 ((off - 0xC0000) / 16))
    else match qunitAt a with
      | some (.port p) => some (member 1 p)
      | some (.oe k) => some (member 2 k)
      | some (.vb b) => some (member 4 b)
      | some (.ch c) => some (member 5 c)
      | some (.xs s) => some (member 6 s)
      | _ => none
  match m, sess with
  | some m, some n => d.faults.maint.any fun x => x.res.contains m && !x.auto && x.sess ≠ n
  | _, _ => false

/-- Whether a GO for a port code's gate list names a list that spec/06_scheduling_shaping.md calls unpredictable: LEN above 64, CYCLE_BEATS of 0 or above
4,096, or an INTERVAL of 0 among the first LEN entries of the bank that would take over. It stops a GO that R207 would refuse as well (DESIGN CHOICE, log entry 91). -/
def gclBad (d : Dev) (c len cyc : Nat) : Bool :=
  let oper := d.fld (R.GCL_STAT (plOf c) (c % 64)) F.GCL_STAT_OPER_BANK
  64 < len || cyc = 0 || 4096 < cyc || (List.range len).any fun i => (d.gclEntry c (1 - oper) i).2 = 0

/-- Whether the valid entry of a word LK_PART_A names the partition of another valid entry, where `rd` gives the registers' words (spec/05_lake.md). -/
def partTwice (rd : Nat → Nat) (a : Nat) : Bool :=
  0x03000200 ≤ a && a < 0x03000280 && a % 8 = 0 && bit (rd a) 31 &&
    (List.range 16).any fun i => R.LK_PART_A i ≠ a && bit (rd (R.LK_PART_A i)) 31 && bits (rd (R.LK_PART_A i)) 11 0 = bits (rd a) 11 0

/-- Whether a write of the bits `m` of a word writes EN or QREQ of what an activity of another session holds (15_faults_sparing.md), be it as it stands: EN of YZ_CTRL is
bit 31, EN of OH_SLOT_CTRL and QREQ are bit 0. -/
def heldSwitch (d : Dev) (sess : Option Nat) (a m : Nat) : Bool :=
  bit m (if a / 0x1000000 = 0x05 ∧ a % 0x1000000 < 0x20000 ∧ a % 0x100 = 0x10 then 31 else 0) && d.heldElsewhere sess a

/-- Whether a write reaches SB_KEYPROG or SB_FUSECMD while fuses are blown (17_boot_security.md). -/
def fuseWrite (d : Dev) (a : Nat) : Bool :=
  d.on R.SB_FUSECMD F.SB_FUSECMD_BUSY && (a = R.SB_FUSECMD || (R.SB_KEYPROG 0 ≤ a && a < R.SB_KEYPROG 13))

/-- Whether a write of OH_SPARE makes ACK_WAIT_US shorter than the round trip of a link that is UP plus 2 us, or than 2 us alone (spec/12_optical_health.md).
It is judged when OH_SPARE is written and for the links then UP, and not when a longer link comes up later (DESIGN CHOICE, log entry 91). -/
def ackShort (d : Dev) (a w : Nat) : Bool :=
  a = R.OH_SPARE && (bits w 23 16 < 2 || (List.range 1024).any fun c => d.linkState c = 5 &&
    decide (bits w 23 16 * 1000 < d.fld (if c % 2 = 0 then R.YZ_RTT (c / 2) else R.YZ_RTT1 (c / 2)) F.YZ_RTT_LOOP_NS + 2000))

/-- Whether a pipeline or a vat bank, which form and take packets by FP_IDENT, is released while FP_IDENT differs among the pipelines (R93). -/
def identDiffers (d : Dev) (u : QUnit) : Bool :=
  match u with
  | .pl _ | .vb _ => (List.range 16).any fun i => d.reg (R.FP_IDENT i) ≠ d.reg (R.FP_IDENT 0)
  | _ => false

/-- Whether a write of a register makes FP_IDENT differ among the pipelines while one of them or a vat bank is in operation, `rd` the words after it (R93). While all of
them are quiesced the values may differ, since they are written one by one (log entry 9). -/
def identSplit (d : Dev) (rd : Nat → Nat) (a : Nat) : Bool :=
  (List.range 16).any (fun p => R.FP_IDENT p = a) && (List.range 16).any (fun i => rd (R.FP_IDENT i) ≠ rd a) &&
    (List.range 16).any fun i => !d.qack (.pl i) || !d.qack (.vb i)

/-- Whether AGE and AGE_EN differ among the pipelines (03_forwarding.md), so that ageing is unpredictable. -/
def ageDiffers (d : Dev) : Bool := (List.range 16).any fun p => d.fld (R.EM_CTRL p) F.EM_CTRL_AGE ≠ d.fld (R.EM_CTRL 0) F.EM_CTRL_AGE ||
    d.on (R.EM_CTRL p) F.EM_CTRL_AGE_EN != d.on (R.EM_CTRL 0) F.EM_CTRL_AGE_EN

/-- Whether a BANK_SELFTEST of a vat bank runs. -/
def bankTested (d : Dev) (u : QUnit) : Bool :=
  match u with
  | .vb b => d.faults.maint.any fun m => m.code = 7 && m.res.contains (member 4 b)
  | _ => false

/-- Whether taking a unit into operation is unpredictable: before the self-test has set BIST_DONE (17_boot_security.md; a management reset clears the
bit and undoes no self-test, log entry 9), a vat bank whose BANK_SELFTEST runs (15_faults_sparing.md), or with FP_IDENT differing (R93). -/
def releaseBad (d : Dev) (q : QUnit) : Bool := d.power.first || d.bankTested q || d.identDiffers q

/-- Whether the results of a release of a unit, which stands quiesced or drains, are unpredictable. -/
def badRelease (d : Dev) (q : QUnit) : Bool := d.qreq q && d.releaseBad q

/-- Whether the results of a masked write are unpredictable. What it makes of RWB fields is judged where they take effect (`badCommit`, R17). One to an offset that no register occupies is not: R498 has it ignored, in the management complex and the
security and boot block too, where the controller errors of 14_control_protocol.md call it unpredictable (DESIGN CHOICE, log entry 87). -/
def unpredictable (d : Dev) (sess : Option Nat) (a m v : Nat) : Bool :=
  let old := (d.reg a).toNat
  let x := Nat.land m v
  let all := typeMask a fun _ => true
  let blk := a / 0x1000000
  let rws := Nat.land (typeMask a fun t => t = .rws) m
  let w := maskIn old (Nat.land (typeMask a fun t => t = .rw || t = .rws) m) v
  (Nat.land x all ≠ x && (regAt a).isSome)
    || (x ≠ 0 && isItemPad a)
    || (maskIn old rws v ≠ old && !d.rwsQuiet a)
    || (maskIn old rws v ≠ old && blk = 0x0A && bit old 31)
    || d.fuseWrite a
    || (match qunitAt a with | some q => bit m 0 && !bit v 0 && d.badRelease q | none => false)
    || (w ≠ old && (badValue a w || partTwice (fun x => if x = a then w else (d.reg x).toNat) a || d.ackShort a w ||
      d.identSplit (fun x => if x = a then w else (d.reg x).toNat) a))
    || (match gclAt a with | some c => bit x 31 && d.gclBad c (bits w 22 16) (bits w 12 0) | none => false)
    || d.heldSwitch sess a m
    || (a = R.HS_RELEASE && bits x 31 24 = 2 && (d.logicalOf (bits x 10 0)).isSome)

/-! What a boundary puts into effect is judged as a whole (R7, R17, R45, R46; log entry 9). -/

/-- A register's word after a list of masked writes, of which a later one of the same bit wins (R17, R46). -/
def wordAfter (d : Dev) (l : List (Nat × Nat × Nat)) (a : Nat) : Nat :=
  (l.filter fun x => x.1 = a).foldl (fun w (x : Nat × Nat × Nat) => maskIn w x.2.1 x.2.2) (d.reg a).toNat

/-- Whether writes that take effect together, after others, leave a value that the lists of controller errors name, or release a unit that may not be. -/
def badCommit (d : Dev) (before l : List (Nat × Nat × Nat)) : Bool :=
  let old := d.wordAfter before
  let new := d.wordAfter (before ++ l)
  (l.map (·.1)).any fun a => new a ≠ old a &&
    (badValue a (new a) || partTwice new a || d.ackShort a (new a) ||
      (match qunitAt a with | some q => bit (old a) 0 && !bit (new a) 0 && d.releaseBad q | none => false))

/-- The writes that a group makes. -/
def groupWrites (d : Dev) (g : Nat) : List (Nat × Nat × Nat) :=
  (d.mrdItems g).map fun i => match d.mrdItem g i with | (a, m, v) => (a, Nat.land (mrdMask a) m, v)

/-- Whether a group writes what none may write: a register of a fuse operation in progress, or EN or QREQ of what an activity of another session than the one that
armed it holds. -/
def groupBarred (d : Dev) (g : Nat) : Bool :=
  (d.groupWrites g).any fun x => x.2.1 ≠ 0 && (d.fuseWrite x.1 || d.heldSwitch (Sparse.find d.csr.armBy g) x.1 x.2.1)

/-- The writes of the group that is armed for the boundary `n` beats ahead. -/
def groupAhead (d : Dev) (n : Nat) : List (Nat × Nat × Nat) :=
  match (List.range 4).find? fun g => d.mrdState g = 2 && d.beatsAhead (d.mrdTarget g) = n with
  | some g => d.groupWrites g
  | none => []

/-- The direct writes that wait for the next boundary. -/
def pendingWrites (d : Dev) : List (Nat × Nat × Nat) := d.csr.rwb.map fun (x : Nat × Word × Word) => (x.1, x.2.1.toNat, x.2.2.toNat)

/-- Whether the boundary `n` beats ahead is made where time goes on to local count `now`: it falls by then, or a step of fabric time has passed it (R454). -/
def dueBy (d : Dev) (now n : Nat) : Bool := d.countAt ((d.time.beat + n) * beatUnits) ≤ max now d.lc

/-- What takes effect at the boundaries up to local count `now`, boundary by boundary: direct writes at the first, and the group that is armed for each. -/
def commits (d : Dev) (now : Nat) : List (List (Nat × Nat × Nat)) :=
  let due := d.dueBy now
  let later := ((List.range 4).filter fun g => d.mrdState g = 2).map fun g => d.beatsAhead (d.mrdTarget g)
  if due 1 then (d.pendingWrites ++ d.groupAhead 1) ::
    ((later.filter fun n => 1 < n && due n).dedup.insertionSort (· ≤ ·)).map d.groupAhead else []

/-- Whether one of several boundaries in order puts into effect what the lists of controller errors name. -/
def trapFrom (d : Dev) : List (Nat × Nat × Nat) → List (List (Nat × Nat × Nat)) → Bool
  | _, [] => false
  | before, l :: r => d.badCommit before l || d.trapFrom (before ++ l) r

/-- Whether a group applied now would put into effect what the lists of controller errors name. -/
def mrdUnpredictable (d : Dev) (g : Nat) : Bool := d.badCommit [] (d.groupWrites g) || d.groupBarred g

/-- Whether a boundary up to local count `now` puts into effect direct writes or an armed group that the lists of controller errors name. -/
def mrdTrap (d : Dev) (now : Nat) : Bool :=
  d.trapFrom [] (d.commits now) || (List.range 4).any fun g => d.mrdState g = 2 && d.dueBy now (d.beatsAhead (d.mrdTarget g)) && d.groupBarred g

/-- Time goes on to `now`. In reset the time unit is cleared (R573): the local count stands at zero, and it counts from the release on, so that fabric time and
the beats do too (R20, R438). -/
def runOn (d : Dev) (now : Nat) : Dev := if d.inReset then d else d.advance now

/-- Whether nothing waits for a boundary: no direct write to RWB fields and no armed group. -/
def calm (d : Dev) : Bool := d.csr.rwb = [] && (List.range 4).all fun g => d.mrdState g ≠ 2

end Dev
end Sys2Proof.Machine
end

