-- ==== Sys2Proof/Machine/Ucp.lean ====
section
/-! DEFINITION. UCP frames from the controller: acceptance, sessions, the order of commands, event acknowledgement (spec/14_control_protocol.md R464,
R470 to R487, R494). A command is held here; the step of its opcode carries it out (Machine/UcpOps.lean). -/
namespace Sys2Proof.Machine

/-- TYPE of a frame. -/
def ucpType (f : List Byte) : Nat := byteAt f 0 % 16

/-- Whether a frame type carries a tag. -/
def ucpTagged (t : Nat) : Bool := 3 ≤ t && t ≤ 8

/-- Whether two endpoints are one (R470): the MAC address, the IPv6 address and port, or the chip. -/
def sameEp (a b : Ep) : Bool :=
  a.kind = b.kind && (if a.kind = 0 then a.mac = b.mac else if a.kind = 1 then a.ip = b.ip && a.udp = b.udp else a.chip = b.chip)

/-- The checks of R473 that need no session; `exact`: the frame fills its datagram or payload (R472). -/
def ucpShape (exact' : Bool) (f : List Byte) : Bool :=
  let t := ucpType f
  let len := 16 + beNat (slice f 2 2) + (if ucpTagged t then 16 else 0)
  let seq := beNat (slice f 4 4)
  16 ≤ f.length && byteAt f 0 / 16 = 1 && (t = 1 || t = 3 || t = 5 || t = 8) && len ≤ 8192 && (if exact' then f.length = len else len ≤ f.length)
    && slice f 14 2 = [0, 0] && (t ≠ 5 || (seq ≠ 0 && seq ≠ 2 ^ 32 - 1))
    && (t ≠ 1 || (beNat (slice f 2 2) = 137 && slice f 21 3 = [0, 0, 0]))

namespace Dev

/-- Whether UCP is taken on a transport (R464): enabled, and the firmware ready. -/
def ucpEnabled (d : Dev) (kind : Nat) : Bool :=
  d.mgmt.ready && (if kind = 0 then d.on R.UCP_CTRL F.UCP_CTRL_ETH_EN else if kind = 1 then d.on R.UCP_CTRL F.UCP_CTRL_UDP_EN
    else d.on R.UCP_CTRL F.UCP_CTRL_VC0_EN)

/-- A REJECT (R477, R478). -/
def ucpReject (d : Dev) (ep : Ep) (sess status ver : Nat) : Dev :=
  (d.sendUcp ep sess (ucpClear 9 sess 0 status ver [])).inc R.UCP_HELLO_FAIL

/-- The UCP versions that the running firmware supports (R582). -/
def ucpVersions (d : Dev) : Nat × Nat := (byteAt d.mgmt.image 0x15, byteAt d.mgmt.image 0x16)

/-- A credential entry. -/
def credAt (d : Dev) (i : Nat) : Cred := d.mgmt.creds.getD i {}

/-- A HELLO (R477). -/
def hello (d : Dev) (u : Fuses) (ep : Ep) (f : List Byte) : Dev :=
  let body := slice f 16 137
  let lo := beNat (slice body 0 2)
  let hi := beNat (slice body 2 2)
  let cred := byteAt body 4
  let key := slice body 0x28 97
  let agreed := min hi d.ucpVersions.2
  match (List.range 8).find? fun n => (d.sessAt n).state = 0 with
  | none => d.ucpReject ep 0xFF 1 0
  | some n =>
    if agreed < max lo d.ucpVersions.1 then d.ucpReject ep 0xFF 6 0
    else if ¬ ((cred < 16 ∧ (d.credAt cred).priv ≠ 0) ∨ (¬ u.owned ∧ cred = 0)) then d.ucpReject ep 0xFF 3 0
    else if ¬ Config.onP384 key then d.ucpReject ep 0xFF 5 0
    else
      let (r0, d) := d.draw
      let (r1, d) := d.draw
      let (r2, d) := d.draw
      let (r3, d) := d.draw
      let nd := beBytes r0.toNat 8 ++ beBytes r1.toNat 8 ++ beBytes r2.toNat 8 ++ beBytes r3.toNat 8
      let (sec, pub) := Config.ephemeral d.free
      let head := beBytes agreed 2 ++ [BitVec.ofNat 8 n] ++ List.replicate 5 0 ++ nd ++ pub
      let th := Config.sha384 (body ++ head)
      let sig := Config.deviceSign Config.deviceSecret d.free th
      let okm := Config.hkdf (slice body 8 32 ++ nd) (Config.ecdh sec key) (ascii "UCP1" ++ th) 72
      let s : Sess := { state := 1, cred := cred, ver := agreed, ep := ep, keyRx := slice okm 0 32, keyTx := slice okm 32 32,
                        ivRx := slice okm 64 4, ivTx := slice okm 68 4, th := th, since := d.lc }
      let d := { d with free := d.free + 1 }
      (d.setSess n s).sendUcp ep n (ucpClear 2 n 0 0 agreed (head ++ [0, 0, 0] ++ sig))

/-- A FINISH whose tag is good (R478, R593). -/
def finish (d : Dev) (u : Fuses) (n : Nat) (body : List Byte) : Dev :=
  let s := d.sessAt n
  let free := !u.owned && s.cred = 0
  if free ∨ Config.ecdsaVerify (d.credAt s.cred).key (Config.sha384 (s.th ++ [1])) body then
    let priv := if free then 3 else (d.credAt s.cred).priv
    let s := { s with state := 2, priv := priv, since := d.lc }
    (d.setSess n s).sendUcp s.ep n
      (ucpSeal s n 4 0 0 0 0 ([BitVec.ofNat 8 priv, 0] ++ beBytes 64 2 ++ beBytes (d.fld R.UCP_CTRL F.UCP_CTRL_IDLE_S) 4))
  else (d.setSess n {}).ucpReject s.ep n 5 s.ver

/-- A reserved slot without FINISH for 1 s is freed (R478). -/
def helloTimeout (d : Dev) (n : Nat) : Dev :=
  let s := d.sessAt n
  if s.state = 1 ∧ s.since + 1250000000 ≤ d.lc then d.setSess n {} else d

/-- A session without a good frame for IDLE_S seconds closes (R480). -/
def idleTimeout (d : Dev) (n : Nat) : Dev :=
  let s := d.sessAt n
  if s.state = 2 ∧ s.since + d.fld R.UCP_CTRL F.UCP_CTRL_IDLE_S * 1250000000 ≤ d.lc then d.closeSess n 2 else d

/-- The commands below a SEQ that have not begun are answered ABORTED; then SESSION_FLUSH is answered (R487). -/
def sessFlush (d : Dev) (n seq : Nat) : Dev :=
  let s := d.sessAt n
  if s.state ≠ 2 ∨ seq < s.next then d
  else
    let low := s.held.filter fun c => c.seq < seq
    let d := d.setSess n { s with held := s.held.filter (fun c => seq < c.seq), next := seq + 1 }
    let d := low.foldl (fun (d : Dev) (c : Cmd) => d.replyAborted n c.seq c.op) d
    d.reply n seq 0x0003 0 0 (beBytes low.length 4)

/-- Put a held command in the order of SEQ. -/
def holdCmd (c : Cmd) : List Cmd → List Cmd
  | [] => [c]
  | x :: r => if c.seq < x.seq then c :: x :: r else x :: holdCmd c r

/-- What becomes of a command by its SEQ (R483, R484): the reply of one executed is sent again, one beyond the window counts in UCP_WINDOW_DROP, one whose SEQ a held
command has is discarded, and `k` takes any other. -/
def windowed (d : Dev) (n seq : Nat) (k : Dev) : Dev :=
  let s := d.sessAt n
  let base := if s.run.isSome then s.next - 1 else s.next
  if seq < s.next then
    match s.cache.find? fun (x : Nat × List Byte) => x.1 = seq with
    | some x => d.sendUcp s.ep n x.2
    | none => d
  else if base + 63 < seq then d.inc R.UCP_WINDOW_DROP
  else if s.held.any (fun x => x.seq = seq) then d
  else k

/-- A COMMAND whose tag is good (R483, R484, R487). An unowned device refuses SESSION_FLUSH when its turn comes (R593). -/
def command (d : Dev) (u : Fuses) (n : Nat) (c : Cmd) : Dev :=
  let s := d.sessAt n
  d.windowed n c.seq <|
  if c.op = 0x0003 ∧ c.body = [] ∧ u.owned then d.sessFlush n c.seq
  else d.setSess n { s with held := holdCmd c s.held }

/-- An EVENT_ACK (R494). -/
def eventAck (d : Dev) (n seq : Nat) : Dev :=
  let s := d.sessAt n
  d.setSess n { s with evq := s.evq.filter fun e => seq < e.seq }

/-- Unacknowledged events are sent again every 10 ms, unchanged (R494). -/
def eventResend (d : Dev) (n : Nat) : Dev :=
  let s := d.sessAt n
  if s.state ≠ 2 then d
  else s.evq.foldl (fun (d : Dev) (e : Ev) =>
    if e.sent + 12500000 ≤ d.lc then
      let s := d.sessAt n
      (d.setSess n { s with evq := s.evq.map fun x => if x.seq = e.seq then { x with sent := d.lc } else x }).sendUcp s.ep n
        (ucpSeal s n 7 2 e.seq e.code 0 e.body)
    else d) d

/-- A frame from an endpoint (R470 to R474). -/
def ucpFrame (d : Dev) (u : Fuses) (ep : Ep) (f : List Byte) : Dev :=
  if ¬ d.ucpEnabled ep.kind then d
  else if ¬ ucpShape (ep.kind ≠ 0) f then d.inc R.UCP_BAD_FRAME
  else
    let t := ucpType f
    let n := byteAt f 1
    let len := beNat (slice f 2 2)
    let seq := beNat (slice f 4 4)
    if t = 1 then (d.inc R.UCP_FRAMES_RX).hello u ep f
    else
      let s := d.sessAt n
      let need := if t = 3 then 1 else 2
      if 8 ≤ n ∨ s.state ≠ need then d.inc R.UCP_BAD_FRAME
      else if ¬ sameEp s.ep ep then d.inc R.UCP_WRONG_EP
      else
        let cls := if t = 3 then 0 else if t = 5 then 1 else 2
        match Config.gcmOpen s.keyRx (ucpNonce s.ivRx cls seq) (f.take 16) (slice f 16 (len + 16)) with
        | none => d.inc R.UCP_TAG_FAIL
        | some body =>
          let d := (d.inc R.UCP_FRAMES_RX).setSess n { s with since := d.lc }
          if t = 3 then d.finish u n body
          else if t = 5 then d.command u n ⟨seq, beNat (slice f 8 2), body⟩
          else d.eventAck n seq

end Dev
end Sys2Proof.Machine
end

