-- ==== Sys2Proof/Machine/UcpOps.lean ====
section
/-! DEFINITION. The UCP opcodes (spec/14_control_protocol.md R482 to R492, with the chapters that own the commands): when a command begins, what it is
refused for, what it does and replies. -/
namespace Sys2Proof.Machine

/-- The addresses of a run of words. -/
def wordAddrs (a n : Nat) : List Nat := (List.range n).map fun i => a + 4 * i

/-- The words of a CSR_READ, CSR_WRITE, CSR_RMW or CSR_POLL. -/
def csrAddrs (op : Nat) (b : List Byte) : List Nat :=
  if op = 0x0101 ∨ op = 0x0102 then wordAddrs (beNat (slice b 0 4)) (beNat (slice b 4 2)) else [beNat (slice b 0 4)]

/-- The privilege that an opcode needs (R491, R492; a CSR command is the security officer's where any of its words lies in the security and boot block): none where the opcode is not defined. -/
def opPriv (op : Nat) (body : List Byte) : Option Nat :=
  if [0x0001, 0x0002, 0x0003, 0x0004, 0x0005, 0x0006, 0x0305, 0x0401, 0x0405, 0x0501, 0x0604, 0x0701, 0x0706, 0x0707, 0x0708, 0x0901, 0x0903].contains op then some 1
  else if op = 0x0102 ∨ op = 0x0103 then some (if (csrAddrs op body).any fun a => a / 0x1000000 = 0x0C then 3 else 2)
  else if [0x0101, 0x0104, 0x0201, 0x0202, 0x0203, 0x0204, 0x0205, 0x0206, 0x0207, 0x0208, 0x0209, 0x0301, 0x0302, 0x0303, 0x0304, 0x0402, 0x0403, 0x0404,
      0x0406, 0x0502, 0x0503, 0x0504, 0x0601, 0x0602, 0x0603, 0x0605, 0x0801, 0x0802, 0x0803, 0x0902].contains op then some 2
  else if [0x0702, 0x0703, 0x0704, 0x0705, 0x0709, 0x070A].contains op then some 3
  else none

/-- Bytes of an entry of a pipeline table and of a collective engine table; none where the code names no table. -/
def tblBytes (t : Nat) : Option Nat := if 1 ≤ t ∧ t ≤ 5 then some (tblSize t).2 else none
def ceBytes (t : Nat) : Option Nat := if t = 1 then some 16 else if t = 2 then some 320 else if t = 3 then some 4 else if t = 4 then some 16 else none

/-- Whether bytes `o` to `o + k - 1` of a body are zero (reserved fields). -/
def zeros (b : List Byte) (o k : Nat) : Bool := (slice b o k).all (· = 0)

/-- Whether a body has the length and the reserved fields of its opcode (R491); otherwise the command is MALFORMED. -/
def opShape (op : Nat) (b : List Byte) : Bool :=
  let l := b.length
  let entry (o : Nat) (n : Option Nat) : Bool := match n with | some k => l = o + k | none => o ≤ l
  match op with
  | 0x0005 => l = 4 && zeros b 2 2
  | 0x0101 => l = 8 && zeros b 6 2
  | 0x0102 => 8 ≤ l && zeros b 6 2 && l = 8 + 4 * beNat (slice b 4 2)
  | 0x0103 => l = 12
  | 0x0104 => l = 16
  | 0x0201 | 0x0203 => l = 8 && zeros b 3 1
  | 0x0202 => zeros b 3 1 && entry 8 (tblBytes (byteAt b 1))
  | 0x0204 => l = 4 && zeros b 2 2
  | 0x0205 | 0x0206 | 0x0207 => l = 20 && zeros b 1 3
  | 0x0208 => l = 8 && zeros b 1 3
  | 0x0209 => zeros b 2 2 && entry 8 (tblBytes (byteAt b 0))
  | 0x0301 | 0x0303 => l = 8 && zeros b 1 3
  | 0x0302 => zeros b 1 3 && entry 8 (ceBytes (byteAt b 0))
  | 0x0304 => l = 4 && zeros b 2 2
  | 0x0401 => l = 4
  | 0x0402 => l = 4
  | 0x0403 => l = 4 && zeros b 3 1
  | 0x0404 => l = 8 && zeros b 6 2
  | 0x0405 => l = 4 && zeros b 2 2
  | 0x0406 => l = 4 && zeros b 2 2
  | 0x0502 => l = 16 && zeros b 1 3
  | 0x0503 => l = 20 && zeros b 3 1
  | 0x0504 => l = 4 && zeros b 1 3
  | 0x0601 => 4 ≤ l && l = 4 + 4 * beNat (slice b 2 2)
  | 0x0602 => l = 4
  | 0x0604 => l = 4 && zeros b 2 2
  | 0x0605 => l = 4 && zeros b 1 3
  | 0x0702 => l = 8 && zeros b 1 3
  | 0x0703 => 4 ≤ l
  | 0x0704 | 0x0705 | 0x070A | 0x0708 => l = 4 && zeros b 1 3
  | 0x0706 => l = 8 && zeros b 1 3
  | 0x0707 => l = 48
  | 0x0709 => l = 101 && zeros b 2 2
  | 0x0801 => l = 8 && zeros b 6 2
  | 0x0802 => l = 8
  | 0x0803 => l = 8 && zeros b 6 2
  | _ => l = 0

/-- The blocks whose words can be accessed in Umber (R558). -/
def umberBlock (a : Nat) : Bool := [0x00, 0x06, 0x08, 0x09, 0x0B, 0x0C].contains (a / 0x1000000)

/-- Whether a CSR command is out of range (R498): alignment, reserved blocks, the count of words. -/
def csrRange (op : Nat) (b : List Byte) : Bool :=
  let n := beNat (slice b 4 2)
  beNat (slice b 0 4) % 4 ≠ 0 || (csrAddrs op b).any reservedBlock || (op = 0x0101 && (n = 0 || 2039 < n)) || (op = 0x0102 && (n = 0 || 2038 < n))

namespace Dev

/-! Beginning a command. -/

/-- Whether a command begins (R486): its session is open, the previous command has replied, it is the next in order, and where it is held it is that one. -/
def mayBegin (d : Dev) (n seq op : Nat) (body : List Byte) : Bool :=
  let s := d.sessAt n
  n < 8 && d.mgmt.ready && s.state = 2 && s.run.isNone && seq = s.next && s.held.all fun c => c.seq ≠ seq || (c.op = op && c.body = body)

/-- The command begins. -/
def begin' (d : Dev) (n seq op : Nat) (body : List Byte) : Dev :=
  let s := d.sessAt n
  d.setSess n { s with held := s.held.filter (fun c => c.seq ≠ seq), next := seq + 1, run := some (⟨seq, op, body⟩, d.lc) }

/-- Whether an unowned device takes a command (R593). -/
def unownedOk (op : Nat) (body : List Byte) : Bool :=
  [0x0001, 0x0002, 0x0701, 0x0706, 0x0707, 0x0101].contains op ||
    (op = 0x0102 && (csrAddrs op body).all fun a => a = R.SB_FUSECMD || (R.SB_KEYPROG 0 ≤ a && a < R.SB_KEYPROG 13))

/-- The status and detail with which a command is refused before it does anything (R482, R490, R498, R558, R593), in the order of log entry 27. -/
def gate (d : Dev) (u : Fuses) (n op : Nat) (body : List Byte) : Option (Nat × Nat) :=
  match opPriv op body with
  | none => some (4, 0)
  | some p =>
    let csr := op / 256 = 1
    if (d.sessAt n).priv < p then some (3, 2)
    else if ¬ u.owned ∧ ¬ unownedOk op body then some (3, 4)
    else if ¬ opShape op body then some (3, 1)
    else if csr ∧ csrRange op body then some (3, 3)
    else if d.pwState = 2 ∧ ((csr ∧ (csrAddrs op body).any fun a => !umberBlock a) ∨ [2, 3, 4, 8].contains (op / 256)
        ∨ (op / 256 = 6 ∧ op ≠ 0x0604 ∧ op ≠ 0x0605)) then some (3, 4)
    else none

/-- Carry out a command: `f` replies. -/
def runCmd (d : Dev) (u : Fuses) (n seq op : Nat) (body : List Byte) (f : Dev → Dev) : Dev :=
  if d.mayBegin n seq op body then
    match d.gate u n op body with
    | some (st, det) => (d.begin' n seq op body).reply n seq op st det []
    | none => f (d.begin' n seq op body)
  else d

/-- Whether a command begins and passes what it can be refused for at once. -/
def cmdRuns (d : Dev) (u : Fuses) (n seq op : Nat) (body : List Byte) : Bool := d.mayBegin n seq op body && (d.gate u n op body).isNone

/-! CSR words. -/

/-- A session's write to MRD_CTRL that has armed a group stands as the one that did. -/
def armedBy (d old : Dev) (n a : Nat) : Dev :=
  match mrdAt a with
  | some (g, 0) => if old.mrdState g ≠ 2 ∧ d.mrdState g = 2 then { d with csr := { d.csr with armBy := Sparse.ins d.csr.armBy g n } } else d
  | _ => d

/-- Write words in ascending order (R498); none when the result of one is unpredictable. -/
def csrWrites (d : Dev) (u : Fuses) (n : Nat) : List (Nat × Nat × Nat) → Option Dev
  | [] => some d
  | (a, m, v) :: r => if d.unpredictable (some n) a m v then none else ((d.csrWrite u a m v).armedBy d n a).csrWrites u n r

/-- Read words in ascending order. -/
def csrReads (d : Dev) (u : Fuses) : List Nat → List Byte × Dev
  | [] => ([], d)
  | a :: r =>
    match d.csrRead u a with
    | (v, d) => match d.csrReads u r with | (l, d) => (beBytes v 4 ++ l, d)

/-- The words that a CSR_WRITE, CSR_RMW, PORT_ENABLE, PORT_QUIESCE, SLOT_CTRL or INDIGO_SET writes: address, mask, value. -/
def cmdWrites (op : Nat) (b : List Byte) : List (Nat × Nat × Nat) :=
  let full := 2 ^ 32 - 1
  match op with
  | 0x0102 => (csrAddrs op b).zipIdx.map fun x => (x.1, full, beNat (slice b (8 + 4 * x.2) 4))
  | 0x0103 => [(beNat (slice b 0 4), beNat (slice b 4 4), beNat (slice b 8 4))]
  | 0x0402 => [(R.YZ_CTRL (beNat (slice b 0 2)), 3 * 2 ^ 30, byteAt b 2 % 2 * 2 ^ 31 + byteAt b 3 % 2 * 2 ^ 30)]
  | 0x0403 => [(R.QCTRL_PORT (beNat (slice b 0 2)), 1, byteAt b 2 % 2)]
  | 0x0404 => [(R.IND_PAIR (byteAt b 0), 2 ^ 31 + 2 ^ 18 - 1, byteAt b 1 % 2 * 2 ^ 31 + beNat (slice b 4 2) * 2 ^ 9 + beNat (slice b 2 2))]
  | 0x0406 => [(R.OH_SLOT_CTRL (byteAt b 0), 1, byteAt b 1 % 2)]
  | _ => []

/-- Whether the port, slot, entry or flag of such a command is out of range. -/
def cmdRange (op : Nat) (b : List Byte) : Bool :=
  match op with
  | 0x0402 => 512 ≤ beNat (slice b 0 2) || 1 < byteAt b 2 || 1 < byteAt b 3
  | 0x0403 => 512 ≤ beNat (slice b 0 2) || 1 < byteAt b 2
  | 0x0404 => 1 < byteAt b 1 || 512 ≤ beNat (slice b 2 2) || 512 ≤ beNat (slice b 4 2)
  | 0x0406 => 16 ≤ byteAt b 0 || 1 < byteAt b 1
  | _ => false

/-- Whether a command that writes registers begins and one of its writes has unpredictable results. -/
def cmdUnpredictable (d : Dev) (u : Fuses) (n seq op : Nat) (b : List Byte) : Bool :=
  d.cmdRuns u n seq op b && !cmdRange op b && ((d.begin' n seq op b).csrWrites u n (cmdWrites op b)).isNone

/-- A command that writes registers: `k` replies after the writes. -/
def runWrites (d : Dev) (u : Fuses) (n seq op : Nat) (b : List Byte) (k : Dev → Dev) : Dev :=
  d.runCmd u n seq op b fun d =>
    if cmdRange op b then d.reply n seq op 3 3 [] else k ((d.csrWrites u n (cmdWrites op b)).getD d)

/-- A word as four bytes. -/
def wordBytes (d : Dev) (a : Nat) : List Byte := beBytes (d.reg a).toNat 4

/-- Whether a CSR command reads a word of the ring window that cannot be read yet (R627): it waits for the channel. -/
def csrWaits (d : Dev) (op : Nat) (b : List Byte) : Bool := (csrAddrs op b).any d.windowShut

def opCsrRead (d : Dev) (u : Fuses) (n seq : Nat) (b : List Byte) : Dev :=
  if d.cmdRuns u n seq 0x0101 b && d.csrWaits 0x0101 b then d
  else d.runCmd u n seq 0x0101 b fun d => match d.csrReads u (csrAddrs 0x0101 b) with | (l, d) => d.reply n seq 0x0101 0 0 l

def opCsrWrite (d : Dev) (u : Fuses) (n seq : Nat) (b : List Byte) : Dev := d.runWrites u n seq 0x0102 b fun d => d.reply n seq 0x0102 0 0 []

/-- CSR_RMW replies with the word before the write. -/
def opCsrRmw (d : Dev) (u : Fuses) (n seq : Nat) (b : List Byte) : Dev :=
  if d.cmdRuns u n seq 0x0103 b && d.csrWaits 0x0103 b then d
  else d.runCmd u n seq 0x0103 b fun d =>
    match d.csrRead u (beNat (slice b 0 4)) with
    | (v, d) => ((d.csrWrites u n (cmdWrites 0x0103 b)).getD d).reply n seq 0x0103 0 0 (beBytes v 4)

/-- One read of a poll: it replies when the word matches. There is none while the word cannot be read (R627). -/
def pollOnce (d : Dev) (u : Fuses) (n : Nat) : Dev :=
  match (d.sessAt n).run with
  | some (c, _) =>
    if c.op = 0x0104 ∧ ¬ d.csrWaits 0x0104 c.body then
      let m := beNat (slice c.body 4 4)
      match d.csrRead u (beNat (slice c.body 0 4)) with
      | (v, e) => if Nat.land v m = Nat.land (beNat (slice c.body 8 4)) m then e.reply n c.seq c.op 0 0 (beBytes v 4) else e
    else d
  | none => d

/-- A poll begins; its reads are made at the end of every step while it runs (Machine/Settle.lean). -/
def opCsrPoll (d : Dev) (u : Fuses) (n seq : Nat) (b : List Byte) : Dev :=
  d.runCmd u n seq 0x0104 b fun d =>
    let t := beNat (slice b 12 4)
    if t = 0 ∨ 100000 < t then d.reply n seq 0x0104 3 3 [] else d

/-- The timeout of a poll passes: the last read may still match (R492). It waits while the word cannot be read (R627). -/
def pollTimeout (d : Dev) (u : Fuses) (n : Nat) : Dev :=
  match (d.sessAt n).run with
  | some (c, t) =>
    if c.op = 0x0104 ∧ ¬ d.csrWaits 0x0104 c.body ∧ t + usCounts (beNat (slice c.body 12 4)) ≤ d.lc then
      let m := beNat (slice c.body 4 4)
      match d.csrRead u (beNat (slice c.body 0 4)) with
      | (v, d) => d.reply n c.seq c.op 0 (if Nat.land v m = Nat.land (beNat (slice c.body 8 4)) m then 0 else 7) (beBytes v 4)
    else d
  | none => d

/-! Windows (R486, R490, R492). -/

/-- Put an entry into the data words of a window. -/
def twLoad (d : Dev) (reg : Nat → Nat) (v : List Byte) : Dev :=
  (List.range (ceilDiv v.length 4)).foldl (fun (d : Dev) i => d.setNum (reg i) (leNat (slice v (4 * i) 4))) d

/-- Whether a command that has begun has yet to finish with a window: TBL_WRITE_ALL uses those of all pipelines, in order. -/
def winUses (x : WinOp) (w : Nat) : Bool := x.win = w || (x.cmd.op = 0x0209 && x.win < w && w < 16)

/-- The command that a window serves, by the order in which commands begin (R486), starts its operation when it has come to it and the window is free. TABLE and BANK are wider in the command than in TW_CMD and INDEX wider than
TW_INDEX: a TABLE that does not fit names no table (log entry 50). -/
def winStart (d : Dev) (w : Nat) : Dev :=
  match d.mgmt.winQ.find? fun (x : WinOp) => winUses x w with
  | none => d
  | some x =>
    let b := x.cmd.body
    let busy := if w < 16 then d.on (R.TW_STAT w) F.TW_STAT_BUSY else d.on R.CE_TW_STAT F.CE_TW_STAT_BUSY
    if x.win ≠ w ∨ x.started ∨ busy then d
    else
      let d := { d with mgmt := { d.mgmt with winQ := d.mgmt.winQ.map fun (y : WinOp) => if y = x then { y with started := true } else y } }
      if w < 16 then
        let (op, table, bank, index, data) : Nat × Nat × Nat × Nat × List Byte :=
          match x.cmd.op with
          | 0x0201 => (1, byteAt b 1, byteAt b 2, beNat (slice b 4 4), [])
          | 0x0202 => (2, byteAt b 1, byteAt b 2, beNat (slice b 4 4), b.drop 8)
          | 0x0203 => (3, byteAt b 1, byteAt b 2, beNat (slice b 4 4), [])
          | 0x0204 => (4, byteAt b 1, 0, 0, [])
          | 0x0205 => (5, 5, 0, 0, b.drop 4)
          | 0x0206 => (6, 5, 0, 0, b.drop 4)
          | 0x0207 => (7, 5, 0, 0, b.drop 4)
          | 0x0208 => (8, 5, 0, beNat (slice b 4 4), [])
          | _ => (2, byteAt b 0, byteAt b 1, beNat (slice b 4 4), b.drop 8)
        ((d.setNum (R.TW_INDEX w) (index % 2 ^ 18)).twLoad (R.TW_DATA w) data).twBegin w op (if table < 16 then table else 0) bank index
      else
        let index := beNat (slice b 4 4)
        let d := (d.setNum R.CE_TW_INDEX (index % 2 ^ 18)).twLoad R.CE_TW_DATA (b.drop 8)
        d.ceTwBegin (x.cmd.op - 0x0300) (if byteAt b 0 < 16 then byteAt b 0 else 0) index

/-- A command takes its place at a window. -/
def winBegin (d : Dev) (w n seq op : Nat) (b : List Byte) : Dev :=
  { d with mgmt := { d.mgmt with winQ := d.mgmt.winQ ++ [(⟨w, n, ⟨seq, op, b⟩, false⟩ : WinOp)] } }.winStart w

/-- The operation of a window is over, BUSY zero: the command that holds it replies with the RESULT, or, for TBL_WRITE_ALL, goes on to the next pipeline, its
place among the commands being that of its beginning (R486). -/
def winDone (d : Dev) (w : Nat) : Dev :=
  match d.mgmt.winQ.find? fun (x : WinOp) => x.win = w && x.started with
  | none => d.winStart w
  | some x =>
    if d.on (if w < 16 then R.TW_STAT w else R.CE_TW_STAT) F.TW_STAT_BUSY then d
    else
    let res := if w < 16 then d.fld (R.TW_STAT w) F.TW_STAT_RESULT else d.fld R.CE_TW_STAT F.CE_TW_STAT_RESULT
    let op := x.cmd.op
    let put (l : List WinOp) : Dev := { d with mgmt := { d.mgmt with winQ := l } }
    let d :=
      if op = 0x0209 then
        if res = 0 ∧ w < 15 then
          (put (d.mgmt.winQ.map fun y => if y = x then { x with win := w + 1, started := false } else y)).winStart (w + 1)
        else
          -- windows that it does not come to any more serve the commands behind it
          (List.range 15).foldl (fun (d : Dev) i => if w ≤ i then d.winStart (i + 1) else d)
            ((put (d.mgmt.winQ.erase x)).reply x.sess x.cmd.seq op 0 res [BitVec.ofNat 8 (if res = 0 then 16 else w)])
      else
        let data : List Byte :=
          if res ≠ 0 then []
          else if op = 0x0201 then d.twData w |>.take (tblSize (byteAt x.cmd.body 1)).2
          else if op = 0x0207 then d.twData w |>.take 16
          else if op = 0x0301 then d.ceTwData.take ((ceBytes (byteAt x.cmd.body 0)).getD 0)
          else []
        (put (d.mgmt.winQ.erase x)).reply x.sess x.cmd.seq op 0 res data
    d.winStart w

/-- A table command: its pipeline is the first byte of its body, PL0 for TBL_WRITE_ALL. -/
def opTable (d : Dev) (u : Fuses) (n seq op : Nat) (b : List Byte) : Dev :=
  d.runCmd u n seq op b fun d =>
    let p := if op = 0x0209 then 0 else byteAt b 0
    if 16 ≤ p then d.reply n seq op 3 3 [] else d.winBegin p n seq op b

/-- A collective engine command. -/
def opCe (d : Dev) (u : Fuses) (n seq op : Nat) (b : List Byte) : Dev := d.runCmd u n seq op b fun d => d.winBegin 16 n seq op b

/-! Sessions, identity and status. -/

/-- The versions that a slot reports (R664): firmware and security version. -/
def slotVers (d : Dev) (s : Nat) : Nat × Nat :=
  let i := d.mgmt.slots.getD s []
  if d.mgmt.slotBad.getD s true ∨ i = [] then (2 ^ 32 - 1, 2 ^ 32 - 1) else (imgVer i, imgSvn i)

def opDeviceInfo (d : Dev) (u : Fuses) (n seq : Nat) (b : List Byte) : Dev :=
  d.runCmd u n seq 0x0001 b fun d =>
    d.reply n seq 0x0001 0 0 ([BitVec.ofNat 8 Config.revision.toNat] ++ d.wordBytes (R.FP_IDENT 0) ++ [BitVec.ofNat 8 d.activeSlot]
      ++ beBytes (d.slotVers 0).1 4 ++ beBytes (d.slotVers 1).1 4 ++ beBytes d.ucpVersions.1 2 ++ beBytes d.ucpVersions.2 2 ++ d.mpMac
      ++ slice Config.serial 0 16)

def opClose (d : Dev) (u : Fuses) (n seq : Nat) (b : List Byte) : Dev :=
  d.runCmd u n seq 0x0002 b fun d => (d.reply n seq 0x0002 0 0 []).closeSess n 1

/-- SESSION_FLUSH, acted on when it arrives, where the window takes it (R483, R487). -/
def opFlush (d : Dev) (u : Fuses) (n seq : Nat) (b : List Byte) : Dev :=
  if n < 8 ∧ d.mgmt.ready ∧ (d.sessAt n).state = 2 ∧ (d.gate u n 0x0003 b).isNone then d.windowed n seq (d.sessFlush n seq)
  else d.runCmd u n seq 0x0003 b fun d => d

def opHistory (d : Dev) (u : Fuses) (n seq : Nat) (b : List Byte) : Dev :=
  d.runCmd u n seq 0x0004 b fun d =>
    d.reply n seq 0x0004 0 0 (d.mgmt.recs.flatMap fun (r : Nat × Nat) => beBytes r.1 4 ++ [BitVec.ofNat 8 r.2, 0, 0, 0])

def opSubscribe (d : Dev) (u : Fuses) (n seq : Nat) (b : List Byte) : Dev :=
  d.runCmd u n seq 0x0005 b fun d =>
    let s := d.sessAt n
    (d.setSess n { s with mask := beNat (slice b 0 2) }).reply n seq 0x0005 0 0 (beBytes s.mask 2)

def opNop (d : Dev) (u : Fuses) (n seq : Nat) (b : List Byte) : Dev := d.runCmd u n seq 0x0006 b fun d => d.reply n seq 0x0006 0 0 (beBytes d.fabNs 8)

def opPartAbort (d : Dev) (u : Fuses) (n seq : Nat) (b : List Byte) : Dev :=
  d.runCmd u n seq 0x0304 b fun d =>
    let p := beNat (slice b 0 2)
    if 4096 ≤ p then d.reply n seq 0x0304 3 3 []
    else match d.abortRequest p with | (d, no) => d.reply n seq 0x0304 0 (if no then 8 else 0) []

/-- The bitmap of CE_STATUS: bit k of byte i stands for partition 8i + k (log entry 28). -/
def abortedMap (d : Dev) : List Byte :=
  (List.range 512).map fun i => BitVec.ofNat 8 (((List.range 8).map fun k => b2n (d.partAborted (8 * i + k)) * 2 ^ k).sum)

def opCeStatus (d : Dev) (u : Fuses) (n seq : Nat) (b : List Byte) : Dev :=
  d.runCmd u n seq 0x0305 b fun d =>
    d.reply n seq 0x0305 0 0 (beBytes d.vat.ctxs.length 4 ++ beBytes d.ce.launch.length 4 ++ d.abortedMap)

def opPortStatus (d : Dev) (u : Fuses) (n seq : Nat) (b : List Byte) : Dev :=
  d.runCmd u n seq 0x0401 b fun d =>
    let p := beNat (slice b 0 2)
    let k := beNat (slice b 2 2)
    if k = 0 ∨ 256 < k ∨ 512 < p + k then d.reply n seq 0x0401 3 3 []
    else d.reply n seq 0x0401 0 0 ((List.range k).flatMap fun i =>
      d.wordBytes (R.YZ_STAT (p + i)) ++ d.wordBytes (R.YZ_STAT1 (p + i)) ++ d.wordBytes (R.YZ_NEIGH (p + i)) ++ d.wordBytes (R.OH_PORT (p + i)))

def opPortEnable (d : Dev) (u : Fuses) (n seq : Nat) (b : List Byte) : Dev :=
  d.runWrites u n seq 0x0402 b fun d => d.reply n seq 0x0402 0 0 (d.wordBytes (R.YZ_STAT (beNat (slice b 0 2))))

/-- PORT_QUIESCE replies once QACK matches QREQ. -/
def quiesceReply (d : Dev) (n : Nat) : Dev :=
  match (d.sessAt n).run with
  | some (c, _) =>
    let q : QUnit := .port (beNat (slice c.body 0 2))
    if c.op = 0x0403 ∧ d.qack q = d.qreq q then d.reply n c.seq c.op 0 0 (d.wordBytes q.stat) else d
  | none => d

def opPortQuiesce (d : Dev) (u : Fuses) (n seq : Nat) (b : List Byte) : Dev := d.runWrites u n seq 0x0403 b fun d => d

def opIndigo (d : Dev) (u : Fuses) (n seq : Nat) (b : List Byte) : Dev :=
  d.runWrites u n seq 0x0404 b fun d =>
    let a := R.IND_PAIR (byteAt b 0)
    d.reply n seq 0x0404 0 (if byteAt b 1 = 1 ∧ ¬ d.on a F.IND_PAIR_EN then 8 else 0) (d.wordBytes a)

def opLaneStatus (d : Dev) (u : Fuses) (n seq : Nat) (b : List Byte) : Dev :=
  d.runCmd u n seq 0x0405 b fun d =>
    let p := beNat (slice b 0 2)
    if 512 ≤ p then d.reply n seq 0x0405 3 3 []
    else d.reply n seq 0x0405 0 0 ((List.range 9).flatMap fun j => d.wordBytes (R.OH_RING p j) ++ d.wordBytes (R.OH_MARGIN p j) ++ d.wordBytes (R.OH_POWER p j))

def opSlotCtrl (d : Dev) (u : Fuses) (n seq : Nat) (b : List Byte) : Dev :=
  d.runWrites u n seq 0x0406 b fun d => d.reply n seq 0x0406 0 0 (d.wordBytes (R.OH_SLOT_STAT (byteAt b 0)))

/-! Time. -/

def opTimeStatus (d : Dev) (u : Fuses) (n seq : Nat) (b : List Byte) : Dev :=
  d.runCmd u n seq 0x0501 b fun d =>
    match d.nowWords with
    | (lo, hi, ns, fr) =>
      d.reply n seq 0x0501 0 0 (beBytes d.tuStat 4 ++ beBytes hi 4 ++ beBytes lo 4 ++ beBytes ns 4 ++ beBytes fr 2 ++ beBytes d.beatNo 6
        ++ beBytes (bits (d.reg R.TU_RATE_HI).toNat 15 0) 2 ++ d.wordBytes R.TU_RATE_LO ++ d.wordBytes R.TU_THETA)

/-- TIME_SET writes TU_SET and the command; a refusal of the register shows in DETAIL. -/
def opTimeSet (d : Dev) (u : Fuses) (n seq : Nat) (b : List Byte) : Dev :=
  d.runCmd u n seq 0x0502 b fun d =>
    let c := byteAt b 0
    let a := R.TU_SET_CMD
    if ¬ (c = 1 ∨ c = 2) then d.reply n seq 0x0502 3 3 []
    else
      let old := d.fld a F.TU_SET_CMD_SET_REFUSED
      let d := ((d.setNum R.TU_SET_SEC_HI (beNat (slice b 4 4))).setNum R.TU_SET_SEC_LO (beNat (slice b 8 4))).setNum R.TU_SET_NS (beNat (slice b 12 4))
      let d := (d.setFld a F.TU_SET_CMD_SET_REFUSED 0).setCmd c
      let no := d.on a F.TU_SET_CMD_SET_REFUSED
      let d := if old = 1 then d.setFld a F.TU_SET_CMD_SET_REFUSED 1 else d
      d.reply n seq 0x0502 0 (if no then 8 else 0) (d.wordBytes a)

def opTpoArm (d : Dev) (u : Fuses) (n seq : Nat) (b : List Byte) : Dev :=
  d.runCmd u n seq 0x0503 b fun d =>
    let o := byteAt b 0
    if 4 ≤ o ∨ 2 ≤ byteAt b 1 ∨ 2 ≤ byteAt b 2 then d.reply n seq 0x0503 3 3 []
    else
      let a := R.TPO_CTRL o
      let old := d.fld a F.TPO_CTRL_GO_REFUSED
      let d := (d.setNum (R.TPO_START_SEC o) (beNat (slice b 4 4))).setNum (R.TPO_START_NS o) (beNat (slice b 8 4))
      let d := (d.setNum (R.TPO_PERIOD_NS o) (beNat (slice b 12 4))).setNum (R.TPO_WIDTH_NS o) (beNat (slice b 16 4))
      let d := (d.setFld a F.TPO_CTRL_GO_REFUSED 0).tpoWrite o (byteAt b 1) (byteAt b 2) false true
      let no := d.on a F.TPO_CTRL_GO_REFUSED
      let d := if old = 1 then d.setFld a F.TPO_CTRL_GO_REFUSED 1 else d
      d.reply n seq 0x0503 0 (if no then 8 else 0) (d.wordBytes a)

def opTpoCancel (d : Dev) (u : Fuses) (n seq : Nat) (b : List Byte) : Dev :=
  d.runCmd u n seq 0x0504 b fun d =>
    let o := byteAt b 0
    if 4 ≤ o then d.reply n seq 0x0504 3 3 [] else (d.tpoCancel o).reply n seq 0x0504 0 0 ((d.tpoCancel o).wordBytes (R.TPO_CTRL o))

/-! Maintenance and error records. -/

/-- The body of a MAINT_START for an activity (R544): its code, the count of identifiers, the identifiers. -/
def maintBody (code : Nat) (ids : List Nat) : List Byte := beBytes code 2 ++ beBytes ids.length 2 ++ ids.flatMap (beBytes · 4)

/-- The resource identifiers of a MAINT_START. -/
def maintIds (b : List Byte) : List Nat := (List.range (beNat (slice b 2 2))).map fun i => beNat (slice b (4 + 4 * i) 4)

/-- Whether the resources are those that the activity's code requires (R543, R544). -/
def maintShape (spare code : Nat) (ids : List Nat) : Bool :=
  let one (kind lim : Nat) : Bool := ids.length = 1 && ids.all fun i => i / 2 ^ 24 = kind && i % 2 ^ 24 < lim
  match code with
  | 1 => 1 ≤ ids.length && ids.length ≤ 32 && ids.all fun i => i / 2 ^ 24 = 1 && i % 2 ^ 24 < 512
  | 2 => one 3 16
  | 3 => one 2 32
  | 4 => one 7 1600
  | 5 => one 6 17 && ids.all fun i => i % 2 ^ 24 ≠ spare
  | 6 => one 5 64
  | 7 => one 4 16
  | _ => false

/-- The precondition of an activity (R544). -/
def maintReady (d : Dev) (code k : Nat) : Bool :=
  match code with
  | 3 => (List.range 16).all fun i => !d.on (R.YZ_CTRL (16 * k + i)) F.YZ_CTRL_EN
  | 4 => (d.logicalOf k).isSome
  | 6 => d.chRetired < 4
  | 7 => d.qack (.vb k)
  | _ => true

/-- What an activity does when it has started. -/
def maintGo (d : Dev) (code k handle : Nat) : Dev :=
  match code with
  | 4 => d.retireBegin k false handle
  | 5 => d.swapBegin k false handle
  | 6 => if 2 ≤ d.chState k then d.maintEnd handle 0 0 else d.ddrRetire k handle
  | _ => d

/-- MAINT_START (R543 to R547). -/
def opMaint (d : Dev) (u : Fuses) (n seq : Nat) (b : List Byte) : Dev :=
  d.runCmd u n seq 0x0601 b fun d =>
    let code := beNat (slice b 0 2)
    let ids := maintIds b
    let spare := d.fld R.SC_SLICE F.SC_SLICE_SPARE
    let k := ids.headD 0 % 2 ^ 24
    let rep := fun (d : Dev) s det l => d.reply n seq 0x0601 s det l
    if ¬ maintShape spare code ids then rep d 3 1 []
    else if ¬ d.maintReady code k then rep d 3 4 []
    else match d.maintStart code (ids.flatMap (expand spare)).eraseDups n with
      | (d, none, true) => rep d 2 0 []
      | (d, none, false) => rep d 1 0 []
      | (d, some h, _) => rep (d.maintGo code k h) 0 0 (beBytes h 4)

def opMaintStop (d : Dev) (u : Fuses) (n seq : Nat) (b : List Byte) : Dev :=
  d.runCmd u n seq 0x0602 b fun d =>
    match d.maintStop (beNat (slice b 0 4)) with
    | (d, true) => d.reply n seq 0x0602 0 0 []
    | (d, false) => d.reply n seq 0x0602 3 4 []

def opMaintStatus (d : Dev) (u : Fuses) (n seq : Nat) (b : List Byte) : Dev :=
  d.runCmd u n seq 0x0603 b fun d =>
    d.reply n seq 0x0603 0 0 (d.faults.maint.flatMap fun m => beBytes m.handle 4 ++ beBytes m.code 2 ++ beBytes (if m.stopping then 2 else 1) 2)

def opErrRead (d : Dev) (u : Fuses) (n seq : Nat) (b : List Byte) : Dev :=
  d.runCmd u n seq 0x0604 b fun d =>
    let f := byteAt b 0
    let k := byteAt b 1
    if k = 0 ∨ 64 < k ∨ 64 < f + k then d.reply n seq 0x0604 3 3 []
    else d.reply n seq 0x0604 0 0 ((List.range k).flatMap fun i => (List.range 16).flatMap fun w => d.wordBytes (R.ER_REC (f + i) w))

def opErrAck (d : Dev) (u : Fuses) (n seq : Nat) (b : List Byte) : Dev :=
  d.runCmd u n seq 0x0605 b fun d =>
    if 64 ≤ byteAt b 0 then d.reply n seq 0x0605 3 3 [] else (d.ackRecord (byteAt b 0)).reply n seq 0x0605 0 0 []

/-! Firmware, images, credentials. -/

def opFwStatus (d : Dev) (u : Fuses) (n seq : Nat) (b : List Byte) : Dev :=
  d.runCmd u n seq 0x0701 b fun d =>
    d.reply n seq 0x0701 0 0 (beBytes (d.slotVers 0).1 4 ++ beBytes (d.slotVers 1).1 4 ++ beBytes (d.slotVers 0).2 4 ++ beBytes (d.slotVers 1).2 4
      ++ [BitVec.ofNat 8 d.activeSlot, BitVec.ofNat 8 (d.fld R.SB_STAT F.SB_STAT_BOOT_CAUSE)])

def setStaging (d : Dev) (s : Staging) : Dev := { d with mgmt := { d.mgmt with staging := s } }

def opImgBegin (d : Dev) (u : Fuses) (n seq : Nat) (b : List Byte) : Dev :=
  d.runCmd u n seq 0x0702 b fun d =>
    let kind := byteAt b 0
    let len := beNat (slice b 4 4)
    if ¬ (kind = 1 ∨ kind = 2) ∨ len = 0 ∨ 16777216 < len then d.reply n seq 0x0702 3 3 []
    else if d.mgmt.staging.owner.any (· ≠ n) then d.reply n seq 0x0702 1 0 []
    else (d.setStaging { owner := some n, kind := kind, len := len, data := List.replicate len 0 }).reply n seq 0x0702 0 0 []

def opImgData (d : Dev) (u : Fuses) (n seq : Nat) (b : List Byte) : Dev :=
  d.runCmd u n seq 0x0703 b fun d =>
    let st := d.mgmt.staging
    let o := beNat (slice b 0 4)
    if st.owner ≠ some n then d.reply n seq 0x0703 3 4 []
    else if st.len < o + (b.length - 4) then d.reply n seq 0x0703 3 3 []
    else (d.setStaging { st with data := splice st.data o (b.drop 4) }).reply n seq 0x0703 0 0 []

/-- An IMG_COMMIT of one kind: `k` goes on when the session holds the staging area with an image of that kind. -/
def opCommit (d : Dev) (u : Fuses) (n seq kind : Nat) (k : Dev → List Byte → Dev) : Dev :=
  d.runCmd u n seq 0x0704 [BitVec.ofNat 8 kind, 0, 0, 0] fun d =>
    let st := d.mgmt.staging
    if st.owner ≠ some n ∧ st.owner.isSome then d.reply n seq 0x0704 1 0 []
    else if st.owner ≠ some n ∨ st.kind ≠ kind then d.reply n seq 0x0704 3 4 []
    else k d st.data

/-- A refused image: the reply, and the staging area is free. -/
def commitFail (d : Dev) (n seq st det : Nat) : Dev := (d.setStaging {}).reply n seq 0x0704 st det []

/-- IMG_COMMIT of a firmware image (R583, R584): the slot written is the inactive one. -/
def opFwCommit (d : Dev) (u : Fuses) (n seq : Nat) : Dev :=
  d.opCommit u n seq 1 fun d img =>
    let s := 1 - d.activeSlot
    if d.inTrial then d.reply n seq 0x0704 3 4 []
    else match imageCheck u img with
      | 1 => d.commitFail n seq 5 0
      | 2 => d.commitFail n seq 3 6
      | 3 => d.commitFail n seq 3 5
      | _ => { d with mgmt := { d.mgmt with slots := d.mgmt.slots.set s img, slotBad := d.mgmt.slotBad.set s false,
                                            staging := { d.mgmt.staging with commit := some (n, 1), slot := s } } }.spiImage s img

/-! Recipe images (R338 to R342). -/

/-- Recipe entry i of an image. -/
def rcpEntry (img : List Byte) (i : Nat) : List Byte := slice img (0x40 + 32 * i) 32
def rcpCount (img : List Byte) : Nat := leNat (slice img 6 2)
def rcpBase (img : List Byte) : Nat := leNat (slice img 0x0C 2)
def rcpInstrs (img : List Byte) : Nat := leNat (slice img 0x0E 2)

/-- A recipe entry as the table holds it (R339). -/
def rcpOfEntry (e : List Byte) : Rcp :=
  { code := byteAt e 0, anchored := bit (byteAt e 1) 0, init := leNat (slice e 2 2), step := leNat (slice e 4 2), final := leNat (slice e 6 2),
    bpe := leNat (slice e 8 2), bfix := leNat (slice e 10 2), kinds := leNat (slice e 12 4), fmts := leNat (slice e 16 4),
    budget := leNat (slice e 20 2) }

/-- The instruction words of an image. -/
def rcpWord (img : List Byte) (j : Nat) : Nat := leNat (slice img (0x40 + 32 * rcpCount img + 8 * j) 8)

/-- Check 5 of R341. -/
def recipeForm (img : List Byte) : Bool :=
  let k := rcpCount img
  let c := rcpInstrs img
  let base := rcpBase img
  let es := (List.range k).map fun i => rcpOfEntry (rcpEntry img i)
  let inside (a : Nat) : Bool := base ≤ a && a < base + c
  leNat (slice img 0 4) = 0x4E475243 && leNat (slice img 4 2) = 1 && 1 ≤ k && k ≤ 128 && 0x800 ≤ base && base ≤ 0xFFF && 1 ≤ c && c ≤ 2048
    && base + c ≤ 0x1000 && leNat (slice img 0x10 4) = img.length && img.length = 160 + 32 * k + 8 * c && zeros img 0x15 11
    && es.all (fun e => 0x80 ≤ e.code && inside e.init && inside e.step && inside e.final && 0 < e.budget)
    && decide ((es.map (·.code)).Nodup)
    && (List.range k).all (fun i => byteAt (rcpEntry img i) 1 < 2 && zeros (rcpEntry img i) 0x16 10)
    && (List.range c).all fun j => iWordOk (rcpWord img j)

/-- The status and detail of the first check of R341 that fails, from check 2 on. -/
def recipeCheck (d : Dev) (u : Fuses) (img : List Byte) : Option (Nat × Nat) :=
  let busy := d.mgmt.staging.commit.isSome || d.ce.stream.any fun (x : Nat × List Byte) => (d.sdesc x.1).valid && 0x80 ≤ (d.sdesc x.1).recipe
  let sigOk : Bool := match recipeKeyOk u (byteAt img 0x14) with
    | some k => decide (96 ≤ img.length) && Config.ecdsaVerify k (Config.sha384 (img.take (img.length - 96))) (img.drop (img.length - 96))
    | none => false
  if busy then some (1, 0)
  else if ¬ sigOk then some (5, 0)
  else if leNat (slice img 8 4) < u.rcpMin then some (3, 6)
  else if ¬ recipeForm img then some (3, 5)
  else none

/-- The loaded region and the recipe table are replaced in every vat. -/
def recipeLoad (d : Dev) (img : List Byte) : Dev :=
  let k := rcpCount img
  let imem := (List.range (rcpInstrs img)).foldl (fun m j => Sparse.put 0 m (rcpBase img + j) (rcpWord img j)) []
  let d := d.setVat { d.vat with imem := imem, rcps := (List.range k).map fun i => rcpOfEntry (rcpEntry img i) }
  let d := (List.range 16).foldl (fun (d : Dev) v =>
    ((d.setFld (R.VB_RCP_STAT v) F.VB_RCP_STAT_LOADED 1).setFld (R.VB_RCP_STAT v) F.VB_RCP_STAT_COUNT k).setNum (R.VB_RCP_SVN v) (leNat (slice img 8 4))) d
  (d.setVat { d.vat with image := img }).imageCopy img.length

/-- IMG_COMMIT of a recipe image. -/
def opRecipeCommit (d : Dev) (u : Fuses) (n seq : Nat) : Dev :=
  d.opCommit u n seq 2 fun d img =>
    match d.recipeCheck u img with
    | some (1, _) => d.reply n seq 0x0704 1 0 []
    | some (s, det) => d.commitFail n seq s det
    | none => (d.recipeLoad img).setStaging { d.mgmt.staging with commit := some (n, 2) }

/-- What an IMG_COMMIT began is finished (R342, R584): it replies and the staging area is free. A firmware image is read back out of its slot, and one that fails
read-back leaves its slot marked failed; which status of R489 the reply of that case has is not in the spec (log entry 29). -/
def commitDone (d : Dev) (ok : Bool) : Dev :=
  match d.mgmt.staging.commit with
  | none => d
  | some (n, kind) =>
    let seq := match (d.sessAt n).run with | some (c, _) => c.seq | none => 0
    let s := d.mgmt.staging.slot
    let d := d.setStaging {}
    let d := if kind = 1 then d.spiRead s else d
    if kind = 1 ∧ ¬ ok then
      let d := { d with mgmt := { d.mgmt with slotBad := d.mgmt.slotBad.set s true } }
      let (r, d) := d.draw
      d.reply n seq 0x0704 (r.toNat % 8) (r.toNat / 65536 % 2 ^ 32) []
    else d.reply n seq 0x0704 0 0 []

def opActivate (d : Dev) (u : Fuses) (n seq : Nat) (b : List Byte) : Dev :=
  d.runCmd u n seq 0x0705 b fun d =>
    let s := byteAt b 0
    if 2 ≤ s then d.reply n seq 0x0705 3 3 []
    else if d.inTrial ∨ s = d.activeSlot then d.reply n seq 0x0705 3 4 []
    else if d.mgmt.slotBad.getD s true ∨ d.mgmt.slots.getD s [] = [] then d.reply n seq 0x0705 3 5 []
    else
      let d := d.reply n seq 0x0705 0 0 []
      (d.writeSelector s true).warmRestart u s 5

/-- A certificate of R596. -/
def certificate (d : Dev) (i : Nat) : List Byte :=
  if i < 3 then Config.certificates i
  else Config.aliasCert Config.deviceSecret (Config.sha384 d.mgmt.image) (imgVer d.mgmt.image) (imgSvn d.mgmt.image)

def opGetCerts (d : Dev) (u : Fuses) (n seq : Nat) (b : List Byte) : Dev :=
  d.runCmd u n seq 0x0706 b fun d =>
    let i := byteAt b 0
    let o := beNat (slice b 4 4)
    if 3 < i ∨ (d.certificate i).length ≤ o then d.reply n seq 0x0706 3 3 []
    else d.reply n seq 0x0706 0 0 (((d.certificate i).drop o).take 8148)

/-- The report of R598 without its signature. -/
def attestBody (d : Dev) (u : Fuses) (nonce : List Byte) : List Byte :=
  let rcp := d.vat.image
  beBytes 0x4E474154 4 ++ [0, 1, BitVec.ofNat 8 Config.revision.toNat, BitVec.ofNat 8 (b2n u.owned)] ++ d.wordBytes (R.FP_IDENT 0)
    ++ [BitVec.ofNat 8 d.activeSlot, BitVec.ofNat 8 (d.fld R.SB_STAT F.SB_STAT_BOOT_CAUSE), BitVec.ofNat 8 (b2n d.inTrial), 0]
    ++ slice nonce 0 48 ++ beBytes d.fabNs 8 ++ slice (Config.sha384 d.mgmt.image) 0 48 ++ beBytes (imgSvn d.mgmt.image) 4 ++ beBytes u.fwMin 4
    ++ (if rcp = [] then List.replicate 48 0 else slice (Config.sha384 rcp) 0 48) ++ beBytes (if rcp = [] then 0 else leNat (slice rcp 8 4)) 4
    ++ beBytes u.rcpMin 4 ++ slice (Config.sha384 (d.mgmt.creds.flatMap fun (c : Cred) => BitVec.ofNat 8 c.priv :: slice c.key 0 97)) 0 48
    ++ beBytes (u.rRev * 16 + u.fRev) 4 ++ [0, 0, 0, 0]

def opAttest (d : Dev) (u : Fuses) (n seq : Nat) (b : List Byte) : Dev :=
  d.runCmd u n seq 0x0707 b fun d =>
    let r := d.attestBody u b
    let sig := Config.aliasSign Config.deviceSecret d.free (Config.sha384 d.mgmt.image) (Config.sha384 r)
    { d with free := d.free + 1 }.reply n seq 0x0707 0 0 (r ++ slice sig 0 96)

def opCredRead (d : Dev) (u : Fuses) (n seq : Nat) (b : List Byte) : Dev :=
  d.runCmd u n seq 0x0708 b fun d =>
    let i := byteAt b 0
    if 16 ≤ i then d.reply n seq 0x0708 3 3 []
    else d.reply n seq 0x0708 0 0 (BitVec.ofNat 8 (d.credAt i).priv :: [0, 0, 0] ++ slice (d.credAt i).key 0 97)

def opCredWrite (d : Dev) (u : Fuses) (n seq : Nat) (b : List Byte) : Dev :=
  d.runCmd u n seq 0x0709 b fun d =>
    let i := byteAt b 0
    let p := byteAt b 1
    let key := slice b 4 97
    let none' := key.all (· = 0)
    if i = 0 ∨ 16 ≤ i ∨ (¬ none' ∧ ¬ (1 ≤ p ∧ p ≤ 3)) then d.reply n seq 0x0709 3 3 []
    else
      let c : Cred := if none' then {} else { priv := p, key := key }
      let d := { d with mgmt := { d.mgmt with creds := d.mgmt.creds.set i c } }
      (d.closeWhere (fun s => s.cred = i) 3).reply n seq 0x0709 0 0 []

/-- SVN_COMMIT: `min` is the minimum now in force; kind 2 needs a loaded recipe image. -/
def opSvn (d : Dev) (u : Fuses) (n seq kind min : Nat) : Dev :=
  d.runCmd u n seq 0x070A [BitVec.ofNat 8 kind, 0, 0, 0] fun d =>
    if kind = 2 ∧ d.vat.image = [] then d.reply n seq 0x070A 3 4 [] else d.reply n seq 0x070A 0 0 (beBytes min 4)

/-- Whether a SVN_COMMIT blows fuses. -/
def svnRuns (d : Dev) (u : Fuses) (n seq kind : Nat) : Bool :=
  d.cmdRuns u n seq 0x070A [BitVec.ofNat 8 kind, 0, 0, 0] && (kind = 1 || d.vat.image ≠ [])

/-! Telemetry. -/

def opSnapshot (d : Dev) (u : Fuses) (n seq : Nat) (b : List Byte) : Dev :=
  d.runCmd u n seq 0x0801 b fun d =>
    let a := beNat (slice b 0 4)
    let k := beNat (slice b 4 2)
    let l := (List.range k).map fun i => a + 8 * i
    if k = 0 ∨ 1019 < k ∨ ¬ l.all isCtrLow then d.reply n seq 0x0801 3 3 []
    else d.reply n seq 0x0801 0 0 (l.flatMap fun a => beBytes (d.snapOf a) 8)

def opTelem (d : Dev) (u : Fuses) (n seq : Nat) (b : List Byte) : Dev :=
  d.runCmd u n seq 0x0802 b fun d =>
    let s := d.sessAt n
    let p := beNat (slice b 4 4)
    if p = 0 ∨ 65536 < p then d.reply n seq 0x0802 3 3 []
    else (d.setSess n { s with report := beNat (slice b 0 4), period := p }).reply n seq 0x0802 0 0 (beBytes s.report 4)

/-- FLIGHT_READ waits while a channel that holds a record it reads takes no access (R627). -/
def opFlight (d : Dev) (u : Fuses) (n seq : Nat) (b : List Byte) : Dev :=
  if d.cmdRuns u n seq 0x0803 b && beNat (slice b 4 2) ≤ 127 && d.flightShut (beNat (slice b 0 4)) (beNat (slice b 4 2)) then d
  else d.runCmd u n seq 0x0803 b fun d =>
    let k := beNat (slice b 4 2)
    if k = 0 ∨ 127 < k then d.reply n seq 0x0803 3 3 [] else (match d.flightRead (beNat (slice b 0 4)) k with
      | (x, d) => d.reply n seq 0x0803 0 0 x)

/-! Power. -/

/-- `k` measured values of 16 bits. -/
def readings (d : Dev) : Nat → List Byte × Dev
  | 0 => ([], d)
  | k + 1 => match d.measured with | (v, d) => match d.readings k with | (l, d) => (beBytes v 2 ++ l, d)

def opPower (d : Dev) (u : Fuses) (n seq : Nat) (b : List Byte) : Dev :=
  d.runCmd u n seq 0x0901 b fun d =>
    match d.readings 25 with
    | (l, d) => d.reply n seq 0x0901 0 0 (beBytes (d.pwState * 2 ^ 30 + d.fld R.PW_STAT F.PW_STAT_STEP) 4 ++ l)

def opThermal (d : Dev) (u : Fuses) (n seq : Nat) (b : List Byte) : Dev :=
  d.runCmd u n seq 0x0903 b fun d =>
    match d.readings 96 with
    | (l, d) => d.reply n seq 0x0903 0 0 (l ++ [BitVec.ofNat 8 (d.fld R.TH_CTRL F.TH_CTRL_DIE_WARN), BitVec.ofNat 8 (d.fld R.TH_CTRL F.TH_CTRL_OE_WARN), 0, 0])

/-- UMBER_ENTER: the reply is sent before entry begins (R488, R559). -/
def opUmber (d : Dev) (u : Fuses) (n seq : Nat) (b : List Byte) : Dev :=
  d.runCmd u n seq 0x0902 b fun d =>
    if d.umberOk then (d.reply n seq 0x0902 0 0 []).umberEnter else d.reply n seq 0x0902 3 4 []

/-! Commands without a step of their own: opcodes that are not defined, TIME_SET, and codes or kinds that no step takes. -/

/-- Whether a command has a step of its own. -/
def hasStep (op : Nat) (b : List Byte) : Bool :=
  (opPriv op b).isSome && op ≠ 0x0502 && (op ≠ 0x0601 || (1 ≤ beNat (slice b 0 2) && beNat (slice b 0 2) ≤ 7))
    && ((op ≠ 0x0704 && op ≠ 0x070A) || (opShape op b && (byteAt b 0 = 1 || byteAt b 0 = 2)))

/-- Carry out the next command of a session when it has no step of its own. -/
def plainCmd (d : Dev) (u : Fuses) (n : Nat) : Dev :=
  let s := d.sessAt n
  match s.held.find? fun (c : Cmd) => c.seq = s.next with
  | none => d
  | some c =>
    if hasStep c.op c.body then d
    else if c.op = 0x0502 then d.opTimeSet u n c.seq c.body
    else if c.op = 0x0601 then d.opMaint u n c.seq c.body
    else d.runCmd u n c.seq c.op c.body fun d => d.reply n c.seq c.op 3 3 []

end Dev
end Sys2Proof.Machine
end

