-- ==== Sys2Proof/Machine/Net.lean ====
section
/-! DEFINITION. Frames at the management port (spec/14_control_protocol.md R464 to R467, spec/13_time.md R457): acceptance by address and type, ICMPv6,
UDP, and the messages of IEEE 1588. The formats of IPv6, ICMPv6, UDP and IEEE 1588 are those of their standards (log entries 24 and 30). -/
namespace Sys2Proof.Machine

/-- The Ethernet address of an IPv6 multicast address. -/
def ip6Mac (ip : List Byte) : List Byte := [0x33, 0x33] ++ slice ip 12 4

/-- All nodes, and the solicited-node address of an address. -/
def allNodes : List Byte := [0xFF, 0x02, 0, 0, 0, 0, 0, 0, 0, 0, 0, 0, 0, 0, 0, 1]
def solicitedNode (ip : List Byte) : List Byte := [0xFF, 0x02, 0, 0, 0, 0, 0, 0, 0, 0, 0, 1, 0xFF] ++ slice ip 13 3

/-- Whether an upper-layer packet's checksum is good: with the checksum field in it the sum is all ones. -/
def ip6SumOk (src dst : List Byte) (next : Nat) (pkt : List Byte) : Bool := ip6Sum src dst next pkt = 0

namespace Dev

/-- The addresses that the MAC takes (R466). -/
def macTakes (d : Dev) (dst : List Byte) : Bool :=
  dst = d.mpMac || dst = List.replicate 6 0xFF
    || (d.on R.UCP_CTRL F.UCP_CTRL_UDP_EN && (dst = ip6Mac allNodes || dst = ip6Mac (solicitedNode d.mpIp6)))
    || (d.on R.PTP_CTRL F.PTP_CTRL_EN && (dst = [0x01, 0x1B, 0x19, 0, 0, 0] || dst = [0x01, 0x80, 0xC2, 0, 0, 0x0E]))

/-- The upper-layer protocol and its packet behind the extension headers that a node skips: hop-by-hop options 0, destination options 60, a routing
header 43 with no segments left. A packet with a fragment header 44 is discarded (R467), and so is one whose headers end early or that has segments left
(the standard's, log entry 30). -/
def ip6Upper : Nat → Nat → List Byte → Option (Nat × List Byte)
  | 0, _, _ => none
  | fuel + 1, h, m =>
    if h = 0 ∨ h = 60 ∨ h = 43 then
      let n := 8 * (byteAt m 1 + 1)
      if m.length < n ∨ (h = 43 ∧ byteAt m 3 ≠ 0) then none else ip6Upper fuel (byteAt m 0) (m.drop n)
    else if h = 44 then none
    else some (h, m)

/-- The upper-layer protocol and packet of an IPv6 packet. -/
def ip6Parse (pkt : List Byte) : Option (Nat × List Byte) :=
  let len := beNat (slice pkt 4 2)
  if pkt.length < 40 + len ∨ byteAt pkt 0 / 16 ≠ 6 then none else ip6Upper (len + 1) (byteAt pkt 6) (slice pkt 40 len)

/-- A Neighbor Solicitation for MP_IPV6, in an IPv6 packet from a MAC address (R467): a solicited Neighbor Advertisement, or one to all nodes when the
source is unspecified. -/
def neighbor (d : Dev) (mac pkt : List Byte) : Dev :=
  let src := slice pkt 8 16
  let dst := slice pkt 24 16
  let (next, m) := (ip6Parse pkt).getD (0, [])
  if d.on R.UCP_CTRL F.UCP_CTRL_UDP_EN ∧ next = 58 ∧ byteAt pkt 7 = 255 ∧ byteAt m 0 = 135 ∧ byteAt m 1 = 0 ∧ 24 ≤ m.length
      ∧ slice m 8 16 = d.mpIp6 ∧ (dst = d.mpIp6 ∨ dst = solicitedNode d.mpIp6) ∧ ip6SumOk src dst 58 m then
    let dad : Bool := src.all (· = 0)
    let tgt := if dad then allNodes else src
    let body (ck : List Byte) : List Byte :=
      [136, 0] ++ ck ++ [(if dad then 0x20 else 0x60), 0, 0, 0] ++ d.mpIp6 ++ [2, 1] ++ d.mpMac
    let ck := beBytes (ip6Sum d.mpIp6 tgt 58 (body [0, 0])) 2
    d.sendEth (if dad then ip6Mac allNodes else mac) 0x86DD (ip6Packet d.mpIp6 tgt 58 255 (body ck))
  else d

/-- An Echo Request for MP_IPV6 (R467): the Echo Reply with the same data. -/
def echo6 (d : Dev) (mac pkt : List Byte) : Dev :=
  let src := slice pkt 8 16
  let dst := slice pkt 24 16
  let (next, m) := (ip6Parse pkt).getD (0, [])
  if d.on R.UCP_CTRL F.UCP_CTRL_UDP_EN ∧ next = 58 ∧ byteAt m 0 = 128 ∧ byteAt m 1 = 0 ∧ 8 ≤ m.length ∧ dst = d.mpIp6
      ∧ ip6SumOk src dst 58 m then
    let body (ck : List Byte) : List Byte := [129, 0] ++ ck ++ m.drop 4
    let ck := beBytes (ip6Sum d.mpIp6 src 58 (body [0, 0])) 2
    d.sendEth mac 0x86DD (ip6Packet d.mpIp6 src 58 64 (body ck))
  else d

/-- An IEEE 1588 message: Sync 0, Delay_Req 1, Follow_Up 8, Delay_Resp 9, Announce 11; others are ignored (R457). Times are in 2^-16 ns. -/
def ptpMessage (d : Dev) (m : List Byte) : Dev :=
  let t := byteAt m 0 % 16
  let dom := byteAt m 4
  let corr : Int := sgn 64 (beNat (slice m 8 8))
  let src := slice m 20 10
  let seq := beNat (slice m 30 2)
  let at' := beNat (slice m 34 6) * secUnits + beNat (slice m 40 4) * 65536
  if m.length < 44 ∨ byteAt m 1 % 16 ≠ 2 ∨ byteAt m 0 / 16 ≠ 0 then d
  else if t = 0 then d.ptpSync dom src seq (bit (byteAt m 6) 1) at' corr
  else if t = 1 then d.ptpReq dom src seq corr
  else if t = 8 then d.ptpFollow dom src seq at' corr
  else if t = 9 ∧ 54 ≤ m.length then d.ptpResp dom src (slice m 44 10) seq at' corr
  else if t = 11 ∧ 64 ≤ m.length then
    d.ptpAnnounce dom { prio1 := byteAt m 47, cls := byteAt m 48, acc := byteAt m 49, var := beNat (slice m 50 2), prio2 := byteAt m 52,
                        gm := slice m 53 8, steps := beNat (slice m 61 2), src := src }
  else d

/-- An IPv6 packet for this device. One with a fragment header is discarded (R467). -/
def ip6Receive (d : Dev) (u : Fuses) (mac pkt : List Byte) : Dev :=
  let src := slice pkt 8 16
  let dst := slice pkt 24 16
  match ip6Parse pkt with
  | none => d
  | some (next, m) =>
    if next = 58 then (if byteAt m 0 = 135 then d.neighbor mac pkt else d.echo6 mac pkt)
    else if next = 17 ∧ 8 ≤ m.length ∧ beNat (slice m 4 2) = m.length ∧ beNat (slice m 6 2) ≠ 0 ∧ ip6SumOk src dst 17 m then
      let port := beNat (slice m 2 2)
      if (port = 319 ∨ port = 320) ∧ d.on R.PTP_CTRL F.PTP_CTRL_IPV6 then d.ptpMessage (m.drop 8)
      else if dst = d.mpIp6 ∧ port = bits (d.reg R.MP_UDP).toNat 15 0 then
        d.ucpFrame u { kind := 1, mac := mac, ip := src, udp := beNat (slice m 0 2) } (m.drop 8)
      else d
    else d

/-- A frame at the management port, without its check sequence, which is good or not (R466). The endpoint of a UDP session is its address and port; its
MAC address is that of the HELLO (R467, R470). -/
def mgmtFrame (d : Dev) (u : Fuses) (fcs : Bool) (f : List Byte) : Dev :=
  let typ := beNat (slice f 12 2)
  let pay := f.drop 14
  if ¬ d.mgmt.mpUp then d
  else if ¬ fcs ∨ 9216 < f.length + 4 ∨ f.length < 14 ∨ ¬ d.macTakes (slice f 0 6) ∨ ¬ (typ = 0x88B5 ∨ typ = 0x88F7 ∨ typ = 0x86DD) then d.inc R.MP_RX_DISCARD
  else if typ = 0x88B5 then d.ucpFrame u { kind := 0, mac := slice f 6 6 } pay
  else if typ = 0x88F7 then (if d.on R.PTP_CTRL F.PTP_CTRL_IPV6 then d else d.ptpMessage pay)
  else d.ip6Receive u (slice f 6 6) pay

/-- The management port's link comes up with a partner that offers 800GBASE-KR8 (`kr`), 800GBASE-CR8 (`cr`), both or neither, or it goes down (R465,
R480). The port advertises the one ability that MODE selects, and a partner that does not offer it leaves the link down. -/
def mgmtLink (d : Dev) (up kr cr : Bool) : Dev :=
  if up then
    if d.qreq .mp ∨ d.mgmt.stopped ∨ d.mgmt.image = [] ∨ ¬ (if d.on R.MP_CTRL F.MP_CTRL_MODE then cr else kr) then d
    else { d with mgmt := { d.mgmt with mpUp := true } }
  else { d with mgmt := { d.mgmt with mpUp := false } }.closePort

end Dev
end Sys2Proof.Machine
end

