-- ==== Sys2Proof/Machine/Settle.lean ====
section
/-! DEFINITION. What follows of itself at the end of every step: the automatic actions that error records call for (spec/15_faults_sparing.md R503, R517,
R538 to R540), packets and frames that wait for a unit of the device, commands that wait for a register, and flow control (Machine/Lake.lean). -/
namespace Sys2Proof.Machine
namespace Dev

/-- Quarantine of a port (R538 to R540). -/
def quarantinePort (d : Dev) (p ref : Nat) : Dev :=
  let a := R.HS_PORT p
  if d.on a F.HS_PORT_QUARANTINED ∨ d.on a F.HS_PORT_WITHHELD then d
  else if d.fld R.HS_BUDGET F.HS_BUDGET_PORT_BUDGET ≤ d.charged d.faults.removedPorts then d.withhold a 1 p ref
  else
    let d := { d with faults := { d.faults with removedPorts := d.faults.removedPorts ++ [d.lc] } }
    ((d.portOff p).setFld a F.HS_PORT_QUARANTINED 1).inc R.HS_QUAR_PORT

/-- A partition-fatal error starts its abort; one that finds 16 waiting is device-fatal (R517). -/
def abortFor (d : Dev) (part cause rseq ref w0 : Nat) : Dev :=
  if part ≠ 0 ∧ ¬ d.abortKnown part ∧ d.faults.abortRun.isSome ∧ 16 ≤ d.faults.aborts.length then
    (match d.recAt ref with | some n => d.raiseSev n 5 | none => d).contain w0
  else d.abortBegin part cause rseq

/-- Carry out one automatic action. -/
def perform (d : Dev) : Action → Dev
  | .quarPort p ref => d.quarantinePort p ref
  | .quarVat v ref => d.autoRetire v false true ref
  | .sliceSwap s hard ref => d.autoSwap s hard ref
  | .vatRetire v hard ref => d.autoRetire v hard false ref
  | .chanRetire c ref => d.autoDdr c ref
  | .wireSpare g w => d.wireSpare g w
  | .softRepair m r => d.softRepair m r
  | .lanes c => d.laneWaiting c
  | .abort part cause rseq ref w0 => d.abortFor part cause rseq ref w0
  | .deviceFatal w0 => d.contain w0
  | .tallyTimeout v w => d.tallyTimeout v w

/-- Carry out the actions that wait, with those that they call for; what is left after `fuel` of them waits for the next step. -/
def actions : Nat → Dev → Dev
  | 0, d => d
  | n + 1, d =>
    match d.faults.todo with
    | [] => d
    | a :: r => actions n ({ d with faults := { d.faults with todo := r } }.perform a)

/-- UCP frames and announcements that arrived in packets reach their units. -/
def inboxes (d : Dev) (u : Fuses) : Dev :=
  let m := d.mgmt.inbox
  let t := d.time.inbox
  let d := { d with mgmt := { d.mgmt with inbox := [] }, time := { d.time with inbox := [] } }
  let d := m.foldl (fun (d : Dev) (x : Ep × List Byte) => d.ucpFrame u x.1 x.2) d
  t.foldl (fun (d : Dev) (x : Nat × List Byte × Nat × Nat) => d.annReceive x.1 x.2.1 x.2.2.1) d

/-- Sessions: commands that have no step of their own, polls, and PORT_QUIESCE. -/
def sessions (d : Dev) (u : Fuses) : Dev :=
  if d.mgmt.sess.all fun s => s.state ≠ 2 then d
  else (List.range 8).foldl (fun d n => (((d.plainCmd u n).plainCmd u n).pollOnce u n).quiesceReply n) d

/-- What the packets held and the round robins have come to at the end of a step (R119, R160, R196). -/
def queues (d : Dev) : Dev := (d.behindAll.stallNote).turnsSettle

/-- The end of a step, with LM_EN asserted where a wake has come to it and the accesses to LPDDR6 that have become possible. -/
def settle (d : Dev) (u : Fuses) : Dev := (((actions 256 d).inboxes u).sessions u |> actions 256).queues.flow.lmWake.lateAll

end Dev
end Sys2Proof.Machine
end

