-- ==== Sys2Proof/Machine/State.lean ====
section
/-! DEFINITION. The state of the block, the reasons for which a step can stop, and the state after reset. -/
namespace Sys2Proof.Machine

/-- Why a step stops. -/
inductive Fault where
  /-- Raised by a register write, a Mordant group, a gate list GO, a quiesce release, a fuse command, a health release or a UCP command that writes registers,
  where the spec calls the results of that controller action unpredictable (spec/00_scope.md R7, R13, R16 and the lists of controller errors). Safe: the spec
  gives it no effect. -/
  | unpredictable
deriving DecidableEq, Repr

/-- Why a command has no meaning. -/
inductive Refusal where
  /-- Raised by an arm of `exec` whose command has no meaning yet; no arm does. Safe. -/
  | notModelled (mnemonic : String)
deriving DecidableEq, Repr

/-- The state: the commands that wait, first in first out; the fuses (spec/17_boot_security.md R590), which no reset clears; everything else the spec gives the
device. -/
structure State where
  pending : List Instr := []
  fuse : Fuses := {}
  dev : Dev := {}
deriving DecidableEq, Repr

/-- The device right after a power-on reset, RESET_N about to be released (R573, R578): every register at its reset value, nothing booted, boot storage as
it left manufacture. -/
def State.reset : State :=
  { dev := { mgmt := { slots := [Config.factoryImage 0, Config.factoryImage 1],
                       sel := [0, 1].map fun i => match Config.factorySelector i with | (s, t, q, g) => { slot := s % 2, trial := t, seq := q, good := g } } } }

end Sys2Proof.Machine
end

