-- ==== Sys2Proof/Machine/Lift.lean ====
section
/-! DEFINITION. How a command's effect on the device becomes a step of the state: time goes on to the command's local count, the effect takes place, and what
follows of itself follows (Machine/Settle.lean). -/
namespace Sys2Proof.Machine

/-- The outcome of a command. -/
abbrev Res := Host.Outcome State Fault Refusal

/-- The state after an effect on the device. While a full reset lasts, the device does nothing (spec/17_boot_security.md R573). -/
def State.effect (s : State) (f : Dev → Fuses → Dev) : State :=
  if s.dev.inReset then s else { s with dev := (f s.dev s.fuse).settle s.fuse }

/-- A command without a time of its own. -/
def act (s : State) (f : Dev → Fuses → Dev) : Res := .next (s.effect f)

/-- A command stops where the spec calls its results unpredictable. -/
def predictable (s : State) (bad : Dev → Fuses → Bool) (k : Res) : Res :=
  if !s.dev.inReset && bad s.dev s.fuse then .fault .unpredictable else k

/-- Time that goes on to `now` stops where it would make a boundary that puts into effect direct writes or an armed Mordant group whose values the lists of
controller errors name (R7; log entry 9). -/
def passing (now : Nat) (s : State) (k : Res) : Res := predictable s (fun d _ => d.mrdTrap now) k

/-- A command that happens at local count `now`. -/
def timed (now : Nat) (s : State) (f : Dev → Fuses → Dev) : Res := passing now s <| act s fun d u => f (d.advance now) u

/-- On an empty queue one local count (0.8 ns) passes (log entry 1). -/
def idle (s : State) : Res := timed (s.dev.lc + 1) s fun d _ => d

/-- The pins and supplies of reset, which act in reset too. In reset the local count stands and no beat is made. -/
def always (now : Nat) (s : State) (f : Dev → Fuses → Dev) : Res := passing now s <| .next { s with dev := (f (s.dev.runOn now) s.fuse).settle s.fuse }

/-- A command that can blow fuses. -/
def actFuse (s : State) (f : Dev → Fuses → Dev × Fuses) : Res :=
  if s.dev.inReset then .next s
  else match f s.dev s.fuse with
    | (d, u) => .next { s with fuse := u, dev := d.settle u }

/-- A command that names an element or an address which the device does not have does nothing, as an access that R498 turns away does nothing (DESIGN
CHOICE, log entry 10). -/
def need (ok : Bool) (s : State) (k : Res) : Res := if ok then k else .next s

/-- Whether a CSR access reaches an address: in Umber the blocks that R558 does not list are out of reach. -/
def Dev.reaches (d : Dev) (a : Nat) : Bool := d.pwState ≠ 2 || umberBlock a

end Sys2Proof.Machine
end

