-- ==== Sys2Proof/Machine/BootRows.lean ====
section
/-! DEFINITION. The commands of reset, boot and the security block (spec/17_boot_security.md). -/
namespace Sys2Proof.Machine
open Dev

/-- `POWER_ON_RESET` (spec/17_boot_security.md R573): PWRGOOD rising after power-up clears every part except the fuses. -/
def execPowerOnReset (now : Nat) (s : State) : Res :=
  always now s fun d _ => d.powerOnReset

/-- `FULL_RESET` (spec/17_boot_security.md R573): RESET_N or PWRGOOD low with rails up performs a full reset. -/
def execFullReset (now : Nat) (pwrgood : Bool) (s : State) : Res :=
  always now s fun d _ => d.resetAssert pwrgood

/-- `RESET_RELEASE` (spec/17_boot_security.md R578): Release of RESET_N starts the boot sequence from ROM. -/
def execResetRelease (now : Nat) (s : State) : Res :=
  always now s fun d u => d.resetRelease u

/-- `BOOT_RETRY` (spec/17_boot_security.md R580): With both slots failing, the ROM retries the boot selector every 10 s. -/
def execBootRetry (now : Nat) (s : State) : Res :=
  timed now s fun d u => d.bootRetry u

/-- `FIRMWARE_READY` (spec/17_boot_security.md R588): Started firmware reports ready and UCP becomes available. -/
def execFirmwareReady (now : Nat) (s : State) : Res :=
  timed now s fun d u => d.firmwareReady u

/-- `WATCHDOG_EXPIRE` (spec/17_boot_security.md R587): The management watchdog expires, restarting the cores and falling back during a trial. -/
def execWatchdogExpire (now : Nat) (errs : List (Nat × List Nat)) (s : State) : Res :=
  timed now s fun d u => (d.seeing errs).watchdog u

/-- `TRIAL_CONFIRM` (spec/17_boot_security.md R586): After 10 s without watchdog expiry the trial is confirmed and TRIAL clears. -/
def execTrialConfirm (now : Nat) (s : State) : Res :=
  timed now s fun d _ => d.trialConfirm

/-- `CORE_FAULT` (spec/15_faults_sparing.md R525): A core missing heartbeats or reporting a fault is removed and the firmware restarts warm. -/
def execCoreFault (now n : Nat) (errs : List (Nat × List Nat)) (s : State) : Res :=
  need (n < 5) s <| timed now s fun d u => (d.seeing errs).coreFault u n

/-- `MGMT_RESET` (spec/17_boot_security.md R573): MGMT of SB_RST starts a management reset. -/
def execMgmtReset (now : Nat) (s : State) : Res :=
  timed now s fun d u => d.mgmtReset u

/-- `DATAPATH_RESET` (spec/17_boot_security.md R575): DATAPATH of SB_RST starts a data-path reset. -/
def execDatapathReset (now : Nat) (s : State) : Res :=
  timed now s fun d _ => d.dpReset

/-- `DATAPATH_RESET_DONE` (spec/17_boot_security.md R575): A data-path reset completes with every cleared unit quiesced. -/
def execDatapathResetDone (now : Nat) (s : State) : Res :=
  timed now s fun d _ => d.dpResetDone

/-- `PROGRAM_OWNER` (spec/17_boot_security.md R594): PROGRAM_OWNER fuses the staged owner key and sets the lifecycle to OWNED. -/
def execProgramOwner (now index : Nat) (s : State) : Res :=
  predictable s (fun d _ => ((d.advance now).on R.SB_FUSECMD F.SB_FUSECMD_BUSY)) <|
    timed now s fun d u => d.fuseGo u 1 (index % 16)

/-- `PROGRAM_RKEY` (spec/17_boot_security.md R595): PROGRAM_RKEY fuses a staged recipe key into index 2 or 3. -/
def execProgramRkey (now index : Nat) (s : State) : Res :=
  predictable s (fun d _ => ((d.advance now).on R.SB_FUSECMD F.SB_FUSECMD_BUSY)) <|
    timed now s fun d u => d.fuseGo u 2 (index % 16)

/-- `REVOKE_FKEY` (spec/17_boot_security.md R595): REVOKE_FKEY revokes a firmware key. -/
def execRevokeFkey (now index : Nat) (s : State) : Res :=
  predictable s (fun d _ => ((d.advance now).on R.SB_FUSECMD F.SB_FUSECMD_BUSY)) <|
    timed now s fun d u => d.fuseGo u 3 (index % 16)

/-- `REVOKE_RKEY` (spec/17_boot_security.md R595): REVOKE_RKEY revokes a recipe key. -/
def execRevokeRkey (now index : Nat) (s : State) : Res :=
  predictable s (fun d _ => ((d.advance now).on R.SB_FUSECMD F.SB_FUSECMD_BUSY)) <|
    timed now s fun d u => d.fuseGo u 4 (index % 16)

/-- `FUSE_PROGRAM_DONE` (spec/17_boot_security.md R590): Fuse blowing completes and BUSY clears. -/
def execFuseProgramDone (now : Nat) (s : State) : Res :=
  passing now s <| actFuse s fun d u => (d.advance now).fuseDone u

end Sys2Proof.Machine
end

