-- ==== Sys2Proof/Machine/ClockRows.lean ====
section
/-! DEFINITION. The commands of the beat boundary, register writes, quiescence, Mordant groups, epochs and the reference clock (spec/01_architecture.md, spec/00_scope.md R15 to R17). -/
namespace Sys2Proof.Machine
open Dev

/-- `BEAT_BOUNDARY` (spec/01_architecture.md R35): At each 2,048 ns beat boundary the GS5 performs the seven ordered beat steps across the whole chip. -/
def execBeatBoundary (now : Nat) (s : State) : Res :=
  timed (s.dev.boundaryBy now) s fun d _ => d

/-- `REGISTER_WRITE` (spec/00_scope.md R15): A CSR write to a register with no behaviour of its own takes effect according to its field types. -/
def execRegisterWrite (a v : Nat) (s : State) : Res :=
  need (s.dev.reaches (a)) s <| predictable s (fun d _ => !reservedBlock a && a % 4 = 0 && d.unpredictable none a (2 ^ 32 - 1) (v % 2 ^ 32)) <|
    act s fun d u => d.registerWrite u a (v % 2 ^ 32)

/-- `QUIESCE_REQUEST` (spec/01_architecture.md R39): A write of one to QREQ starts the unit draining towards quiescence. -/
def execQuiesceRequest (now : Nat) (q : QUnit) (s : State) : Res :=
  need (q.ok) s <| need (s.dev.reaches (q.ctrl)) s <| timed now s fun d _ => d.quiesceRequest q

/-- `QUIESCE_RELEASE` (spec/04_switch_core.md R157): A write of zero to QREQ releases the unit into operation, reserving port headroom where needed. -/
def execQuiesceRelease (now : Nat) (q : QUnit) (s : State) : Res :=
  need (q.ok) s <| need (s.dev.reaches (q.ctrl)) s <| predictable s (fun d _ => ((d.advance now).badRelease q)) <|
    timed now s fun d _ => d.quiesceRelease q

/-- `QUIESCE_DRAINED` (spec/01_architecture.md R39): A draining unit finishes its drain and sets QACK. -/
def execQuiesceDrained (now : Nat) (q : QUnit) (s : State) : Res :=
  need (q.ok) s <| timed now s fun d _ => d.quiesceDrained q

/-- `FORCED_QUIESCE` (spec/01_architecture.md R40): At the drain bound the unit discards what remains, sets QFORCED and QACK, and writes an error record. -/
def execForcedQuiesce (now : Nat) (q : QUnit) (s : State) : Res :=
  need (q.ok) s <| timed now s fun d _ => d.forcedQuiesce q

/-- `MRD_STAGE` (spec/01_architecture.md R660): A write of COUNT or of an item word stages a Mordant group, moving EMPTY to STAGED. -/
def execMrdStage (now a v : Nat) (s : State) : Res :=
  need ((match mrdAt a with | some (_, o) => a % 4 = 0 && (o = 0 || isItem o) | none => false)) s <| need (s.dev.reaches (a)) s <| predictable s (fun d _ => ((d.advance now).unpredictable none a (2 ^ 32 - 1) (v % 2 ^ 32))) <|
    timed now s fun d u => d.csrWrite u a (2 ^ 32 - 1) (v % 2 ^ 32)

/-- `MRD_CLEAR` (spec/01_architecture.md R660): CLEAR sets COUNT to zero and STATE to EMPTY unless the group is ARMED. -/
def execMrdClear (now g count : Nat) (s : State) : Res :=
  need (g < 4) s <| need (s.dev.reaches (R.MRD_CTRL g)) s <| timed now s fun d _ => d.mrdWrite g count true false false false

/-- `MRD_CANCEL` (spec/01_architecture.md R47): CANCEL returns an ARMED group to STAGED if in time, otherwise sets CANCEL_LATE. -/
def execMrdCancel (now g count : Nat) (s : State) : Res :=
  need (g < 4) s <| need (s.dev.reaches (R.MRD_CTRL g)) s <| timed now s fun d _ => d.mrdWrite g count false true false false

/-- `MRD_ARM` (spec/01_architecture.md R44): ARM checks a staged group and arms it for its target beat or refuses it with status bits. -/
def execMrdArm (now g count : Nat) (ecc : Bool) (s : State) : Res :=
  need (g < 4) s <| need (s.dev.reaches (R.MRD_CTRL g)) s <| timed now s fun d _ => d.mrdWrite g count false false true ecc

/-- `MORDANT_GROUP_APPLY` (spec/01_architecture.md R45): At its target beat an armed group applies all its items, enters APPLIED and sets DONE_EVT. -/
def execMordantGroupApply (now : Nat) (s : State) : Res :=
  predictable s (fun d _ => (match (d.advance now).mrdDue with | some g => (d.advance now).mrdUnpredictable g | none => false)) <|
    timed now s fun d _ => d.groupApply

/-- `RETIRE_NOW` (spec/03_forwarding.md R126): A write of one to RETIRE_NOW requests retirement of the previous bank at the next boundary. -/
def execRetireNow (now pl : Nat) (s : State) : Res :=
  need (pl < 16) s <| need (s.dev.reaches (R.FW_EPOCH pl)) s <| timed now s fun d _ => d.retireNow pl

/-- `PREV_BANK_RETIRE` (spec/03_forwarding.md R126): At beat B+W or after RETIRE_NOW the previous bank retires and PREV_HELD clears. -/
def execPrevBankRetire (now pl : Nat) (s : State) : Res :=
  need (pl < 16) s <| timed now s fun d _ => d.prevRetire pl

/-- `REFCLK_LOST` (spec/13_time.md R441): Loss of REFCLK_RACK holds every PLL, sets REF_LOST and writes an error record. -/
def execRefclkLost (now : Nat) (s : State) : Res :=
  always now s fun d _ => d.refclkLost

/-- `REFCLK_RESTORED` (spec/13_time.md R441): Return of the reference relocks the PLLs without a phase step and clears REF_LOST. -/
def execRefclkRestored (now : Nat) (s : State) : Res :=
  always now s fun d u => d.refclkBack u

end Sys2Proof.Machine
end

