-- ==== Sys2Proof/Machine/CollectiveRows.lean ====
section
/-! DEFINITION. The commands of the collective engine and the vats: contributions, handlers, timeouts, launches, aborts (spec/07_collectives.md, spec/08_vat_arithmetic.md). -/
namespace Sys2Proof.Machine
open Dev

/-- `RESULT_ADMIT` (spec/05_lake.md R180): A waiting vat bank result is granted cells, sent, and its context released. -/
def execResultAdmit (now b : Nat) (err : Option ResErr) (s : State) : Res :=
  need (b < 16) s <| predictable s (fun d _ => ((d.advance now).resultBad b)) <|
    timed now s fun d _ => d.resultAdmit b err

/-- `CONTRIBUTION_ACCEPT` (spec/07_collectives.md R227): A front end checks a whole contribution and passes it to its owning vat or discards it. -/
def execContributionAccept (now b : Nat) (err : Option DescErr) (s : State) : Res :=
  need (b < 16) s <| predictable s (fun d _ => ((d.advance now).contribBad b err)) <|
    timed now s fun d _ => d.contribAccept b err

/-- `VAT_CONTRIBUTION` (spec/07_collectives.md R230): The owning vat handles a contribution: late, deflected, excess, added, or opening a context. -/
def execVatContribution (now lv : Nat) (err : Option DescErr) (s : State) : Res :=
  need (lv < 1536) s <| predictable s (fun d _ => ((d.advance now).vatBad lv err)) <|
    timed now s fun d _ => d.vatContribution lv err

/-- `HANDLER_STEP` (spec/09_vat_programming.md R315): When an array is free the STEP handler runs for a contribution held in that array's buffer. -/
def execHandlerStep (now lv : Nat) (s : State) : Res :=
  need (lv < 1536) s <| timed now s fun d _ => d.handlerStep lv

/-- `HANDLER_FINAL` (spec/09_vat_programming.md R312): Once all array operations of a completed context finish, FINAL runs and the result is rounded. -/
def execHandlerFinal (now lv k : Nat) (err : Option DescErr) (s : State) : Res :=
  need (lv < 1536 && k < 64) s <| timed now s fun d _ => (d.meeting err).handlerFinal lv k

/-- `ARRAY_OP_COMPLETE` (spec/09_vat_programming.md R315): An array operation finishes its combine into the context's tally words. -/
def execArrayOpComplete (now lv arr : Nat) (err : Option (Nat × Bool)) (desc : Option DescErr) (s : State) : Res :=
  need (lv < 1536 && arr < 4) s <| timed now s fun d _ => match err with | some e => ((d.meeting desc).arrayOpComplete lv arr).tallyError lv e.1 e.2 | none => d.arrayOpComplete lv arr

/-- `CHUNK_TIMEOUT` (spec/07_collectives.md R242): A context reaching its timeout is flushed, recorded TIMED_OUT, and an INCOMPLETE notice is sent. -/
def execChunkTimeout (now lv k : Nat) (ptr : Option (Nat × Nat × Nat)) (err : Option DescErr) (s : State) : Res :=
  need (lv < 1536 && k < 64) s <| timed now s fun d _ => d.chunkTimeout lv k ptr err

/-- `RECORD_ENTRY_EXPIRE` (spec/07_collectives.md R229): A chunk record entry kept for its group's timeout expires. -/
def execRecordEntryExpire (now lv stream chunk : Nat) (s : State) : Res :=
  need (lv < 1536) s <| timed now s fun d _ => d.recExpire lv stream chunk

/-- `LAUNCH_ACK_ACCEPT` (spec/07_collectives.md R247): An own-chip LAUNCH_ACK is checked and added to its launch slot. -/
def execLaunchAckAccept (now b : Nat) (err : Option DescErr) (s : State) : Res :=
  need (b < 16) s <| predictable s (fun d _ => ((d.advance now).ackBad b err)) <|
    timed now s fun d _ => d.ackAccept b err

/-- `LAUNCH_TIMEOUT` (spec/07_collectives.md R250): A launch slot reaching its timeout sends a combined LAUNCH_ACK with STATUS LAUNCH_INCOMPLETE. -/
def execLaunchTimeout (now b stream chunk : Nat) (err : Option DescErr) (s : State) : Res :=
  need (b < 16) s <| timed now s fun d _ => d.launchTimeout b stream chunk err

/-- `LAUNCH_SLOT_FREE` (spec/07_collectives.md R252): A closed launch slot is freed after its timeout. -/
def execLaunchSlotFree (now b stream chunk : Nat) (s : State) : Res :=
  need (b < 16) s <| timed now s fun d _ => d.launchFree b stream chunk

/-- `CE_ABORT_GO` (spec/07_collectives.md R253): A write of one to GO in CE_ABORT requests an abort of PARTITION or is refused. -/
def execCeAbortGo (now part : Nat) (s : State) : Res :=
  need (part < 4096) s <| need (s.dev.reaches (R.CE_ABORT)) s <| timed now s fun d _ => ((d.setFld R.CE_ABORT F.CE_ABORT_PARTITION part).abortRequest part).1

/-- `PARTITION_ABORT_RUN` (spec/07_collectives.md R254): A queued partition abort runs its six steps, sends ABORT and ABORTED notices, and is recorded. -/
def execPartitionAbortRun (now : Nat) (err : Option DescErr) (s : State) : Res :=
  timed now s fun d _ => (d.meeting err).abortRun

end Sys2Proof.Machine
end

