-- ==== Sys2Proof/Machine/FaultRows.lean ====
section
/-! DEFINITION. The commands of error records, sparing, maintenance and health (spec/15_faults_sparing.md). -/
namespace Sys2Proof.Machine
open Dev

/-- `ER_ACK` (spec/15_faults_sparing.md R511): A write to ER_ACK acknowledges the record in the named slot. -/
def execErAck (now k : Nat) (s : State) : Res :=
  need (k < 64) s <| timed now s fun d _ => d.ackRecord k

/-- `VAT_HARD_FAULT` (spec/15_faults_sparing.md R521): A vat hard fault times out its contexts and starts its immediate retirement. -/
def execVatHardFault (now v unit : Nat) (err : Option DescErr) (s : State) : Res :=
  need (v < 1600) s <| timed now s fun d _ => (d.meeting err).vatHard v unit

/-- `VAT_DRAIN_END` (spec/15_faults_sparing.md R520): A retiring vat's drain ends, timing out remaining contexts. -/
def execVatDrainEnd (now v : Nat) (err : Option DescErr) (s : State) : Res :=
  need (v < 1600) s <| timed now s fun d _ => (d.meeting err).drainEnd v

/-- `VAT_SPARE_TEST_END` (spec/15_faults_sparing.md R520): The spare's self-test ends and the spare is mapped, or NO_SPARE is recorded. -/
def execVatSpareTestEnd (now v : Nat) (pass : Bool) (s : State) : Res :=
  need (v < 1600) s <| timed now s fun d _ => d.spareTest v pass

/-- `SLICE_SWAP_SWITCHOVER` (spec/15_faults_sparing.md R523): After the spare's test, cells switch to the new slice mapping at the next boundary, or the swap is abandoned. -/
def execSliceSwapSwitchover (now : Nat) (pass : Bool) (unit : Nat) (s : State) : Res :=
  timed now s fun d _ => d.swapOver pass (unit % 32)

/-- `WIRE_SPARE_SWITCH` (spec/15_faults_sparing.md R529): After 4,096 compared transfers the receiver takes a spared wire from its spare. -/
def execWireSpareSwitch (now g : Nat) (s : State) : Res :=
  timed now s fun d _ => d.wireSwitch g

/-- `DEFERRED_ROW_REPAIR` (spec/15_faults_sparing.md R532): A packet buffer row with an uncorrectable error is repaired once its cells are free. -/
def execDeferredRowRepair (now mac row : Nat) (s : State) : Res :=
  timed now s fun d _ => d.deferredRepair mac row

/-- `SEGMENT_MOVE_COMPLETE` (spec/19_lpddr6.md R628): A logical segment's copy completes and its remap entry changes. -/
def execSegmentMoveComplete (now c : Nat) (fail : Bool) (s : State) : Res :=
  need (c < 64) s <| timed now s fun d _ => d.segmentMove c fail

/-- `SELFTEST_COMPLETE` (spec/15_faults_sparing.md R547): An OE or bank self-test ends and MAINT_DONE reports its outcome. -/
def execSelftestComplete (now handle data : Nat) (s : State) : Res :=
  timed now s fun d _ => d.selfTestEnd handle data

/-- `HEALTH_DECAY` (spec/15_faults_sparing.md R537): Every 2²⁴ beats every health score becomes fifteen sixteenths of itself. -/
def execHealthDecay (now : Nat) (s : State) : Res :=
  timed now s fun d _ => d.healthDecay

/-- `HS_RELEASE` (spec/15_faults_sparing.md R542): A write to HS_RELEASE clears QUARANTINED and WITHHELD of an element and zeroes its score. -/
def execHsRelease (now kind n : Nat) (s : State) : Res :=
  predictable s (fun d _ => (kind % 256 = 2 && ((d.advance now).logicalOf (n % 2048)).isSome)) <|
    timed now s fun d _ => d.hsRelease (kind % 256) (n % 2048)

end Sys2Proof.Machine
end

