-- ==== Sys2Proof/Machine/LinkRows.lean ====
section
/-! DEFINITION. The commands of the links: rows, link control symbols, control messages, lane commands, training, Indigo circuits (spec/11_optical_links.md, spec/12_optical_health.md). -/
namespace Sys2Proof.Machine
open Dev

/-- `ROW_RECEIVE` (spec/11_optical_links.md R371): A received row of codewords is decoded, rebuilt from parity when one data lane is missing, or marked lost. -/
def execRowReceive (now c : Nat) (cws : List (Option (List Nat))) (wires : List WireErr) (s : State) : Res :=
  need (c < 1024) s <| predictable s (fun d _ => ((d.advance now).overdraws ((d.advance now).rowReceive c cws wires))) <|
    timed now s fun d _ => d.rowReceive c cws wires

/-- `LCS_SEND` (spec/04_switch_core.md R151): A port sends a link control symbol carrying its XOFF vector. -/
def execLcsSend (now c : Nat) (data : List Byte) (wires : List WireErr) (s : State) : Res :=
  need (c < 1024) s <| timed now s fun d _ => d.lcsSend c data wires

/-- `LCS_RECEIVE` (spec/11_optical_links.md R377): A received LCS is checked and its XOFF and FIRST are acted on. -/
def execLcsReceive (now c w row : Nat) (s : State) : Res :=
  need (c < 1024) s <| timed now s fun d _ => d.lcsReceive c (w % 2 ^ 40) (row % 2 ^ 24) d.lc

/-- `LCS_TIMEOUT_XOFF` (spec/11_optical_links.md R378): No good LCS for 1 µs makes the port act as though XOFF were set on every lossless VC. -/
def execLcsTimeoutXoff (now c : Nat) (s : State) : Res :=
  need (c < 1024) s <| timed now s fun d _ => d.lcsStarve c

/-- `LCS_TIMEOUT_DOWN` (spec/11_optical_links.md R378): No good LCS for 10 µs takes the link down. -/
def execLcsTimeoutDown (now c : Nat) (s : State) : Res :=
  need (c < 1024) s <| timed now s fun d _ => d.lcsDown c

/-- `TRAIN` (spec/11_optical_links.md R391): A received TRAIN message records the neighbour and checks SPLIT. -/
def execTrain (now c chip port : Nat) (split : Bool) (row first : Nat) (s : State) : Res :=
  need (c < 1024) s <| timed now s fun d _ => d.trainMsg c (chip % 2 ^ 18) (port % 1024) split (row % 2 ^ 24) (first % 2 ^ 24)

/-- `ECHO_REQ` (spec/11_optical_links.md R381): A received ECHO_REQ is answered with ECHO_RESP. -/
def execEchoReq (now c row : Nat) (s : State) : Res :=
  need (c < 1024) s <| timed now s fun d _ => d.echoReq c (row % 2 ^ 24)

/-- `ECHO_RESP` (spec/11_optical_links.md R393): A received ECHO_RESP sets LOOP_NS and LEN_M and may set LEN_WARN. -/
def execEchoResp (now c row turn : Nat) (s : State) : Res :=
  need (c < 1024) s <| timed now s fun d _ => d.echoResp c (row % 2 ^ 24) (turn % 65536)

/-- `FEATURE` (spec/11_optical_links.md R392): A received FEATURE message agrees the feature level. -/
def execFeature (now c lvl : Nat) (s : State) : Res :=
  need (c < 1024) s <| timed now s fun d _ => d.featureMsg c (lvl % 256)

/-- `MOVE` (spec/12_optical_health.md R421): A received MOVE command is acknowledged and applied at its effect row, or refused. -/
def execMove (now c lane wl row first : Nat) (s : State) : Res :=
  need (c < 1024) s <| timed now s fun d _ => d.laneMsg c 1 (lane % 16) (wl % 16) (row % 2 ^ 24) (first % 2 ^ 24)

/-- `MOVE_ACK` (spec/12_optical_health.md R423): A received MOVE_ACK stops the copy on the old wavelength. -/
def execMoveAck (now c lane wl row : Nat) (s : State) : Res :=
  need (c < 1024) s <| timed now s fun d _ => d.laneAck c 1 (lane % 16) (wl % 16) (row % 2 ^ 24)

/-- `RESTORE` (spec/12_optical_health.md R421): A received RESTORE command is acknowledged and applied at its effect row, or refused. -/
def execRestore (now c lane wl row first : Nat) (s : State) : Res :=
  need (c < 1024) s <| timed now s fun d _ => d.laneMsg c 3 (lane % 16) (wl % 16) (row % 2 ^ 24) (first % 2 ^ 24)

/-- `RESTORE_ACK` (spec/12_optical_health.md R424): A received RESTORE_ACK returns λ8 to parity. -/
def execRestoreAck (now c lane wl row : Nat) (s : State) : Res :=
  need (c < 1024) s <| timed now s fun d _ => d.laneAck c 3 (lane % 16) (wl % 16) (row % 2 ^ 24)

/-- `NARROW` (spec/12_optical_health.md R425): A received NARROW command is acknowledged and the stream narrows to seven lanes at its effect row. -/
def execNarrow (now c lane wl row first : Nat) (s : State) : Res :=
  need (c < 1024) s <| timed now s fun d _ => d.laneMsg c 5 (lane % 16) (wl % 16) (row % 2 ^ 24) (first % 2 ^ 24)

/-- `NARROW_ACK` (spec/12_optical_health.md R425): A received NARROW_ACK confirms the narrowing. -/
def execNarrowAck (now c lane wl row : Nat) (s : State) : Res :=
  need (c < 1024) s <| timed now s fun d _ => d.laneAck c 5 (lane % 16) (wl % 16) (row % 2 ^ 24)

/-- `REFUSE` (spec/12_optical_health.md R423): A received REFUSE undoes a move or restore, or takes the link down after a NARROW. -/
def execRefuse (now c lane wl row : Nat) (s : State) : Res :=
  need (c < 1024) s <| timed now s fun d _ => d.laneRefuse c (lane % 16) (wl % 16) (row % 2 ^ 24)

/-- `LANE_REQUEST` (spec/12_optical_health.md R422): A received lane request is answered with a command of the GS5's own or REFUSE. -/
def execLaneRequest (now c code lane wl row first : Nat) (s : State) : Res :=
  need (c < 1024 && (code = 1 || code = 3 || code = 5)) s <| timed now s fun d _ => d.laneRequest c code (lane % 8) (wl % 16) (row % 2 ^ 24) (first % 2 ^ 24)

/-- `DOWN` (spec/11_optical_links.md R388): A received DOWN message takes the link down with cause 0x3. -/
def execDown (now c : Nat) (s : State) : Res :=
  need (c < 1024) s <| timed now s fun d _ => d.downMsg c

/-- `LANE_EFFECT_ROW` (spec/12_optical_health.md R420): The effect row of a lane command is reached and the lane map changes. -/
def execLaneEffectRow (now c : Nat) (tx : Bool) (s : State) : Res :=
  need (c < 1024) s <| timed now s fun d _ => d.laneEffect c tx

/-- `LANE_ACK_TIMEOUT` (spec/12_optical_health.md R426): A lane command unanswered for ACK_WAIT_US takes the link down. -/
def execLaneAckTimeout (now c : Nat) (s : State) : Res :=
  need (c < 1024) s <| timed now s fun d _ => d.laneAckTimeout c

/-- `LANE_LOST` (spec/11_optical_links.md R386): A lane is lost by loss of light, mislock, alignment loss or 64 uncorrectable codewords, and the lane action follows. -/
def execLaneLost (now p j : Nat) (rx : Bool) (why : Nat) (s : State) : Res :=
  need (p < 512 && j < 9 && why < 4) s <| timed now s fun d _ => d.laneLostBy p j rx why

/-- `HOLDOFF_EXPIRE` (spec/11_optical_links.md R388): After a 1 ms holdoff the port trains again from LIGHT. -/
def execHoldoffExpire (now c : Nat) (s : State) : Res :=
  need (c < 1024) s <| timed now s fun d _ => d.holdoffExpire c

/-- `LINK_ENABLE` (spec/11_optical_links.md R389): A write of one to EN of YZ_CTRL starts training of the port. -/
def execLinkEnable (now p : Nat) (s : State) : Res :=
  need (p < 512) s <| need (s.dev.reaches (R.YZ_CTRL p)) s <| timed now s fun d _ => d.putRw (R.YZ_CTRL p) (2 ^ 31) (2 ^ 31)

/-- `LINK_DISABLE` (spec/11_optical_links.md R387): A write of zero to EN of YZ_CTRL takes the link down with cause 0x4. -/
def execLinkDisable (now p : Nat) (s : State) : Res :=
  need (p < 512) s <| need (s.dev.reaches (R.YZ_CTRL p)) s <| timed now s fun d _ => d.putRw (R.YZ_CTRL p) (2 ^ 31) 0

/-- `LIGHT_EXIT` (spec/12_optical_health.md R410): The port leaves LIGHT for ALIGN once rings with light have settled or 20 ms pass. -/
def execLightExit (now c : Nat) (s : State) : Res :=
  need (c < 1024) s <| timed now s fun d _ => d.lightExit c

/-- `TRAINING_CODEWORD` (spec/11_optical_links.md R390): A received training codeword gives alignment, the usable set and READY, and normal rows start. -/
def execTrainingCodeword (now c j : Nat) (cw : List Nat) (s : State) : Res :=
  need (c < 1024 && j < 9) s <| timed now s fun d _ => d.trainingCodeword c j cw

/-- `TRAINING_TIMEOUT` (spec/11_optical_links.md R389): A training phase bound or the 10 ms limit passes and training restarts at ALIGN. -/
def execTrainingTimeout (now c : Nat) (s : State) : Res :=
  need (c < 1024) s <| timed now s fun d _ => d.trainingTimeout c

/-- `INDIGO_ENABLE` (spec/11_optical_links.md R395): A write of EN one to a pair entry activates an Indigo circuit or is refused. -/
def execIndigoEnable (now n a b : Nat) (s : State) : Res :=
  need (n < 256 && a < 512 && b < 512) s <| need (s.dev.reaches (R.IND_PAIR n)) s <| timed now s fun d _ => d.putRw (R.IND_PAIR n) (rwMask (R.IND_PAIR n)) (2 ^ 31 + b * 512 + a)

/-- `INDIGO_DISABLE` (spec/11_optical_links.md R396): A write of EN zero stops the circuit and leaves both ports quiesced. -/
def execIndigoDisable (now n : Nat) (s : State) : Res :=
  need (n < 256) s <| need (s.dev.reaches (R.IND_PAIR n)) s <| timed now s fun d _ => d.putRw (R.IND_PAIR n) (2 ^ 31) 0

/-- `INDIGO_ACTIVE` (spec/11_optical_links.md R395): An activated circuit begins passing codewords and ACTIVE is set. -/
def execIndigoActive (now n : Nat) (s : State) : Res :=
  need (n < 256) s <| timed now s fun d _ => d.indigoActive n

/-- `INDIGO_CODEWORD_PASS` (spec/11_optical_links.md R397): A codeword received on one circuit port is retimed unchanged to the partner and monitored. -/
def execIndigoCodewordPass (now n : Nat) (ab : Bool) (j : Nat) (cw : List Nat) (wires outs : List WireErr) (s : State) : Res :=
  need (n < 256 && j < 9) s <| timed now s fun d _ => d.indigoPass n ab j cw wires outs

end Sys2Proof.Machine
end

