-- ==== Sys2Proof/Machine/OpticRows.lean ====
section
/-! DEFINITION. The commands of optical health: light, rings, margins, calibration visits, laser modules (spec/12_optical_health.md). -/
namespace Sys2Proof.Machine
open Dev

/-- `LIGHT_ARRIVAL` (spec/12_optical_health.md R410): Light arrives on a receive lane and its ring begins locking. -/
def execLightArrival (now p j : Nat) (s : State) : Res :=
  need (p < 512 && j < 9) s <| timed now s fun d _ => d.lightArrival p j

/-- `IDENTITY_READ` (spec/12_optical_health.md R405): A valid pilot identity read locks the ring or sends it into MISLOCK. -/
def execIdentityRead (now p j : Nat) (rx : Bool) (chips : List Bool) (s : State) : Res :=
  need (p < 512 && j < 9) s <| timed now s fun d _ => d.identityRead p j rx chips

/-- `IDENTITY_TIMEOUT` (spec/12_optical_health.md R407): No valid identity read for 192 µs with light present sends the ring into MISLOCK. -/
def execIdentityTimeout (now p j : Nat) (rx : Bool) (s : State) : Res :=
  need (p < 512 && j < 9) s <| timed now s fun d _ => d.identityTimeout p j rx

/-- `RELOCK_ATTEMPT_END` (spec/12_optical_health.md R407): A relock attempt ends, returning the ring to LOCKED, trying again, or entering OOS. -/
def execRelockAttemptEnd (now p j : Nat) (rx : Bool) (chips : List Bool) (s : State) : Res :=
  need (p < 512 && j < 9) s <| timed now s fun d _ => d.relockEnd p j rx chips

/-- `MARGIN_EVAL` (spec/12_optical_health.md R411): Every 512 beats the lane and line margins are evaluated and threshold actions taken. -/
def execMarginEval (now : Nat) (powers : List LanePower) (limits : List (Nat × Nat)) (s : State) : Res :=
  need (powers.all (fun x => x.p < 512 && x.j < 9) && limits.all (fun x => x.1 < 16)) s <| timed now s fun d _ => d.marginEval powers limits

/-- `CAL_VISIT_START` (spec/12_optical_health.md R430): A calibration visit of a lane begins or is skipped. -/
def execCalVisitStart (now p j : Nat) (s : State) : Res :=
  need (p < 512 && j < 9) s <| timed now s fun d _ => d.calStart p j

/-- `CAL_DWELL_END` (spec/12_optical_health.md R432): A calibration visit's dwell ends and the lanes are restored. -/
def execCalDwellEnd (now : Nat) (s : State) : Res :=
  timed now s fun d _ => d.calDwellEnd

/-- `SLOT_ENABLE` (spec/12_optical_health.md R435): A write of EN of OH_SLOT_CTRL asserts or deasserts LM_EN of the slot. -/
def execSlotEnable (now k : Nat) (en : Bool) (s : State) : Res :=
  need (k < 16) s <| need (s.dev.reaches (R.OH_SLOT_CTRL k)) s <| timed now s fun d _ => d.putRw (R.OH_SLOT_CTRL k) 1 (b2n en)

/-- `MODULE_INSERTED` (spec/12_optical_health.md R435): LM_PRESENT rising with EN one asserts LM_EN. -/
def execModuleInserted (now k : Nat) (s : State) : Res :=
  need (k < 16) s <| always now s fun d _ => d.modulePin s.dev.inReset k true

/-- `MODULE_REMOVED` (spec/12_optical_health.md R435): LM_PRESENT dropping deasserts LM_EN, records the removal and takes the slot's 32 ports down. -/
def execModuleRemoved (now k : Nat) (s : State) : Res :=
  need (k < 16) s <| always now s fun d _ => d.modulePin s.dev.inReset k false

/-- `LASER_READY` (spec/12_optical_health.md R436): Module taps stable for 10 ms set READY. -/
def execLaserReady (now k : Nat) (taps : List Int) (s : State) : Res :=
  need (k < 16) s <| timed now s fun d _ => d.laserReady k taps

end Sys2Proof.Machine
end

