-- ==== Sys2Proof/Machine/PortRows.lean ====
section
/-! DEFINITION. The commands of the management port and of UCP sessions (spec/14_control_protocol.md R465 to R494). -/
namespace Sys2Proof.Machine
open Dev

/-- `MGMT_PORT_LINK_CHANGE` (spec/14_control_protocol.md R465): The management port link comes up or goes down. -/
def execMgmtPortLinkChange (now : Nat) (up kr cr : Bool) (s : State) : Res :=
  timed now s fun d _ => d.mgmtLink up kr cr

/-- `MGMT_FRAME_RECEIVE` (spec/14_control_protocol.md R466): A management port frame is accepted by type and address or discarded. -/
def execMgmtFrameReceive (now : Nat) (fcs : Bool) (fr : List Byte) (s : State) : Res :=
  timed now s fun d u => d.mgmtFrame u fcs fr

/-- `NEIGHBOR_SOLICITATION` (spec/14_control_protocol.md R467): An ICMPv6 Neighbor Solicitation for MP_IPV6 is answered. -/
def execNeighborSolicitation (now : Nat) (mac pkt : List Byte) (s : State) : Res :=
  need (mac.length = 6) s <| timed now s fun d _ => if d.mgmt.mpUp then d.neighbor mac pkt else d

/-- `ECHO_REQUEST` (spec/14_control_protocol.md R467): An ICMPv6 Echo Request for MP_IPV6 is answered. -/
def execEchoRequest (now : Nat) (mac pkt : List Byte) (s : State) : Res :=
  need (mac.length = 6) s <| timed now s fun d _ => if d.mgmt.mpUp then d.echo6 mac pkt else d

/-- `HELLO` (spec/14_control_protocol.md R477): A HELLO is checked and answered with HELLO_REPLY reserving a slot, or with REJECT. -/
def execHello (now : Nat) (ep : Ep) (fr : List Byte) (s : State) : Res :=
  need (ep.kind < 3) s <| timed now s fun d u => if ucpType fr = 1 then d.ucpFrame u ep fr else d

/-- `FINISH` (spec/14_control_protocol.md R478): A FINISH signature is verified, opening the session, or rejected. -/
def execFinish (now : Nat) (ep : Ep) (fr : List Byte) (s : State) : Res :=
  need (ep.kind < 3) s <| timed now s fun d u => if ucpType fr = 3 then d.ucpFrame u ep fr else d

/-- `HELLO_TIMEOUT` (spec/14_control_protocol.md R478): A reserved slot with no FINISH within 1 s is freed. -/
def execHelloTimeout (now n : Nat) (s : State) : Res :=
  need (n < 8) s <| timed now s fun d _ => d.helloTimeout n

/-- `COMMAND` (spec/14_control_protocol.md R483): A COMMAND frame is authenticated and held, discarded, or answered from the reply cache. -/
def execCommand (now : Nat) (ep : Ep) (fr : List Byte) (s : State) : Res :=
  need (ep.kind < 3) s <| timed now s fun d u => if ucpType fr = 5 then d.ucpFrame u ep fr else d

/-- `EVENT_ACK` (spec/14_control_protocol.md R494): An EVENT_ACK acknowledges an event and every earlier one. -/
def execEventAck (now : Nat) (ep : Ep) (fr : List Byte) (s : State) : Res :=
  need (ep.kind < 3) s <| timed now s fun d u => if ucpType fr = 8 then d.ucpFrame u ep fr else d

/-- `EVENT_RESEND` (spec/14_control_protocol.md R494): An unacknowledged event frame is resent every 10 ms. -/
def execEventResend (now n : Nat) (s : State) : Res :=
  need (n < 8) s <| timed now s fun d _ => d.eventResend n

/-- `SESSION_IDLE_TIMEOUT` (spec/14_control_protocol.md R480): A session with no valid frame for IDLE_S seconds closes. -/
def execSessionIdleTimeout (now n : Nat) (s : State) : Res :=
  need (n < 8) s <| timed now s fun d _ => d.idleTimeout n

end Sys2Proof.Machine
end

