-- ==== Sys2Proof/Machine/PowerRows.lean ====
section
/-! DEFINITION. The commands of power and temperature (spec/16_power_umber.md) and the end of the power-on self-test. -/
namespace Sys2Proof.Machine
open Dev

/-- `UMBER_ENTRY_COMPLETE` (spec/16_power_umber.md R560): Umber entry finishes, stopping PLLs and setting STATE UMBER. -/
def execUmberEntryComplete (now : Nat) (s : State) : Res :=
  timed now s fun d _ => d.umberDone

/-- `WAKE_REQ_WRITE` (spec/16_power_umber.md R561): A write of REQ of PW_CTRL drives WAKE_REQ. -/
def execWakeReqWrite (now : Nat) (req : Bool) (s : State) : Res :=
  timed now s fun d _ => d.wakeReqWrite (b2n req)

/-- `GRANT_INSTANT` (spec/16_power_umber.md R562): WAKE_GRANT sampled high in Umber with WAKE_REQ asserted starts a wake. -/
def execGrantInstant (now : Nat) (s : State) : Res :=
  timed now s fun d _ => d.grant

/-- `RAMP_STEP` (spec/16_power_umber.md R563): A 400 µs wake ramp step ungates one segment of load. -/
def execRampStep (now : Nat) (pll : Option Nat) (s : State) : Res :=
  timed now s fun d _ => d.ramp pll

/-- `WAKE_COMPLETE` (spec/16_power_umber.md R564): 25 ms after the grant the wake completes and STATE becomes RUN. -/
def execWakeComplete (now : Nat) (bad : List Nat) (s : State) : Res :=
  need (bad.all (· < 64)) s <| timed now s fun d _ => d.wakeDone bad

/-- `BIST_DONE` (spec/17_boot_security.md R581): The power-on self-test ends and BIST_DONE is set. -/
def execBistDone (now : Nat) (rows vats slices wires : List (Nat × Nat)) (s : State) : Res :=
  need (vats.all (fun x => x.1 < 1600) && slices.all (fun x => x.1 < 17)) s <| timed now s fun d _ => d.bistDone rows vats slices wires

/-- `THERMAL_WARN` (spec/16_power_umber.md R566): A sensor at a warning or limit temperature writes a record and sends a POWER event. -/
def execThermalWarn (now sensor t : Nat) (s : State) : Res :=
  need (sensor < 96) s <| timed now s fun d _ => d.thermWarn sensor t

/-- `THERMAL_TRIP` (spec/16_power_umber.md R567): A sensor at the trip temperature closes every power gate and drives THERMTRIP_N low. -/
def execThermalTrip (now sensor t : Nat) (s : State) : Res :=
  need (sensor < 96) s <| always now s fun d _ => d.thermTrip sensor t

/-- `RAIL_WARN` (spec/16_power_umber.md R568): A rail below 94 % for 10 µs writes a record and sends a POWER event. -/
def execRailWarn (now rail mv : Nat) (s : State) : Res :=
  need (rail < 8) s <| timed now s fun d _ => d.railWarn rail mv

/-- `UNDERVOLTAGE_RESET` (spec/16_power_umber.md R568): A rail below 88 % for 1 µs holds the GS5 in full reset. -/
def execUndervoltageReset (now rail mv : Nat) (s : State) : Res :=
  need (rail < 8) s <| always now s fun d _ => d.undervoltage rail mv

/-- `POWER_OVER` (spec/16_power_umber.md R569): Package power above 1,600 W for 1 ms writes a POWER_OVER record. -/
def execPowerOver (now w : Nat) (s : State) : Res :=
  timed now s fun d _ => d.powerOver w

end Sys2Proof.Machine
end

