-- ==== Sys2Proof/Machine/SeqRows.lean ====
section
/-! DEFINITION. The instructions of a vat's sequencer (spec/09_vat_programming.md R323): each runs when the word at the running handler's pc is that instruction; `ecc` says that the word is read with an uncorrectable error. With them the commands of the instruction budget and of messages between vats. -/
namespace Sys2Proof.Machine
open Dev

/-- `NOP` (spec/09_vat_programming.md R323): The sequencer executes NOP. -/
def execSeqNop (lv : Nat) (ecc : Bool) (err : Option DescErr) (s : State) : Res :=
  need (lv < 1536) s <| act s fun d _ => (d.meeting err).issue lv 0x00 ecc (Dev.iNop)

/-- `DONE` (spec/09_vat_programming.md R323): DONE ends the running handler. -/
def execSeqDone (lv : Nat) (ecc : Bool) (err : Option DescErr) (s : State) : Res :=
  need (lv < 1536) s <| act s fun d _ => (d.meeting err).issue lv 0x01 ecc (Dev.iDone)

/-- `SETF` (spec/09_vat_programming.md R323): SETF sets SAT or AMX for the chunk. -/
def execSeqSetf (lv : Nat) (ecc : Bool) (err : Option DescErr) (s : State) : Res :=
  need (lv < 1536) s <| act s fun d _ => (d.meeting err).issue lv 0x02 ecc (Dev.iSetf)

/-- `LI` (spec/09_vat_programming.md R323): LI loads the immediate into rd. -/
def execSeqLi (lv : Nat) (ecc : Bool) (err : Option DescErr) (s : State) : Res :=
  need (lv < 1536) s <| act s fun d _ => (d.meeting err).issue lv 0x08 ecc (Dev.iLi)

/-- `LUI` (spec/09_vat_programming.md R323): LUI loads the immediate into rd bits [63:32]. -/
def execSeqLui (lv : Nat) (ecc : Bool) (err : Option DescErr) (s : State) : Res :=
  need (lv < 1536) s <| act s fun d _ => (d.meeting err).issue lv 0x09 ecc (Dev.iLui)

/-- `ADD` (spec/09_vat_programming.md R323): ADD sets rd to ra plus rb. -/
def execSeqAdd (lv : Nat) (ecc : Bool) (err : Option DescErr) (s : State) : Res :=
  need (lv < 1536) s <| act s fun d _ => (d.meeting err).issue lv 0x10 ecc (Dev.iAlu 0)

/-- `SUB` (spec/09_vat_programming.md R323): SUB sets rd to ra minus rb. -/
def execSeqSub (lv : Nat) (ecc : Bool) (err : Option DescErr) (s : State) : Res :=
  need (lv < 1536) s <| act s fun d _ => (d.meeting err).issue lv 0x11 ecc (Dev.iAlu 1)

/-- `AND` (spec/09_vat_programming.md R323): AND sets rd to ra AND rb. -/
def execSeqAnd (lv : Nat) (ecc : Bool) (err : Option DescErr) (s : State) : Res :=
  need (lv < 1536) s <| act s fun d _ => (d.meeting err).issue lv 0x12 ecc (Dev.iAlu 2)

/-- `OR` (spec/09_vat_programming.md R323): OR sets rd to ra OR rb. -/
def execSeqOr (lv : Nat) (ecc : Bool) (err : Option DescErr) (s : State) : Res :=
  need (lv < 1536) s <| act s fun d _ => (d.meeting err).issue lv 0x13 ecc (Dev.iAlu 3)

/-- `XOR` (spec/09_vat_programming.md R323): XOR sets rd to ra XOR rb. -/
def execSeqXor (lv : Nat) (ecc : Bool) (err : Option DescErr) (s : State) : Res :=
  need (lv < 1536) s <| act s fun d _ => (d.meeting err).issue lv 0x14 ecc (Dev.iAlu 4)

/-- `SHL` (spec/09_vat_programming.md R323): SHL shifts ra left by rb [5:0]. -/
def execSeqShl (lv : Nat) (ecc : Bool) (err : Option DescErr) (s : State) : Res :=
  need (lv < 1536) s <| act s fun d _ => (d.meeting err).issue lv 0x15 ecc (Dev.iAlu 5)

/-- `SHR` (spec/09_vat_programming.md R323): SHR shifts ra right logically by rb [5:0]. -/
def execSeqShr (lv : Nat) (ecc : Bool) (err : Option DescErr) (s : State) : Res :=
  need (lv < 1536) s <| act s fun d _ => (d.meeting err).issue lv 0x16 ecc (Dev.iAlu 6)

/-- `SAR` (spec/09_vat_programming.md R323): SAR shifts ra right arithmetically by rb [5:0]. -/
def execSeqSar (lv : Nat) (ecc : Bool) (err : Option DescErr) (s : State) : Res :=
  need (lv < 1536) s <| act s fun d _ => (d.meeting err).issue lv 0x17 ecc (Dev.iAlu 7)

/-- `MUL` (spec/09_vat_programming.md R323): MUL keeps the low 64 bits of ra times rb. -/
def execSeqMul (lv : Nat) (ecc : Bool) (err : Option DescErr) (s : State) : Res :=
  need (lv < 1536) s <| act s fun d _ => (d.meeting err).issue lv 0x18 ecc (Dev.iAlu 8)

/-- `MAX` (spec/09_vat_programming.md R323): MAX sets rd to the signed maximum of ra and rb. -/
def execSeqMax (lv : Nat) (ecc : Bool) (err : Option DescErr) (s : State) : Res :=
  need (lv < 1536) s <| act s fun d _ => (d.meeting err).issue lv 0x19 ecc (Dev.iAlu 9)

/-- `MIN` (spec/09_vat_programming.md R323): MIN sets rd to the signed minimum of ra and rb. -/
def execSeqMin (lv : Nat) (ecc : Bool) (err : Option DescErr) (s : State) : Res :=
  need (lv < 1536) s <| act s fun d _ => (d.meeting err).issue lv 0x1A ecc (Dev.iAlu 10)

/-- `ADDI` (spec/09_vat_programming.md R323): ADDI sets rd to ra plus the immediate. -/
def execSeqAddi (lv : Nat) (ecc : Bool) (err : Option DescErr) (s : State) : Res :=
  need (lv < 1536) s <| act s fun d _ => (d.meeting err).issue lv 0x20 ecc (Dev.iAluI 0)

/-- `SUBI` (spec/09_vat_programming.md R323): SUBI sets rd to ra minus the immediate. -/
def execSeqSubi (lv : Nat) (ecc : Bool) (err : Option DescErr) (s : State) : Res :=
  need (lv < 1536) s <| act s fun d _ => (d.meeting err).issue lv 0x21 ecc (Dev.iAluI 1)

/-- `ANDI` (spec/09_vat_programming.md R323): ANDI sets rd to ra AND the immediate. -/
def execSeqAndi (lv : Nat) (ecc : Bool) (err : Option DescErr) (s : State) : Res :=
  need (lv < 1536) s <| act s fun d _ => (d.meeting err).issue lv 0x22 ecc (Dev.iAluI 2)

/-- `ORI` (spec/09_vat_programming.md R323): ORI sets rd to ra OR the immediate. -/
def execSeqOri (lv : Nat) (ecc : Bool) (err : Option DescErr) (s : State) : Res :=
  need (lv < 1536) s <| act s fun d _ => (d.meeting err).issue lv 0x23 ecc (Dev.iAluI 3)

/-- `XORI` (spec/09_vat_programming.md R323): XORI sets rd to ra XOR the immediate. -/
def execSeqXori (lv : Nat) (ecc : Bool) (err : Option DescErr) (s : State) : Res :=
  need (lv < 1536) s <| act s fun d _ => (d.meeting err).issue lv 0x24 ecc (Dev.iAluI 4)

/-- `SHLI` (spec/09_vat_programming.md R323): SHLI shifts ra left by the immediate. -/
def execSeqShli (lv : Nat) (ecc : Bool) (err : Option DescErr) (s : State) : Res :=
  need (lv < 1536) s <| act s fun d _ => (d.meeting err).issue lv 0x25 ecc (Dev.iAluI 5)

/-- `SHRI` (spec/09_vat_programming.md R323): SHRI shifts ra right logically by the immediate. -/
def execSeqShri (lv : Nat) (ecc : Bool) (err : Option DescErr) (s : State) : Res :=
  need (lv < 1536) s <| act s fun d _ => (d.meeting err).issue lv 0x26 ecc (Dev.iAluI 6)

/-- `SARI` (spec/09_vat_programming.md R323): SARI shifts ra right arithmetically by the immediate. -/
def execSeqSari (lv : Nat) (ecc : Bool) (err : Option DescErr) (s : State) : Res :=
  need (lv < 1536) s <| act s fun d _ => (d.meeting err).issue lv 0x27 ecc (Dev.iAluI 7)

/-- `MULI` (spec/09_vat_programming.md R323): MULI multiplies ra by the immediate. -/
def execSeqMuli (lv : Nat) (ecc : Bool) (err : Option DescErr) (s : State) : Res :=
  need (lv < 1536) s <| act s fun d _ => (d.meeting err).issue lv 0x28 ecc (Dev.iAluI 8)

/-- `MAXI` (spec/09_vat_programming.md R323): MAXI takes the signed maximum of ra and the immediate. -/
def execSeqMaxi (lv : Nat) (ecc : Bool) (err : Option DescErr) (s : State) : Res :=
  need (lv < 1536) s <| act s fun d _ => (d.meeting err).issue lv 0x29 ecc (Dev.iAluI 9)

/-- `MINI` (spec/09_vat_programming.md R323): MINI takes the signed minimum of ra and the immediate. -/
def execSeqMini (lv : Nat) (ecc : Bool) (err : Option DescErr) (s : State) : Res :=
  need (lv < 1536) s <| act s fun d _ => (d.meeting err).issue lv 0x2A ecc (Dev.iAluI 10)

/-- `GETS` (spec/09_vat_programming.md R318): GETS reads a special register into rd. -/
def execSeqGets (lv : Nat) (ecc : Bool) (err : Option DescErr) (s : State) : Res :=
  need (lv < 1536) s <| act s fun d _ => (d.meeting err).issue lv 0x30 ecc (Dev.iGets)

/-- `LDW` (spec/09_vat_programming.md R323): LDW loads a context word into rd. -/
def execSeqLdw (lv : Nat) (ecc : Bool) (err : Option DescErr) (s : State) : Res :=
  need (lv < 1536) s <| act s fun d _ => (d.meeting err).issue lv 0x31 ecc (Dev.iLdw)

/-- `STW` (spec/09_vat_programming.md R323): STW stores rd into a context word. -/
def execSeqStw (lv : Nat) (ecc : Bool) (err : Option DescErr) (s : State) : Res :=
  need (lv < 1536) s <| act s fun d _ => (d.meeting err).issue lv 0x32 ecc (Dev.iStw)

/-- `BRA` (spec/09_vat_programming.md R323): BRA jumps to the immediate address. -/
def execSeqBra (lv : Nat) (ecc : Bool) (err : Option DescErr) (s : State) : Res :=
  need (lv < 1536) s <| act s fun d _ => (d.meeting err).issue lv 0x38 ecc (Dev.iBra)

/-- `BEQ` (spec/09_vat_programming.md R323): BEQ jumps if ra equals rb. -/
def execSeqBeq (lv : Nat) (ecc : Bool) (err : Option DescErr) (s : State) : Res :=
  need (lv < 1536) s <| act s fun d _ => (d.meeting err).issue lv 0x39 ecc (Dev.iBeq)

/-- `BNE` (spec/09_vat_programming.md R323): BNE jumps if ra differs from rb. -/
def execSeqBne (lv : Nat) (ecc : Bool) (err : Option DescErr) (s : State) : Res :=
  need (lv < 1536) s <| act s fun d _ => (d.meeting err).issue lv 0x3A ecc (Dev.iBne)

/-- `BLT` (spec/09_vat_programming.md R323): BLT jumps if ra is signed less than rb. -/
def execSeqBlt (lv : Nat) (ecc : Bool) (err : Option DescErr) (s : State) : Res :=
  need (lv < 1536) s <| act s fun d _ => (d.meeting err).issue lv 0x3B ecc (Dev.iBlt)

/-- `BGE` (spec/09_vat_programming.md R323): BGE jumps if ra is signed at least rb. -/
def execSeqBge (lv : Nat) (ecc : Bool) (err : Option DescErr) (s : State) : Res :=
  need (lv < 1536) s <| act s fun d _ => (d.meeting err).issue lv 0x3C ecc (Dev.iBge)

/-- `AOP` (spec/09_vat_programming.md R324): AOP issues an array operation combining payload elements into context words. -/
def execSeqAop (lv : Nat) (ecc : Bool) (err : Option DescErr) (s : State) : Res :=
  need (lv < 1536) s <| act s fun d _ => (d.meeting err).issue lv 0x40 ecc (Dev.iAop)

/-- `WAIT` (spec/09_vat_programming.md R323): WAIT stalls until every AOP issued by the handler has completed. -/
def execSeqWait (lv : Nat) (ecc : Bool) (err : Option DescErr) (s : State) : Res :=
  need (lv < 1536) s <| act s fun d _ => (d.meeting err).issue lv 0x41 ecc (Dev.iWait)

/-- `OUT` (spec/09_vat_programming.md R327): OUT appends result elements formed from context words. -/
def execSeqOut (lv : Nat) (ecc : Bool) (err : Option DescErr) (s : State) : Res :=
  need (lv < 1536) s <| act s fun d _ => (d.meeting err).issue lv 0x48 ecc (Dev.iOut)

/-- `SEND` (spec/09_vat_programming.md R331): SEND sends an 8-word message to a logical vat. -/
def execSeqSend (lv : Nat) (ecc : Bool) (err : Option DescErr) (s : State) : Res :=
  need (lv < 1536) s <| act s fun d _ => (d.meeting err).issue lv 0x50 ecc (Dev.iSend)

/-- `RECV` (spec/09_vat_programming.md R332): RECV takes the oldest queued message of the handler's stream. -/
def execSeqRecv (lv : Nat) (ecc : Bool) (err : Option DescErr) (s : State) : Res :=
  need (lv < 1536) s <| act s fun d _ => (d.meeting err).issue lv 0x51 ecc (Dev.iRecv)

/-- `RECIPE_BUDGET_EXPIRE` (spec/09_vat_programming.md R335): A handler not reaching DONE within BUDGET cycles faults with cause BUDGET. -/
def execRecipeBudgetExpire (now lv : Nat) (err : Option DescErr) (s : State) : Res :=
  need (lv < 1536) s <| timed now s fun d _ => (d.meeting err).budgetExpire lv

/-- `MESSAGE_DELIVER` (spec/09_vat_programming.md R333): A sent message arrives and is queued at the receiving vat. -/
def execMessageDeliver (now src dst : Nat) (s : State) : Res :=
  need (src < 1536 && dst < 1536) s <| timed now s fun d _ => d.msgDeliver src dst

/-- `MESSAGE_EXPIRE` (spec/09_vat_programming.md R334): A queued message held for MSG_LIFE_US is discarded. -/
def execMessageExpire (now lv : Nat) (s : State) : Res :=
  need (lv < 1536) s <| timed now s fun d _ => d.msgExpire lv

end Sys2Proof.Machine
end

