-- ==== Sys2Proof/Machine/SwitchRows.lean ====
section
/-! DEFINITION. The commands of the packet path: ingress, forwarding tables, the crossbar, egress, gate lists (spec/02_fabric_protocol.md to spec/06_scheduling_shaping.md). -/
namespace Sys2Proof.Machine
open Dev

/-- `PACKET_HEADER_ARRIVAL` (spec/02_fabric_protocol.md R86): An arriving packet header passes the receive checks in order and is admitted, routed or delivered, or discarded. -/
def execPacketHeaderArrival (now c : Nat) (raw : List Byte) (lost : Bool) (sram : Option SramErr) (s : State) : Res :=
  need (c < 1024) s <| predictable s (fun d _ => (!lost && hdrCrcOk raw && (d.advance now).overdraws ((d.advance now).headerArrival c raw lost))) <|
    timed now s fun d _ => match sram with | some e => (d.headerArrival c raw lost).sramError e | none => d.headerArrival c raw lost

/-- `PAYLOAD_END` (spec/02_fabric_protocol.md R83): When a packet's payload check arrives it is verified, and a forwarded packet with a bad check is stomped. -/
def execPayloadEnd (now c : Nat) (pay check : List Byte) (lost : Bool) (s : State) : Res :=
  need (c < 1024) s <| timed now s fun d _ => d.payloadEnd c pay check lost

/-- `EM_OVERFLOW_LOOKUP_DONE` (spec/03_forwarding.md R118): A pending LPDDR6 overflow lookup completes and releases the waiting VC6 packet to its route. -/
def execEmOverflowLookupDone (now id : Nat) (errs : List (Nat × List Nat)) (s : State) : Res :=
  timed now s fun d _ => match d.pkt? id with | some k => if k.place = Place.emWait then (d.seeing errs).overflowDone k else d | none => d

/-- `EM_LEARN_APPLY` (spec/03_forwarding.md R121): A queued learn is applied in all 16 copies as insert, refresh, move or no change. -/
def execEmLearnApply (now pl : Nat) (errs : List (Nat × List Nat)) (s : State) : Res :=
  need (pl < 16) s <| timed now s fun d _ => (d.seeing errs).learnNext pl

/-- `EM_AGE_OUT` (spec/03_forwarding.md R122): A dynamic exact-match entry whose STAMP is older than AGE is removed. -/
def execEmAgeOut (now part : Nat) (mac : List Byte) (errs : List (Nat × List Nat)) (s : State) : Res :=
  need (part < 4096 && mac.length = 6) s <| predictable s (fun d _ => ((d.advance now).ageDiffers)) <|
    timed now s fun d _ => (d.seeing errs).emAgeOut part mac

/-- `FENCE_RELEASE` (spec/04_switch_core.md R159): A fenced packet is released when its previous-epoch count reaches zero or the bank retires, and is rechecked and routed. -/
def execFenceRelease (now id : Nat) (s : State) : Res :=
  predictable s (fun d _ => ((d.advance now).overdraws ((d.advance now).fenceGo id))) <|
    timed now s fun d _ => d.fenceGo id

/-- `FENCE_STALL_RELEASE` (spec/04_switch_core.md R160): A freed fence list entry lets a stalled input port and VC resume admission. -/
def execFenceStallRelease (now id : Nat) (s : State) : Res :=
  predictable s (fun d _ => ((d.advance now).overdraws ((d.advance now).stallGo id))) <|
    timed now s fun d _ => d.stallGo id

/-- `CROSSBAR_SLOT` (spec/04_switch_core.md R144): In each cell slot the central scheduler matches inputs to outputs and each matched input sends a train of cells. -/
def execCrossbarSlot (now : Nat) (full : List Nat) (errs : List PartErr) (s : State) : Res :=
  need (full.all (· < 16) && errs.all (fun e => e.slice < 17 && e.unit < 32 && e.cell < 12)) s <| timed now s fun d _ => d.slot full errs

/-- `SLICE_HARD_FAULT` (spec/15_faults_sparing.md R503): Uncorrectable parts on one slice in 16 consecutive slots mark a hard fault and start a slice swap. -/
def execSliceHardFault (now x : Nat) (s : State) : Res :=
  need (x < 17) s <| timed now s fun d _ => d.sliceHard x

/-- `AGE_LIMIT` (spec/04_switch_core.md R162): A packet reaching its VC age limit is taken from its queue and discarded or converted. -/
def execAgeLimit (now id : Nat) (out : Option Nat) (s : State) : Res :=
  timed now s fun d _ => match d.pkt? id with | some k => d.ageLimitAt k out | none => d

/-- `EGRESS_CHOOSE` (spec/06_scheduling_shaping.md R194): A free port chooses the next packet among its eligible queues and begins its transmission. -/
def execEgressChoose (now c : Nat) (s : State) : Res :=
  need (c < 1024) s <| timed now s fun d _ => d.choose c

/-- `LAUNCH_TIME_REACHED` (spec/06_scheduling_shaping.md R212): Fabric time reaching a head packet's launch time makes its queue eligible. -/
def execLaunchTimeReached (now c v : Nat) (s : State) : Res :=
  need (c < 1024 && v < 8) s <| timed now s fun d _ => d

/-- `TRANSMIT_COMPLETE` (spec/05_lake.md R169): A packet's last copy completes transmission and its cells return to Lake. -/
def execTransmitComplete (now c : Nat) (ptr : Option Nat) (s : State) : Res :=
  need (c < 1024) s <| timed now s fun d _ => d.txComplete c ptr

/-- `ORIGINATED_ADMIT` (spec/05_lake.md R662): A waiting MGMT or TIME_ANNOUNCE packet is granted cells and queued. -/
def execOriginatedAdmit (now : Nat) (tu : Bool) (s : State) : Res :=
  timed now s fun d _ => d.originatedAdmit tu

/-- `GCL_GO` (spec/06_scheduling_shaping.md R207): GO arms the administrative gate list for BASE or is refused with GO_REFUSED. -/
def execGclGo (now c len cyc : Nat) (s : State) : Res :=
  need (c < 1024) s <| need (s.dev.reaches (R.GCL_CTRL (Dev.plOf c) (c % 64))) s <| predictable s (fun d _ => ((d.advance now).gclBad c (len % 128) (cyc % 8192))) <|
    timed now s fun d _ => d.gclWrite c (len % 128) (cyc % 8192) false true

/-- `GCL_CANCEL` (spec/06_scheduling_shaping.md R209): CANCEL withdraws a pending gate list if in time, otherwise CANCEL_LATE is set. -/
def execGclCancel (now c len cyc : Nat) (s : State) : Res :=
  need (c < 1024) s <| need (s.dev.reaches (R.GCL_CTRL (Dev.plOf c) (c % 64))) s <| timed now s fun d _ => d.gclWrite c (len % 128) (cyc % 8192) true false

/-- `GCL_HANDOVER` (spec/06_scheduling_shaping.md R208): At beat BASE the pending administrative list becomes operational. -/
def execGclHandover (now : Nat) (s : State) : Res :=
  timed now s fun d _ => d.gclHandOver

/-- `GATE_INTERVAL_EXPIRY` (spec/06_scheduling_shaping.md R204): A gate entry's interval ends, moving to the next entry or restarting the cycle. -/
def execGateIntervalExpiry (now c : Nat) (s : State) : Res :=
  need (c < 1024) s <| timed now s fun d _ => d

end Sys2Proof.Machine
end

