-- ==== Sys2Proof/Machine/TelemetryRows.lean ====
section
/-! DEFINITION. The commands of telemetry and LPDDR6, with the ends of an image commit, of a wake and of the IEEE 1588 receipt timeout (spec/18_telemetry.md, spec/19_lpddr6.md). -/
namespace Sys2Proof.Machine
open Dev

/-- `PM_CLEAR` (spec/18_telemetry.md R605): CLEAR of PM_CTRL zeroes a performance monitor set at the next boundary. -/
def execPmClear (now : Nat) (pu : PmUnit) (s : State) : Res :=
  need (pmUnits.contains pu) s <| need (s.dev.reaches (pu.base)) s <| timed now s fun d u => d.csrWrite u pu.base 1 1

/-- `TELEMETRY_REPORT` (spec/18_telemetry.md R608): At each period boundary selected reports are built and sent as TELEMETRY events. -/
def execTelemetryReport (now : Nat) (s : State) : Res :=
  timed now s fun d _ => d.reports

/-- `RING_DUMP` (spec/18_telemetry.md R612): Every DUMP_BEATS beats a counters record is written to history ring 1. -/
def execRingDump (now : Nat) (s : State) : Res :=
  timed now s fun d _ => d.ringDump

/-- `FLIGHT_FREEZE` (spec/18_telemetry.md R616): After POST records following a trigger the flight recorder sets FROZEN. -/
def execFlightFreeze (now : Nat) (s : State) : Res :=
  timed now s fun d _ => d.flightFreeze

/-- `PATROL_SCRUB` (spec/19_lpddr6.md R626): The patrol scrub reads a burst and rewrites it when it corrects an error. -/
def execPatrolScrub (now c addr : Nat) (burst : List Nat) (newer : Bool) (s : State) : Res :=
  need (c < 64 && burst.length = 36 && burst.all (· < 256)) s <| timed now s fun d _ => d.scrub c (addr % 2 ^ 32) burst newer

/-- `ZQ_CALIBRATION` (spec/19_lpddr6.md R620): Every 128 ms the LPDDR6 channels run ZQ calibration. -/
def execZqCalibration (now : Nat) (s : State) : Res :=
  timed now s fun d _ => d

/-- `IMG_COMMIT_COMPLETE` (spec/09_vat_programming.md R342): A recipe load or firmware image write begun by IMG_COMMIT finishes, replies and releases the image staging area. -/
def execImgCommitComplete (now : Nat) (ok : Bool) (s : State) : Res :=
  timed now s fun d _ => d.commitDone ok

/-- `RAIL_LEAVES_TOLERANCE` (spec/16_power_umber.md R565): A supply rail leaves its tolerance during a wake, and the GS5 gates off again and sets WAKE_FAIL. -/
def execRailLeavesTolerance (now rail : Nat) (s : State) : Res :=
  need (rail < 8) s <| timed now s fun d _ => d.wakeFail rail

/-- `ANNOUNCE_RECEIPT_TIMEOUT` (spec/13_time.md R459): The IEEE 1588 announce receipt timeout expires and the best master clock algorithm changes the port state. -/
def execAnnounceReceiptTimeout (now : Nat) (s : State) : Res :=
  timed now s fun d _ => d.ptpAnnTimeout

end Sys2Proof.Machine
end

