-- ==== Sys2Proof/Machine/TimeRows.lean ====
section
/-! DEFINITION. The commands of the time unit: sources, exchanges, announcements, IEEE 1588, pulses (spec/13_time.md). -/
namespace Sys2Proof.Machine
open Dev

/-- `TIME` (spec/13_time.md R448): A received TIME message forms an offset and delay measurement that may drive the servo. -/
def execTime (now c ttx trx : Nat) (rxv : Bool) (seqTx seqRx arr : Nat) (s : State) : Res :=
  need (c < 1024) s <| timed now s fun d _ => d.timeMsg c (ttx % 2 ^ 22) (trx % 2 ^ 22) rxv (seqTx % 16) (seqRx % 16) arr

/-- `SOURCE_LOST` (spec/13_time.md R444): A time source is lost and the servo enters HOLDOVER. -/
def execSourceLost (now : Nat) (s : State) : Res :=
  timed now s fun d _ => d.sourceLost

/-- `PARENT_SWITCH` (spec/13_time.md R446): The active parent changes between primary and secondary. -/
def execParentSwitch (now : Nat) (s : State) : Res :=
  timed now s fun d _ => d.parentSwitch

/-- `TIME_ANNOUNCE_SEND` (spec/13_time.md R452): Once per 64 beats a TIME_ANNOUNCE is sent on every UP logical port. -/
def execTimeAnnounceSend (now : Nat) (s : State) : Res :=
  timed now s fun d _ => d.announce

/-- `TIME_ANNOUNCE_RECEIVE` (spec/13_time.md R452): The time unit takes a received TIME_ANNOUNCE from a parent port or counts it. -/
def execTimeAnnounceReceive (now c : Nat) (pay : List Byte) (s : State) : Res :=
  need (c < 1024) s <| timed now s fun d _ => d.annReceive c pay d.fabT

/-- `SET_NOW` (spec/13_time.md R456): SET_NOW steps fabric time to the value in TU_SET and sets TIME_SET, or is refused. -/
def execSetNow (now : Nat) (s : State) : Res :=
  timed now s fun d _ => d.setNow

/-- `SET_AT_PPS` (spec/13_time.md R456): SET_AT_PPS arms a step to whole seconds at the next PPS edge, or is refused. -/
def execSetAtPps (now : Nat) (s : State) : Res :=
  timed now s fun d _ => d.setAtPps

/-- `PPS_EDGE` (spec/13_time.md R456): A PPS_IN rising edge is timestamped, measured, and completes a pending SET_AT_PPS. -/
def execPpsEdge (now : Nat) (s : State) : Res :=
  timed now s fun d _ => d.ppsEdge

/-- `SYNC` (spec/13_time.md R458): A received IEEE 1588 Sync message is timestamped and processed. -/
def execSync (now dom : Nat) (src : List Byte) (seq : Nat) (twoStep : Bool) (t1 : Nat) (corr : Int) (s : State) : Res :=
  timed now s fun d _ => d.ptpSync dom src seq twoStep t1 corr

/-- `FOLLOW_UP` (spec/13_time.md R458): A received Follow_Up completes a two-step Sync. -/
def execFollowUp (now dom : Nat) (src : List Byte) (seq t1 : Nat) (corr : Int) (s : State) : Res :=
  timed now s fun d _ => d.ptpFollow dom src seq t1 corr

/-- `DELAY_REQ` (spec/13_time.md R457): A received Delay_Req is answered when the GS5 is master. -/
def execDelayReq (now dom : Nat) (src : List Byte) (seq : Nat) (corr : Int) (s : State) : Res :=
  timed now s fun d _ => d.ptpReq dom src seq corr

/-- `DELAY_RESP` (spec/13_time.md R457): A received Delay_Resp completes a delay measurement. -/
def execDelayResp (now dom : Nat) (src req : List Byte) (seq t4 : Nat) (corr : Int) (s : State) : Res :=
  timed now s fun d _ => d.ptpResp dom src req seq t4 corr

/-- `ANNOUNCE` (spec/13_time.md R459): A received Announce feeds the best master clock algorithm. -/
def execAnnounce (now dom : Nat) (data : PtpData) (s : State) : Res :=
  timed now s fun d _ => d.ptpAnnounce dom data

/-- `PTP_MESSAGE_SEND` (spec/13_time.md R458): At its interval the GS5 sends Sync, Delay_Req or Announce. -/
def execPtpMessageSend (now : Nat) (s : State) : Res :=
  timed now s fun d _ => d.ptpSends

/-- `TPO_GO` (spec/13_time.md R461): GO arms a time pulse output or is refused with GO_REFUSED. -/
def execTpoGo (now n mode pol : Nat) (s : State) : Res :=
  need (n < 4) s <| timed now s fun d _ => d.tpoWrite n (mode % 2) (pol % 2) false true

/-- `TPO_CTRL_CANCEL` (spec/13_time.md R461): CANCEL ends the output after any pulse in progress and clears ARMED. -/
def execTpoCtrlCancel (now n mode pol : Nat) (s : State) : Res :=
  need (n < 4) s <| timed now s fun d _ => d.tpoWrite n (mode % 2) (pol % 2) true false

/-- `TPO_PULSE` (spec/13_time.md R460): Fabric time reaching a scheduled pulse time starts a pulse on the output. -/
def execTpoPulse (now n : Nat) (s : State) : Res :=
  need (n < 4) s <| timed now s fun d _ => d.tpoPulse n

/-- `TPO_PULSE_END` (spec/13_time.md R460): A pulse's width expires and the output returns to its idle level. -/
def execTpoPulseEnd (now n : Nat) (s : State) : Res :=
  need (n < 4) s <| timed now s fun d _ => d.tpoEnd n

end Sys2Proof.Machine
end

