-- ==== Sys2Proof/Machine/UcpRows.lean ====
section
/-! DEFINITION. The operations of the UCP (spec/14_control_protocol.md R491, R492): each begins when session `n` may begin the command of SEQ `seq` with body `body`. -/
namespace Sys2Proof.Machine
open Dev

/-- `DEVICE_INFO` (spec/14_control_protocol.md R491): DEVICE_INFO returns revision, identity, firmware and UCP versions, MAC and serial. -/
def execDeviceInfo (n seq : Nat) (body : List Byte) (s : State) : Res :=
  need (n < 8) s <| act s fun d u => d.opDeviceInfo u n seq body

/-- `SESSION_CLOSE` (spec/14_control_protocol.md R480): SESSION_CLOSE closes the session after its reply. -/
def execSessionClose (n seq : Nat) (body : List Byte) (s : State) : Res :=
  need (n < 8) s <| act s fun d u => d.opClose u n seq body

/-- `SESSION_FLUSH` (spec/14_control_protocol.md R487): SESSION_FLUSH aborts every unbegun lower-SEQ command of the session. -/
def execSessionFlush (n seq : Nat) (body : List Byte) (s : State) : Res :=
  need (n < 8) s <| act s fun d u => d.opFlush u n seq body

/-- `SESSION_HISTORY` (spec/14_control_protocol.md R481): SESSION_HISTORY returns the last SEQ executed and close cause of each slot. -/
def execSessionHistory (n seq : Nat) (body : List Byte) (s : State) : Res :=
  need (n < 8) s <| act s fun d u => d.opHistory u n seq body

/-- `EVENT_SUBSCRIBE` (spec/14_control_protocol.md R493): EVENT_SUBSCRIBE sets the session's event class mask. -/
def execEventSubscribe (n seq : Nat) (body : List Byte) (s : State) : Res :=
  need (n < 8) s <| act s fun d u => d.opSubscribe u n seq body

/-- `NOP_COMMAND` (spec/14_control_protocol.md R491): The UCP NOP returns the fabric time of execution. -/
def execNopCommand (n seq : Nat) (body : List Byte) (s : State) : Res :=
  need (n < 8) s <| act s fun d u => d.opNop u n seq body

/-- `CSR_READ` (spec/14_control_protocol.md R498): CSR_READ reads consecutive CSR words. -/
def execCsrRead (n seq : Nat) (body : List Byte) (errs : List (Nat × List Nat)) (s : State) : Res :=
  need (n < 8) s <| act s fun d u => (d.seeing errs).opCsrRead u n seq body

/-- `CSR_WRITE` (spec/14_control_protocol.md R492): CSR_WRITE writes consecutive CSR words in ascending order. -/
def execCsrWrite (n seq : Nat) (body : List Byte) (s : State) : Res :=
  need (n < 8) s <| predictable s (fun d u => d.cmdUnpredictable u n seq 0x0102 body) <|
    act s fun d u => d.opCsrWrite u n seq body

/-- `CSR_RMW` (spec/14_control_protocol.md R492): CSR_RMW writes a CSR word under a mask and returns its prior value. -/
def execCsrRmw (n seq : Nat) (body : List Byte) (errs : List (Nat × List Nat)) (s : State) : Res :=
  need (n < 8) s <| predictable s (fun d u => d.cmdUnpredictable u n seq 0x0103 body) <|
    act s fun d u => (d.seeing errs).opCsrRmw u n seq body

/-- `CSR_POLL` (spec/14_control_protocol.md R492): CSR_POLL reads a word until it matches under the mask. -/
def execCsrPoll (n seq : Nat) (body : List Byte) (errs : List (Nat × List Nat)) (s : State) : Res :=
  need (n < 8) s <| act s fun d u => (d.seeing errs).opCsrPoll u n seq body

/-- `CSR_POLL_TIMEOUT` (spec/14_control_protocol.md R492): A CSR_POLL whose timeout passes replies with DETAIL TIMEOUT. -/
def execCsrPollTimeout (now n : Nat) (errs : List (Nat × List Nat)) (s : State) : Res :=
  need (n < 8) s <| timed now s fun d u => (d.seeing errs).pollTimeout u n

/-- `TBL_READ` (spec/14_control_protocol.md R492): TBL_READ performs a window READ of a table entry. -/
def execTblRead (n seq : Nat) (body : List Byte) (s : State) : Res :=
  need (n < 8) s <| act s fun d u => d.opTable u n seq 0x0201 body

/-- `TBL_WRITE` (spec/14_control_protocol.md R492): TBL_WRITE performs a window WRITE of a table entry. -/
def execTblWrite (n seq : Nat) (body : List Byte) (s : State) : Res :=
  need (n < 8) s <| act s fun d u => d.opTable u n seq 0x0202 body

/-- `TBL_INVALIDATE` (spec/14_control_protocol.md R492): TBL_INVALIDATE performs a window INVALIDATE. -/
def execTblInvalidate (n seq : Nat) (body : List Byte) (s : State) : Res :=
  need (n < 8) s <| act s fun d u => d.opTable u n seq 0x0203 body

/-- `BANK_COPY` (spec/14_control_protocol.md R492): The BANK_COPY command performs a window bank copy in one pipeline. -/
def execBankCopy (n seq : Nat) (body : List Byte) (s : State) : Res :=
  need (n < 8) s <| act s fun d u => d.opTable u n seq 0x0204 body

/-- `EM_INSERT` (spec/14_control_protocol.md R492): The EM_INSERT command inserts an exact-match entry through the window. -/
def execEmInsert (n seq : Nat) (body : List Byte) (s : State) : Res :=
  need (n < 8) s <| act s fun d u => d.opTable u n seq 0x0205 body

/-- `EM_DELETE` (spec/14_control_protocol.md R492): The EM_DELETE command removes an exact-match entry through the window. -/
def execEmDelete (n seq : Nat) (body : List Byte) (s : State) : Res :=
  need (n < 8) s <| act s fun d u => d.opTable u n seq 0x0206 body

/-- `EM_FIND` (spec/14_control_protocol.md R492): The EM_FIND command returns an exact-match entry through the window. -/
def execEmFind (n seq : Nat) (body : List Byte) (s : State) : Res :=
  need (n < 8) s <| act s fun d u => d.opTable u n seq 0x0207 body

/-- `EM_FLUSH` (spec/14_control_protocol.md R492): The EM_FLUSH command flushes dynamic exact-match entries through the window. -/
def execEmFlush (n seq : Nat) (body : List Byte) (s : State) : Res :=
  need (n < 8) s <| act s fun d u => d.opTable u n seq 0x0208 body

/-- `TBL_WRITE_ALL` (spec/14_control_protocol.md R492): TBL_WRITE_ALL writes one entry in PL0 to PL15 in order, stopping at the first failure. -/
def execTblWriteAll (n seq : Nat) (body : List Byte) (s : State) : Res :=
  need (n < 8) s <| act s fun d u => d.opTable u n seq 0x0209 body

/-- `CE_READ` (spec/14_control_protocol.md R492): CE_READ reads a collective engine table entry through its window. -/
def execCeRead (n seq : Nat) (body : List Byte) (s : State) : Res :=
  need (n < 8) s <| act s fun d u => d.opCe u n seq 0x0301 body

/-- `CE_WRITE` (spec/14_control_protocol.md R492): CE_WRITE writes a collective engine table entry through its window. -/
def execCeWrite (n seq : Nat) (body : List Byte) (s : State) : Res :=
  need (n < 8) s <| act s fun d u => d.opCe u n seq 0x0302 body

/-- `CE_INVALIDATE` (spec/14_control_protocol.md R492): CE_INVALIDATE invalidates a collective engine table entry through its window. -/
def execCeInvalidate (n seq : Nat) (body : List Byte) (s : State) : Res :=
  need (n < 8) s <| act s fun d u => d.opCe u n seq 0x0303 body

/-- `PARTITION_ABORT` (spec/07_collectives.md R253): The PARTITION_ABORT command requests an abort of a partition or is refused. -/
def execPartitionAbort (n seq : Nat) (body : List Byte) (s : State) : Res :=
  need (n < 8) s <| act s fun d u => d.opPartAbort u n seq body

/-- `CE_STATUS` (spec/14_control_protocol.md R491): CE_STATUS returns open contexts, launch slots and the aborted-partition bitmap. -/
def execCeStatus (n seq : Nat) (body : List Byte) (s : State) : Res :=
  need (n < 8) s <| act s fun d u => d.opCeStatus u n seq body

/-- `PORT_STATUS` (spec/14_control_protocol.md R491): PORT_STATUS returns link status registers of a range of ports. -/
def execPortStatus (n seq : Nat) (body : List Byte) (s : State) : Res :=
  need (n < 8) s <| act s fun d u => d.opPortStatus u n seq body

/-- `PORT_ENABLE` (spec/14_control_protocol.md R491): PORT_ENABLE writes EN and AUTO_RETRAIN of a port. -/
def execPortEnable (n seq : Nat) (body : List Byte) (s : State) : Res :=
  need (n < 8) s <| predictable s (fun d u => d.cmdUnpredictable u n seq 0x0402 body) <|
    act s fun d u => d.opPortEnable u n seq body

/-- `PORT_QUIESCE` (spec/14_control_protocol.md R488): PORT_QUIESCE writes a port's QREQ and replies once QACK matches. -/
def execPortQuiesce (n seq : Nat) (body : List Byte) (s : State) : Res :=
  need (n < 8) s <| predictable s (fun d u => d.cmdUnpredictable u n seq 0x0403 body) <|
    act s fun d u => d.opPortQuiesce u n seq body

/-- `INDIGO_SET` (spec/14_control_protocol.md R491): INDIGO_SET writes an Indigo pair entry. -/
def execIndigoSet (n seq : Nat) (body : List Byte) (s : State) : Res :=
  need (n < 8) s <| predictable s (fun d u => d.cmdUnpredictable u n seq 0x0404 body) <|
    act s fun d u => d.opIndigo u n seq body

/-- `LANE_STATUS` (spec/14_control_protocol.md R491): LANE_STATUS returns ring, margin and power of each lane of a port. -/
def execLaneStatus (n seq : Nat) (body : List Byte) (s : State) : Res :=
  need (n < 8) s <| act s fun d u => d.opLaneStatus u n seq body

/-- `SLOT_CTRL` (spec/14_control_protocol.md R491): SLOT_CTRL writes EN of a laser slot. -/
def execSlotCtrl (n seq : Nat) (body : List Byte) (s : State) : Res :=
  need (n < 8) s <| predictable s (fun d u => d.cmdUnpredictable u n seq 0x0406 body) <|
    act s fun d u => d.opSlotCtrl u n seq body

/-- `TIME_STATUS` (spec/14_control_protocol.md R491): TIME_STATUS returns time unit status, fabric time, beat, RATE and θ. -/
def execTimeStatus (n seq : Nat) (body : List Byte) (s : State) : Res :=
  need (n < 8) s <| act s fun d u => d.opTimeStatus u n seq body

/-- `TPO_ARM` (spec/13_time.md R461): TPO_ARM programs and arms a time pulse output. -/
def execTpoArm (n seq : Nat) (body : List Byte) (s : State) : Res :=
  need (n < 8) s <| act s fun d u => d.opTpoArm u n seq body

/-- `TPO_CANCEL` (spec/13_time.md R461): TPO_CANCEL cancels a time pulse output. -/
def execTpoCancel (n seq : Nat) (body : List Byte) (s : State) : Res :=
  need (n < 8) s <| act s fun d u => d.opTpoCancel u n seq body

/-- `PORT_HOLD` (spec/15_faults_sparing.md R544): A PORT_HOLD maintenance activity holds up to 32 ports until stopped. -/
def execPortHold (n seq : Nat) (ids : List Nat) (s : State) : Res :=
  need (n < 8 && ids.length < 65536 && ids.all (· < 2 ^ 32)) s <| act s fun d u => d.opMaint u n seq (maintBody 1 ids)

/-- `LASER_SERVICE` (spec/15_faults_sparing.md R544): A LASER_SERVICE activity holds a laser slot until stopped. -/
def execLaserService (n seq : Nat) (ids : List Nat) (s : State) : Res :=
  need (n < 8 && ids.length < 65536 && ids.all (· < 2 ^ 32)) s <| act s fun d u => d.opMaint u n seq (maintBody 2 ids)

/-- `OE_SELFTEST` (spec/15_faults_sparing.md R544): An OE_SELFTEST activity loop-tests an optical engine's rings and lanes. -/
def execOeSelftest (n seq : Nat) (ids : List Nat) (s : State) : Res :=
  need (n < 8 && ids.length < 65536 && ids.all (· < 2 ^ 32)) s <| act s fun d u => d.opMaint u n seq (maintBody 3 ids)

/-- `VAT_RETIRE` (spec/15_faults_sparing.md R520): A VAT_RETIRE activity starts retirement of a physical vat by draining it. -/
def execVatRetire (n seq : Nat) (ids : List Nat) (s : State) : Res :=
  need (n < 8 && ids.length < 65536 && ids.all (· < 2 ^ 32)) s <| act s fun d u => d.opMaint u n seq (maintBody 4 ids)

/-- `SLICE_SWAP` (spec/15_faults_sparing.md R523): A SLICE_SWAP activity starts replacing an active crossbar slice by the spare. -/
def execSliceSwap (n seq : Nat) (ids : List Nat) (s : State) : Res :=
  need (n < 8 && ids.length < 65536 && ids.all (· < 2 ^ 32)) s <| act s fun d u => d.opMaint u n seq (maintBody 5 ids)

/-- `DDR_RETIRE` (spec/15_faults_sparing.md R534): A DDR_RETIRE activity starts copying a channel into the spare region. -/
def execDdrRetire (n seq : Nat) (ids : List Nat) (s : State) : Res :=
  need (n < 8 && ids.length < 65536 && ids.all (· < 2 ^ 32)) s <| act s fun d u => d.opMaint u n seq (maintBody 6 ids)

/-- `BANK_SELFTEST` (spec/15_faults_sparing.md R544): A BANK_SELFTEST activity tests the 100 vats of a quiesced bank. -/
def execBankSelftest (n seq : Nat) (ids : List Nat) (s : State) : Res :=
  need (n < 8 && ids.length < 65536 && ids.all (· < 2 ^ 32)) s <| act s fun d u => d.opMaint u n seq (maintBody 7 ids)

/-- `MAINT_STOP` (spec/15_faults_sparing.md R548): MAINT_STOP ends a hold, stops a self-test or cancels an early vat retirement. -/
def execMaintStop (n seq : Nat) (body : List Byte) (s : State) : Res :=
  need (n < 8) s <| act s fun d u => d.opMaintStop u n seq body

/-- `MAINT_STATUS` (spec/14_control_protocol.md R491): MAINT_STATUS lists running maintenance activities. -/
def execMaintStatus (n seq : Nat) (body : List Byte) (s : State) : Res :=
  need (n < 8) s <| act s fun d u => d.opMaintStatus u n seq body

/-- `ERR_READ` (spec/15_faults_sparing.md R512): ERR_READ returns error records as 16 words each. -/
def execErrRead (n seq : Nat) (body : List Byte) (s : State) : Res :=
  need (n < 8) s <| act s fun d u => d.opErrRead u n seq body

/-- `ERR_ACK` (spec/15_faults_sparing.md R511): ERR_ACK acknowledges the record in a slot. -/
def execErrAck (n seq : Nat) (body : List Byte) (s : State) : Res :=
  need (n < 8) s <| act s fun d u => d.opErrAck u n seq body

/-- `FW_STATUS` (spec/14_control_protocol.md R491): FW_STATUS returns slot and security versions, active slot and boot cause. -/
def execFwStatus (n seq : Nat) (body : List Byte) (s : State) : Res :=
  need (n < 8) s <| act s fun d u => d.opFwStatus u n seq body

/-- `IMG_BEGIN` (spec/14_control_protocol.md R492): IMG_BEGIN takes the image staging area for an image of a given kind and length. -/
def execImgBegin (n seq : Nat) (body : List Byte) (s : State) : Res :=
  need (n < 8) s <| act s fun d u => d.opImgBegin u n seq body

/-- `IMG_DATA` (spec/14_control_protocol.md R492): IMG_DATA writes image bytes into the staging area. -/
def execImgData (n seq : Nat) (body : List Byte) (s : State) : Res :=
  need (n < 8) s <| act s fun d u => d.opImgData u n seq body

/-- `FIRMWARE_IMAGE_COMMIT` (spec/17_boot_security.md R584): IMG_COMMIT of a firmware image checks it and writes it to the inactive slot. -/
def execFirmwareImageCommit (n seq : Nat) (s : State) : Res :=
  need (n < 8) s <| act s fun d u => d.opFwCommit u n seq

/-- `RECIPE_LOAD` (spec/09_vat_programming.md R342): IMG_COMMIT of a recipe image checks it and loads it into every vat. -/
def execRecipeLoad (n seq : Nat) (s : State) : Res :=
  need (n < 8) s <| act s fun d u => d.opRecipeCommit u n seq

/-- `FW_ACTIVATE` (spec/17_boot_security.md R585): FW_ACTIVATE selects a slot in trial and makes a warm restart onto it. -/
def execFwActivate (n seq : Nat) (body : List Byte) (errs : List (Nat × List Nat)) (s : State) : Res :=
  need (n < 8) s <| act s fun d u => (d.seeing errs).opActivate u n seq body

/-- `GET_CERTS` (spec/17_boot_security.md R596): GET_CERTS returns part of a certificate. -/
def execGetCerts (n seq : Nat) (body : List Byte) (s : State) : Res :=
  need (n < 8) s <| act s fun d u => d.opGetCerts u n seq body

/-- `ATTEST` (spec/17_boot_security.md R598): ATTEST returns a signed attestation report. -/
def execAttest (n seq : Nat) (body : List Byte) (s : State) : Res :=
  need (n < 8) s <| act s fun d u => d.opAttest u n seq body

/-- `CRED_READ` (spec/14_control_protocol.md R491): CRED_READ returns a credential entry. -/
def execCredRead (n seq : Nat) (body : List Byte) (s : State) : Res :=
  need (n < 8) s <| act s fun d u => d.opCredRead u n seq body

/-- `CRED_WRITE` (spec/14_control_protocol.md R479): CRED_WRITE sets a credential entry and closes its sessions. -/
def execCredWrite (n seq : Nat) (body : List Byte) (s : State) : Res :=
  need (n < 8) s <| act s fun d u => d.opCredWrite u n seq body

/-- `SVN_COMMIT_FIRMWARE` (spec/17_boot_security.md R591): SVN_COMMIT of kind 1 raises FW_MIN to the lower slot security version. -/
def execSvnCommitFirmware (n seq : Nat) (s : State) : Res :=
  need (n < 8) s <| actFuse s fun d u =>
    let v := if d.svnRuns u n seq 1 then d.svnFirmware u else u
    (d.opSvn u n seq 1 v.fwMin, v)

/-- `SVN_COMMIT_RECIPE` (spec/17_boot_security.md R591): SVN_COMMIT of kind 2 raises RCP_MIN to the loaded recipe image's security version. -/
def execSvnCommitRecipe (n seq : Nat) (s : State) : Res :=
  need (n < 8) s <| actFuse s fun d u =>
    let v := if d.svnRuns u n seq 2 then d.svnRecipe u else u
    (d.opSvn u n seq 2 v.rcpMin, v)

/-- `CTR_SNAPSHOT` (spec/18_telemetry.md R601): CTR_SNAPSHOT returns counter snapshots from the last beat boundary. -/
def execCtrSnapshot (n seq : Nat) (body : List Byte) (s : State) : Res :=
  need (n < 8) s <| act s fun d u => d.opSnapshot u n seq body

/-- `TELEM_SUBSCRIBE` (spec/18_telemetry.md R608): TELEM_SUBSCRIBE sets a session's report mask and period. -/
def execTelemSubscribe (n seq : Nat) (body : List Byte) (s : State) : Res :=
  need (n < 8) s <| act s fun d u => d.opTelem u n seq body

/-- `FLIGHT_READ` (spec/18_telemetry.md R617): FLIGHT_READ returns flight records in sequence order. -/
def execFlightRead (n seq : Nat) (body : List Byte) (errs : List (Nat × List Nat)) (s : State) : Res :=
  need (n < 8) s <| act s fun d u => (d.seeing errs).opFlight u n seq body

/-- `POWER_STATUS` (spec/16_power_umber.md R571): POWER_STATUS returns power state, rail readings and block power. -/
def execPowerStatus (n seq : Nat) (body : List Byte) (s : State) : Res :=
  need (n < 8) s <| act s fun d u => d.opPower u n seq body

/-- `THERMAL_STATUS` (spec/16_power_umber.md R571): THERMAL_STATUS returns all sensor temperatures and warning levels. -/
def execThermalStatus (n seq : Nat) (body : List Byte) (s : State) : Res :=
  need (n < 8) s <| act s fun d u => d.opThermal u n seq body

/-- `UMBER_ENTER` (spec/16_power_umber.md R559): UMBER_ENTER checks the preconditions and starts entry into Umber. -/
def execUmberEnter (n seq : Nat) (body : List Byte) (s : State) : Res :=
  need (n < 8) s <| act s fun d u => d.opUmber u n seq body

end Sys2Proof.Machine
end

