-- ==== Sys2Proof/Machine/WindowRows.lean ====
section
/-! DEFINITION. The commands of the table windows of the collective engine and the pipelines (spec/03_forwarding.md R128 to R136, spec/07_collectives.md R257 to R259). -/
namespace Sys2Proof.Machine
open Dev

/-- `CE_TW_READ` (spec/07_collectives.md R259): The collective engine window reads a stream, group, partition or watch entry. -/
def execCeTwRead (now table : Nat) (s : State) : Res :=
  need (s.dev.reaches (R.CE_TW_CMD)) s <| timed now s fun d _ => d.ceTwStart 1 (table % 16)

/-- `CE_TW_WRITE` (spec/07_collectives.md R257): The collective engine window writes an entry in all 16 copies, refused with IN_USE when valid. -/
def execCeTwWrite (now table : Nat) (s : State) : Res :=
  need (s.dev.reaches (R.CE_TW_CMD)) s <| timed now s fun d _ => d.ceTwStart 2 (table % 16)

/-- `CE_TW_INVALIDATE` (spec/07_collectives.md R258): The collective engine window invalidates an entry and flushes its contexts and launch slots. -/
def execCeTwInvalidate (now table : Nat) (s : State) : Res :=
  need (s.dev.reaches (R.CE_TW_CMD)) s <| timed now s fun d _ => d.ceTwStart 3 (table % 16)

/-- `CE_WINDOW_COMPLETE` (spec/07_collectives.md R259): A collective engine window operation completes, clearing BUSY with RESULT. -/
def execCeWindowComplete (now : Nat) (err : Option DescErr) (s : State) : Res :=
  timed now s fun d _ => (d.ceTwComplete err).winDone 16

/-- `TW_READ` (spec/03_forwarding.md R132): The table window reads the entry at INDEX into TW_DATA. -/
def execTwRead (now pl table bank : Nat) (s : State) : Res :=
  need (pl < 16) s <| need (s.dev.reaches (R.TW_CMD pl)) s <| timed now s fun d _ => d.twStart pl 1 (table % 16) (bank % 2)

/-- `TW_WRITE` (spec/03_forwarding.md R128): The table window writes TW_DATA into the entry at INDEX, refused for a bank in use. -/
def execTwWrite (now pl table bank : Nat) (s : State) : Res :=
  need (pl < 16) s <| need (s.dev.reaches (R.TW_CMD pl)) s <| timed now s fun d _ => d.twStart pl 2 (table % 16) (bank % 2)

/-- `TW_INVALIDATE` (spec/03_forwarding.md R128): The table window clears VALID or zeroes the entry at INDEX. -/
def execTwInvalidate (now pl table bank : Nat) (s : State) : Res :=
  need (pl < 16) s <| need (s.dev.reaches (R.TW_CMD pl)) s <| timed now s fun d _ => d.twStart pl 3 (table % 16) (bank % 2)

/-- `TW_BANK_COPY` (spec/03_forwarding.md R136): The table window copies a table from the current bank into the idle bank. -/
def execTwBankCopy (now pl table bank : Nat) (s : State) : Res :=
  need (pl < 16) s <| need (s.dev.reaches (R.TW_CMD pl)) s <| timed now s fun d _ => d.twStart pl 4 (table % 16) (bank % 2)

/-- `TW_EM_INSERT` (spec/03_forwarding.md R135): The table window places an exact-match entry by its key in all copies. -/
def execTwEmInsert (now pl : Nat) (s : State) : Res :=
  need (pl < 16) s <| need (s.dev.reaches (R.TW_CMD pl)) s <| timed now s fun d _ => d.twStart pl 5 5 0

/-- `TW_EM_DELETE` (spec/03_forwarding.md R135): The table window removes the exact-match entry with the given key. -/
def execTwEmDelete (now pl : Nat) (s : State) : Res :=
  need (pl < 16) s <| need (s.dev.reaches (R.TW_CMD pl)) s <| timed now s fun d _ => d.twStart pl 6 5 0

/-- `TW_EM_FIND` (spec/03_forwarding.md R132): The table window returns the exact-match entry with the given key. -/
def execTwEmFind (now pl : Nat) (s : State) : Res :=
  need (pl < 16) s <| need (s.dev.reaches (R.TW_CMD pl)) s <| timed now s fun d _ => d.twStart pl 7 5 0

/-- `TW_EM_FLUSH` (spec/03_forwarding.md R135): The table window removes dynamic exact-match entries of one or all partitions. -/
def execTwEmFlush (now pl : Nat) (s : State) : Res :=
  need (pl < 16) s <| need (s.dev.reaches (R.TW_CMD pl)) s <| timed now s fun d _ => d.twStart pl 8 5 0

/-- `TABLE_WINDOW_COMPLETE` (spec/03_forwarding.md R132): A table window operation completes, clearing BUSY with RESULT. -/
def execTableWindowComplete (now pl : Nat) (ecc : Bool) (errs : List (Nat × List Nat)) (s : State) : Res :=
  need (pl < 16) s <| predictable s (fun d _ => ((d.advance now).twTwice pl)) <|
    timed now s fun d _ => ((d.seeing errs).twComplete pl ecc).winDone pl

end Sys2Proof.Machine
end

