-- ==== Sys2Proof/Machine/Dispatch.lean ====
section
/-! DEFINITION. The meaning of each command: one arm for each row of spec/opcode_table.json. -/
namespace Sys2Proof.Machine

def exec (i : Instr) (s : State) : Host.Outcome State Fault Refusal :=
  match i with
  | .beatBoundary now => Sys2Proof.Machine.execBeatBoundary now s
  | .registerWrite a v => Sys2Proof.Machine.execRegisterWrite a v s
  | .quiesceRequest now q => Sys2Proof.Machine.execQuiesceRequest now q s
  | .quiesceRelease now q => Sys2Proof.Machine.execQuiesceRelease now q s
  | .quiesceDrained now q => Sys2Proof.Machine.execQuiesceDrained now q s
  | .forcedQuiesce now q => Sys2Proof.Machine.execForcedQuiesce now q s
  | .mrdStage now a v => Sys2Proof.Machine.execMrdStage now a v s
  | .mrdClear now g count => Sys2Proof.Machine.execMrdClear now g count s
  | .mrdCancel now g count => Sys2Proof.Machine.execMrdCancel now g count s
  | .mrdArm now g count ecc => Sys2Proof.Machine.execMrdArm now g count ecc s
  | .mordantGroupApply now => Sys2Proof.Machine.execMordantGroupApply now s
  | .retireNow now pl => Sys2Proof.Machine.execRetireNow now pl s
  | .prevBankRetire now pl => Sys2Proof.Machine.execPrevBankRetire now pl s
  | .refclkLost now => Sys2Proof.Machine.execRefclkLost now s
  | .refclkRestored now => Sys2Proof.Machine.execRefclkRestored now s
  | .rowReceive now c cws wires => Sys2Proof.Machine.execRowReceive now c cws wires s
  | .packetHeaderArrival now c raw lost sram => Sys2Proof.Machine.execPacketHeaderArrival now c raw lost sram s
  | .payloadEnd now c pay check lost => Sys2Proof.Machine.execPayloadEnd now c pay check lost s
  | .emOverflowLookupDone now id errs => Sys2Proof.Machine.execEmOverflowLookupDone now id errs s
  | .emLearnApply now pl errs => Sys2Proof.Machine.execEmLearnApply now pl errs s
  | .emAgeOut now part mac errs => Sys2Proof.Machine.execEmAgeOut now part mac errs s
  | .fenceRelease now id => Sys2Proof.Machine.execFenceRelease now id s
  | .fenceStallRelease now id => Sys2Proof.Machine.execFenceStallRelease now id s
  | .crossbarSlot now full errs => Sys2Proof.Machine.execCrossbarSlot now full errs s
  | .sliceHardFault now x => Sys2Proof.Machine.execSliceHardFault now x s
  | .ageLimit now id out => Sys2Proof.Machine.execAgeLimit now id out s
  | .egressChoose now c => Sys2Proof.Machine.execEgressChoose now c s
  | .launchTimeReached now c v => Sys2Proof.Machine.execLaunchTimeReached now c v s
  | .transmitComplete now c ptr => Sys2Proof.Machine.execTransmitComplete now c ptr s
  | .resultAdmit now b err => Sys2Proof.Machine.execResultAdmit now b err s
  | .originatedAdmit now tu => Sys2Proof.Machine.execOriginatedAdmit now tu s
  | .gclGo now c len cyc => Sys2Proof.Machine.execGclGo now c len cyc s
  | .gclCancel now c len cyc => Sys2Proof.Machine.execGclCancel now c len cyc s
  | .gclHandover now => Sys2Proof.Machine.execGclHandover now s
  | .gateIntervalExpiry now c => Sys2Proof.Machine.execGateIntervalExpiry now c s
  | .contributionAccept now b err => Sys2Proof.Machine.execContributionAccept now b err s
  | .vatContribution now lv err => Sys2Proof.Machine.execVatContribution now lv err s
  | .handlerStep now lv => Sys2Proof.Machine.execHandlerStep now lv s
  | .handlerFinal now lv k err => Sys2Proof.Machine.execHandlerFinal now lv k err s
  | .arrayOpComplete now lv arr err desc => Sys2Proof.Machine.execArrayOpComplete now lv arr err desc s
  | .chunkTimeout now lv k ptr err => Sys2Proof.Machine.execChunkTimeout now lv k ptr err s
  | .recordEntryExpire now lv stream chunk => Sys2Proof.Machine.execRecordEntryExpire now lv stream chunk s
  | .launchAckAccept now b err => Sys2Proof.Machine.execLaunchAckAccept now b err s
  | .launchTimeout now b stream chunk err => Sys2Proof.Machine.execLaunchTimeout now b stream chunk err s
  | .launchSlotFree now b stream chunk => Sys2Proof.Machine.execLaunchSlotFree now b stream chunk s
  | .ceAbortGo now part => Sys2Proof.Machine.execCeAbortGo now part s
  | .partitionAbortRun now err => Sys2Proof.Machine.execPartitionAbortRun now err s
  | .ceTwRead now table => Sys2Proof.Machine.execCeTwRead now table s
  | .ceTwWrite now table => Sys2Proof.Machine.execCeTwWrite now table s
  | .ceTwInvalidate now table => Sys2Proof.Machine.execCeTwInvalidate now table s
  | .ceWindowComplete now err => Sys2Proof.Machine.execCeWindowComplete now err s
  | .twRead now pl table bank => Sys2Proof.Machine.execTwRead now pl table bank s
  | .twWrite now pl table bank => Sys2Proof.Machine.execTwWrite now pl table bank s
  | .twInvalidate now pl table bank => Sys2Proof.Machine.execTwInvalidate now pl table bank s
  | .twBankCopy now pl table bank => Sys2Proof.Machine.execTwBankCopy now pl table bank s
  | .twEmInsert now pl => Sys2Proof.Machine.execTwEmInsert now pl s
  | .twEmDelete now pl => Sys2Proof.Machine.execTwEmDelete now pl s
  | .twEmFind now pl => Sys2Proof.Machine.execTwEmFind now pl s
  | .twEmFlush now pl => Sys2Proof.Machine.execTwEmFlush now pl s
  | .tableWindowComplete now pl ecc errs => Sys2Proof.Machine.execTableWindowComplete now pl ecc errs s
  | .seqNop lv ecc err => Sys2Proof.Machine.execSeqNop lv ecc err s
  | .seqDone lv ecc err => Sys2Proof.Machine.execSeqDone lv ecc err s
  | .seqSetf lv ecc err => Sys2Proof.Machine.execSeqSetf lv ecc err s
  | .seqLi lv ecc err => Sys2Proof.Machine.execSeqLi lv ecc err s
  | .seqLui lv ecc err => Sys2Proof.Machine.execSeqLui lv ecc err s
  | .seqAdd lv ecc err => Sys2Proof.Machine.execSeqAdd lv ecc err s
  | .seqSub lv ecc err => Sys2Proof.Machine.execSeqSub lv ecc err s
  | .seqAnd lv ecc err => Sys2Proof.Machine.execSeqAnd lv ecc err s
  | .seqOr lv ecc err => Sys2Proof.Machine.execSeqOr lv ecc err s
  | .seqXor lv ecc err => Sys2Proof.Machine.execSeqXor lv ecc err s
  | .seqShl lv ecc err => Sys2Proof.Machine.execSeqShl lv ecc err s
  | .seqShr lv ecc err => Sys2Proof.Machine.execSeqShr lv ecc err s
  | .seqSar lv ecc err => Sys2Proof.Machine.execSeqSar lv ecc err s
  | .seqMul lv ecc err => Sys2Proof.Machine.execSeqMul lv ecc err s
  | .seqMax lv ecc err => Sys2Proof.Machine.execSeqMax lv ecc err s
  | .seqMin lv ecc err => Sys2Proof.Machine.execSeqMin lv ecc err s
  | .seqAddi lv ecc err => Sys2Proof.Machine.execSeqAddi lv ecc err s
  | .seqSubi lv ecc err => Sys2Proof.Machine.execSeqSubi lv ecc err s
  | .seqAndi lv ecc err => Sys2Proof.Machine.execSeqAndi lv ecc err s
  | .seqOri lv ecc err => Sys2Proof.Machine.execSeqOri lv ecc err s
  | .seqXori lv ecc err => Sys2Proof.Machine.execSeqXori lv ecc err s
  | .seqShli lv ecc err => Sys2Proof.Machine.execSeqShli lv ecc err s
  | .seqShri lv ecc err => Sys2Proof.Machine.execSeqShri lv ecc err s
  | .seqSari lv ecc err => Sys2Proof.Machine.execSeqSari lv ecc err s
  | .seqMuli lv ecc err => Sys2Proof.Machine.execSeqMuli lv ecc err s
  | .seqMaxi lv ecc err => Sys2Proof.Machine.execSeqMaxi lv ecc err s
  | .seqMini lv ecc err => Sys2Proof.Machine.execSeqMini lv ecc err s
  | .seqGets lv ecc err => Sys2Proof.Machine.execSeqGets lv ecc err s
  | .seqLdw lv ecc err => Sys2Proof.Machine.execSeqLdw lv ecc err s
  | .seqStw lv ecc err => Sys2Proof.Machine.execSeqStw lv ecc err s
  | .seqBra lv ecc err => Sys2Proof.Machine.execSeqBra lv ecc err s
  | .seqBeq lv ecc err => Sys2Proof.Machine.execSeqBeq lv ecc err s
  | .seqBne lv ecc err => Sys2Proof.Machine.execSeqBne lv ecc err s
  | .seqBlt lv ecc err => Sys2Proof.Machine.execSeqBlt lv ecc err s
  | .seqBge lv ecc err => Sys2Proof.Machine.execSeqBge lv ecc err s
  | .seqAop lv ecc err => Sys2Proof.Machine.execSeqAop lv ecc err s
  | .seqWait lv ecc err => Sys2Proof.Machine.execSeqWait lv ecc err s
  | .seqOut lv ecc err => Sys2Proof.Machine.execSeqOut lv ecc err s
  | .seqSend lv ecc err => Sys2Proof.Machine.execSeqSend lv ecc err s
  | .seqRecv lv ecc err => Sys2Proof.Machine.execSeqRecv lv ecc err s
  | .recipeBudgetExpire now lv err => Sys2Proof.Machine.execRecipeBudgetExpire now lv err s
  | .messageDeliver now src dst => Sys2Proof.Machine.execMessageDeliver now src dst s
  | .messageExpire now lv => Sys2Proof.Machine.execMessageExpire now lv s
  | .lcsSend now c data wires => Sys2Proof.Machine.execLcsSend now c data wires s
  | .lcsReceive now c w row => Sys2Proof.Machine.execLcsReceive now c w row s
  | .lcsTimeoutXoff now c => Sys2Proof.Machine.execLcsTimeoutXoff now c s
  | .lcsTimeoutDown now c => Sys2Proof.Machine.execLcsTimeoutDown now c s
  | .train now c chip port split row first => Sys2Proof.Machine.execTrain now c chip port split row first s
  | .echoReq now c row => Sys2Proof.Machine.execEchoReq now c row s
  | .echoResp now c row turn => Sys2Proof.Machine.execEchoResp now c row turn s
  | .feature now c lvl => Sys2Proof.Machine.execFeature now c lvl s
  | .time now c ttx trx rxv seqTx seqRx arr => Sys2Proof.Machine.execTime now c ttx trx rxv seqTx seqRx arr s
  | .move now c lane wl row first => Sys2Proof.Machine.execMove now c lane wl row first s
  | .moveAck now c lane wl row => Sys2Proof.Machine.execMoveAck now c lane wl row s
  | .restore now c lane wl row first => Sys2Proof.Machine.execRestore now c lane wl row first s
  | .restoreAck now c lane wl row => Sys2Proof.Machine.execRestoreAck now c lane wl row s
  | .narrow now c lane wl row first => Sys2Proof.Machine.execNarrow now c lane wl row first s
  | .narrowAck now c lane wl row => Sys2Proof.Machine.execNarrowAck now c lane wl row s
  | .refuse now c lane wl row => Sys2Proof.Machine.execRefuse now c lane wl row s
  | .laneRequest now c code lane wl row first => Sys2Proof.Machine.execLaneRequest now c code lane wl row first s
  | .down now c => Sys2Proof.Machine.execDown now c s
  | .laneEffectRow now c tx => Sys2Proof.Machine.execLaneEffectRow now c tx s
  | .laneAckTimeout now c => Sys2Proof.Machine.execLaneAckTimeout now c s
  | .laneLost now p j rx why => Sys2Proof.Machine.execLaneLost now p j rx why s
  | .holdoffExpire now c => Sys2Proof.Machine.execHoldoffExpire now c s
  | .linkEnable now p => Sys2Proof.Machine.execLinkEnable now p s
  | .linkDisable now p => Sys2Proof.Machine.execLinkDisable now p s
  | .lightArrival now p j => Sys2Proof.Machine.execLightArrival now p j s
  | .lightExit now c => Sys2Proof.Machine.execLightExit now c s
  | .trainingCodeword now c j cw => Sys2Proof.Machine.execTrainingCodeword now c j cw s
  | .trainingTimeout now c => Sys2Proof.Machine.execTrainingTimeout now c s
  | .indigoEnable now n a b => Sys2Proof.Machine.execIndigoEnable now n a b s
  | .indigoDisable now n => Sys2Proof.Machine.execIndigoDisable now n s
  | .indigoActive now n => Sys2Proof.Machine.execIndigoActive now n s
  | .indigoCodewordPass now n ab j cw wires outs => Sys2Proof.Machine.execIndigoCodewordPass now n ab j cw wires outs s
  | .identityRead now p j rx chips => Sys2Proof.Machine.execIdentityRead now p j rx chips s
  | .identityTimeout now p j rx => Sys2Proof.Machine.execIdentityTimeout now p j rx s
  | .relockAttemptEnd now p j rx chips => Sys2Proof.Machine.execRelockAttemptEnd now p j rx chips s
  | .marginEval now powers limits => Sys2Proof.Machine.execMarginEval now powers limits s
  | .calVisitStart now p j => Sys2Proof.Machine.execCalVisitStart now p j s
  | .calDwellEnd now => Sys2Proof.Machine.execCalDwellEnd now s
  | .slotEnable now k en => Sys2Proof.Machine.execSlotEnable now k en s
  | .moduleInserted now k => Sys2Proof.Machine.execModuleInserted now k s
  | .moduleRemoved now k => Sys2Proof.Machine.execModuleRemoved now k s
  | .laserReady now k taps => Sys2Proof.Machine.execLaserReady now k taps s
  | .sourceLost now => Sys2Proof.Machine.execSourceLost now s
  | .parentSwitch now => Sys2Proof.Machine.execParentSwitch now s
  | .timeAnnounceSend now => Sys2Proof.Machine.execTimeAnnounceSend now s
  | .timeAnnounceReceive now c pay => Sys2Proof.Machine.execTimeAnnounceReceive now c pay s
  | .setNow now => Sys2Proof.Machine.execSetNow now s
  | .setAtPps now => Sys2Proof.Machine.execSetAtPps now s
  | .ppsEdge now => Sys2Proof.Machine.execPpsEdge now s
  | .sync now dom src seq twoStep t1 corr => Sys2Proof.Machine.execSync now dom src seq twoStep t1 corr s
  | .followUp now dom src seq t1 corr => Sys2Proof.Machine.execFollowUp now dom src seq t1 corr s
  | .delayReq now dom src seq corr => Sys2Proof.Machine.execDelayReq now dom src seq corr s
  | .delayResp now dom src req seq t4 corr => Sys2Proof.Machine.execDelayResp now dom src req seq t4 corr s
  | .announce now dom data => Sys2Proof.Machine.execAnnounce now dom data s
  | .ptpMessageSend now => Sys2Proof.Machine.execPtpMessageSend now s
  | .tpoGo now n mode pol => Sys2Proof.Machine.execTpoGo now n mode pol s
  | .tpoCtrlCancel now n mode pol => Sys2Proof.Machine.execTpoCtrlCancel now n mode pol s
  | .tpoPulse now n => Sys2Proof.Machine.execTpoPulse now n s
  | .tpoPulseEnd now n => Sys2Proof.Machine.execTpoPulseEnd now n s
  | .mgmtPortLinkChange now up kr cr => Sys2Proof.Machine.execMgmtPortLinkChange now up kr cr s
  | .mgmtFrameReceive now fcs fr => Sys2Proof.Machine.execMgmtFrameReceive now fcs fr s
  | .neighborSolicitation now mac pkt => Sys2Proof.Machine.execNeighborSolicitation now mac pkt s
  | .echoRequest now mac pkt => Sys2Proof.Machine.execEchoRequest now mac pkt s
  | .hello now ep fr => Sys2Proof.Machine.execHello now ep fr s
  | .finish now ep fr => Sys2Proof.Machine.execFinish now ep fr s
  | .helloTimeout now n => Sys2Proof.Machine.execHelloTimeout now n s
  | .command now ep fr => Sys2Proof.Machine.execCommand now ep fr s
  | .eventAck now ep fr => Sys2Proof.Machine.execEventAck now ep fr s
  | .eventResend now n => Sys2Proof.Machine.execEventResend now n s
  | .sessionIdleTimeout now n => Sys2Proof.Machine.execSessionIdleTimeout now n s
  | .deviceInfo n seq body => Sys2Proof.Machine.execDeviceInfo n seq body s
  | .sessionClose n seq body => Sys2Proof.Machine.execSessionClose n seq body s
  | .sessionFlush n seq body => Sys2Proof.Machine.execSessionFlush n seq body s
  | .sessionHistory n seq body => Sys2Proof.Machine.execSessionHistory n seq body s
  | .eventSubscribe n seq body => Sys2Proof.Machine.execEventSubscribe n seq body s
  | .nopCommand n seq body => Sys2Proof.Machine.execNopCommand n seq body s
  | .csrRead n seq body errs => Sys2Proof.Machine.execCsrRead n seq body errs s
  | .csrWrite n seq body => Sys2Proof.Machine.execCsrWrite n seq body s
  | .csrRmw n seq body errs => Sys2Proof.Machine.execCsrRmw n seq body errs s
  | .csrPoll n seq body errs => Sys2Proof.Machine.execCsrPoll n seq body errs s
  | .csrPollTimeout now n errs => Sys2Proof.Machine.execCsrPollTimeout now n errs s
  | .tblRead n seq body => Sys2Proof.Machine.execTblRead n seq body s
  | .tblWrite n seq body => Sys2Proof.Machine.execTblWrite n seq body s
  | .tblInvalidate n seq body => Sys2Proof.Machine.execTblInvalidate n seq body s
  | .bankCopy n seq body => Sys2Proof.Machine.execBankCopy n seq body s
  | .emInsert n seq body => Sys2Proof.Machine.execEmInsert n seq body s
  | .emDelete n seq body => Sys2Proof.Machine.execEmDelete n seq body s
  | .emFind n seq body => Sys2Proof.Machine.execEmFind n seq body s
  | .emFlush n seq body => Sys2Proof.Machine.execEmFlush n seq body s
  | .tblWriteAll n seq body => Sys2Proof.Machine.execTblWriteAll n seq body s
  | .ceRead n seq body => Sys2Proof.Machine.execCeRead n seq body s
  | .ceWrite n seq body => Sys2Proof.Machine.execCeWrite n seq body s
  | .ceInvalidate n seq body => Sys2Proof.Machine.execCeInvalidate n seq body s
  | .partitionAbort n seq body => Sys2Proof.Machine.execPartitionAbort n seq body s
  | .ceStatus n seq body => Sys2Proof.Machine.execCeStatus n seq body s
  | .portStatus n seq body => Sys2Proof.Machine.execPortStatus n seq body s
  | .portEnable n seq body => Sys2Proof.Machine.execPortEnable n seq body s
  | .portQuiesce n seq body => Sys2Proof.Machine.execPortQuiesce n seq body s
  | .indigoSet n seq body => Sys2Proof.Machine.execIndigoSet n seq body s
  | .laneStatus n seq body => Sys2Proof.Machine.execLaneStatus n seq body s
  | .slotCtrl n seq body => Sys2Proof.Machine.execSlotCtrl n seq body s
  | .timeStatus n seq body => Sys2Proof.Machine.execTimeStatus n seq body s
  | .tpoArm n seq body => Sys2Proof.Machine.execTpoArm n seq body s
  | .tpoCancel n seq body => Sys2Proof.Machine.execTpoCancel n seq body s
  | .portHold n seq ids => Sys2Proof.Machine.execPortHold n seq ids s
  | .laserService n seq ids => Sys2Proof.Machine.execLaserService n seq ids s
  | .oeSelftest n seq ids => Sys2Proof.Machine.execOeSelftest n seq ids s
  | .vatRetire n seq ids => Sys2Proof.Machine.execVatRetire n seq ids s
  | .sliceSwap n seq ids => Sys2Proof.Machine.execSliceSwap n seq ids s
  | .ddrRetire n seq ids => Sys2Proof.Machine.execDdrRetire n seq ids s
  | .bankSelftest n seq ids => Sys2Proof.Machine.execBankSelftest n seq ids s
  | .maintStop n seq body => Sys2Proof.Machine.execMaintStop n seq body s
  | .maintStatus n seq body => Sys2Proof.Machine.execMaintStatus n seq body s
  | .errRead n seq body => Sys2Proof.Machine.execErrRead n seq body s
  | .errAck n seq body => Sys2Proof.Machine.execErrAck n seq body s
  | .erAck now k => Sys2Proof.Machine.execErAck now k s
  | .fwStatus n seq body => Sys2Proof.Machine.execFwStatus n seq body s
  | .imgBegin n seq body => Sys2Proof.Machine.execImgBegin n seq body s
  | .imgData n seq body => Sys2Proof.Machine.execImgData n seq body s
  | .firmwareImageCommit n seq => Sys2Proof.Machine.execFirmwareImageCommit n seq s
  | .recipeLoad n seq => Sys2Proof.Machine.execRecipeLoad n seq s
  | .fwActivate n seq body errs => Sys2Proof.Machine.execFwActivate n seq body errs s
  | .getCerts n seq body => Sys2Proof.Machine.execGetCerts n seq body s
  | .attest n seq body => Sys2Proof.Machine.execAttest n seq body s
  | .credRead n seq body => Sys2Proof.Machine.execCredRead n seq body s
  | .credWrite n seq body => Sys2Proof.Machine.execCredWrite n seq body s
  | .svnCommitFirmware n seq => Sys2Proof.Machine.execSvnCommitFirmware n seq s
  | .svnCommitRecipe n seq => Sys2Proof.Machine.execSvnCommitRecipe n seq s
  | .ctrSnapshot n seq body => Sys2Proof.Machine.execCtrSnapshot n seq body s
  | .telemSubscribe n seq body => Sys2Proof.Machine.execTelemSubscribe n seq body s
  | .flightRead n seq body errs => Sys2Proof.Machine.execFlightRead n seq body errs s
  | .powerStatus n seq body => Sys2Proof.Machine.execPowerStatus n seq body s
  | .thermalStatus n seq body => Sys2Proof.Machine.execThermalStatus n seq body s
  | .umberEnter n seq body => Sys2Proof.Machine.execUmberEnter n seq body s
  | .umberEntryComplete now => Sys2Proof.Machine.execUmberEntryComplete now s
  | .wakeReqWrite now req => Sys2Proof.Machine.execWakeReqWrite now req s
  | .grantInstant now => Sys2Proof.Machine.execGrantInstant now s
  | .rampStep now pll => Sys2Proof.Machine.execRampStep now pll s
  | .wakeComplete now bad => Sys2Proof.Machine.execWakeComplete now bad s
  | .bistDone now rows vats slices wires => Sys2Proof.Machine.execBistDone now rows vats slices wires s
  | .thermalWarn now sensor t => Sys2Proof.Machine.execThermalWarn now sensor t s
  | .thermalTrip now sensor t => Sys2Proof.Machine.execThermalTrip now sensor t s
  | .railWarn now rail mv => Sys2Proof.Machine.execRailWarn now rail mv s
  | .undervoltageReset now rail mv => Sys2Proof.Machine.execUndervoltageReset now rail mv s
  | .powerOver now w => Sys2Proof.Machine.execPowerOver now w s
  | .powerOnReset now => Sys2Proof.Machine.execPowerOnReset now s
  | .fullReset now pwrgood => Sys2Proof.Machine.execFullReset now pwrgood s
  | .resetRelease now => Sys2Proof.Machine.execResetRelease now s
  | .bootRetry now => Sys2Proof.Machine.execBootRetry now s
  | .firmwareReady now => Sys2Proof.Machine.execFirmwareReady now s
  | .watchdogExpire now errs => Sys2Proof.Machine.execWatchdogExpire now errs s
  | .trialConfirm now => Sys2Proof.Machine.execTrialConfirm now s
  | .coreFault now n errs => Sys2Proof.Machine.execCoreFault now n errs s
  | .mgmtReset now => Sys2Proof.Machine.execMgmtReset now s
  | .datapathReset now => Sys2Proof.Machine.execDatapathReset now s
  | .datapathResetDone now => Sys2Proof.Machine.execDatapathResetDone now s
  | .programOwner now index => Sys2Proof.Machine.execProgramOwner now index s
  | .programRkey now index => Sys2Proof.Machine.execProgramRkey now index s
  | .revokeFkey now index => Sys2Proof.Machine.execRevokeFkey now index s
  | .revokeRkey now index => Sys2Proof.Machine.execRevokeRkey now index s
  | .fuseProgramDone now => Sys2Proof.Machine.execFuseProgramDone now s
  | .vatHardFault now v unit err => Sys2Proof.Machine.execVatHardFault now v unit err s
  | .vatDrainEnd now v err => Sys2Proof.Machine.execVatDrainEnd now v err s
  | .vatSpareTestEnd now v pass => Sys2Proof.Machine.execVatSpareTestEnd now v pass s
  | .sliceSwapSwitchover now pass unit => Sys2Proof.Machine.execSliceSwapSwitchover now pass unit s
  | .wireSpareSwitch now g => Sys2Proof.Machine.execWireSpareSwitch now g s
  | .deferredRowRepair now mac row => Sys2Proof.Machine.execDeferredRowRepair now mac row s
  | .segmentMoveComplete now c fail => Sys2Proof.Machine.execSegmentMoveComplete now c fail s
  | .selftestComplete now handle data => Sys2Proof.Machine.execSelftestComplete now handle data s
  | .healthDecay now => Sys2Proof.Machine.execHealthDecay now s
  | .hsRelease now kind n => Sys2Proof.Machine.execHsRelease now kind n s
  | .pmClear now pu => Sys2Proof.Machine.execPmClear now pu s
  | .telemetryReport now => Sys2Proof.Machine.execTelemetryReport now s
  | .ringDump now => Sys2Proof.Machine.execRingDump now s
  | .flightFreeze now => Sys2Proof.Machine.execFlightFreeze now s
  | .patrolScrub now c addr burst newer => Sys2Proof.Machine.execPatrolScrub now c addr burst newer s
  | .zqCalibration now => Sys2Proof.Machine.execZqCalibration now s
  | .imgCommitComplete now ok => Sys2Proof.Machine.execImgCommitComplete now ok s
  | .railLeavesTolerance now rail => Sys2Proof.Machine.execRailLeavesTolerance now rail s
  | .announceReceiptTimeout now => Sys2Proof.Machine.execAnnounceReceiptTimeout now s

end Sys2Proof.Machine
end

