-- ==== Sys2Proof/Safety.lean ====
section
/-! DEFINITION. What holds of the state at every step, and the terms that the statements use. -/
namespace Sys2Proof.Machine

/-- Fuses that blowing can make (spec/17_boot_security.md R590): the minimum security versions and the masks of revoked keys stay within their fields, and a device
that is not owned has no owner key. -/
def Fuses.legal (u : Fuses) : Bool := u.fwMin ≤ 64 && u.rcpMin ≤ 64 && u.fRev < 16 && u.rRev < 16 && (u.owned || u.owner = [])

/-- One set of fuses comes from another by blowing alone: nothing that was blown is undone (R590). -/
def Fuses.le (u v : Fuses) : Prop :=
  (u.owned = true → v.owned = true ∧ v.owner = u.owner) ∧ (u.rkey2 ≠ [] → v.rkey2 = u.rkey2) ∧ (u.rkey3 ≠ [] → v.rkey3 = u.rkey3) ∧
    u.fwMin ≤ v.fwMin ∧ u.rcpMin ≤ v.rcpMin ∧ Nat.land u.fRev v.fRev = u.fRev ∧ Nat.land u.rRev v.rRev = u.rRev

/-- A fuse operation in progress that programs a key names one that is not fused yet (R595). -/
def State.fuseFresh (s : State) : Bool :=
  match s.dev.mgmt.fuseBusy with
  | some (1, _, _) => !s.fuse.owned
  | some (2, index, _) => if index = 2 then s.fuse.rkey2 = [] else s.fuse.rkey3 = []
  | _ => true

/-- The state after a command that leaves the device as `d`: what follows of itself at the end of a step has followed. -/
def State.after (s : State) (d : Dev) : State := { s with dev := d.settle s.fuse }

/-- The device `e` is `d` but for the words of the registers in a list: every other register, every counter and all else the device holds are as they were. -/
def Dev.RegsOnly (l : List Nat) (d e : Dev) : Prop :=
  (∀ a, a ∉ l → e.reg a = d.reg a) ∧ e.csr.ctrs = d.csr.ctrs ∧ e.csr.rwb = d.csr.rwb ∧ e.csr.snap = d.csr.snap ∧ e.csr.latch = d.csr.latch ∧ e.csr.armBy = d.csr.armBy ∧
    { e with csr := d.csr } = d

/-- A device in which nothing waits at the end of a step: no packet, no port with a turn or deficit, no automatic action, no frame or
announcement, no open session, no wake,
no access to LPDDR6. -/
def Dev.quiet (d : Dev) : Bool :=
  d.core.pkts.isEmpty && d.core.tx.isEmpty && d.faults.todo.isEmpty && d.mgmt.inbox.isEmpty && d.time.inbox.isEmpty && (d.mgmt.sess.all fun s => s.state ≠ 2)
    && d.pwState ≠ 3 && d.ddr.late.isEmpty && decide (d.seen = {})

/-- Every field of a header lies within its width (spec/02_fabric_protocol.md R55, R56); without X the fields of the extension are zero. -/
def Hdr.fits (h : Hdr) : Bool :=
  h.version < 16 && h.vc < 8 && h.epoch < 4 && h.part < 4096 && h.hop < 16 && h.dest < 2 ^ 18 && h.plen < 2 ^ 14 && h.src < 2 ^ 18 && h.sub < 64
    && h.kind < 256 && h.stream < 2 ^ 18 && h.chunk < 2 ^ 24
    && (if h.x then h.off < 2 ^ 46 && h.anchor < 1024 && h.ofmt < 32 && h.rank < 2 ^ 18 && h.launch < 2 ^ 40
        else h.off = 0 && h.anchor = 0 && h.ofmt = 0 && h.rank = 0 && h.launch = 0)

/-- Contributions (header and payload) added into a context one after another (spec/08_vat_arithmetic.md R276). -/
def addAll (c : Ctx) (l : List (Hdr × List Byte)) : Ctx := l.foldl (fun c x => (addElems c x.1 x.2).1) c

end Sys2Proof.Machine

namespace Sys2Proof

/-- What an operation of the UCP names: session, SEQ, opcode, body (spec/14_control_protocol.md R491). -/
def Instr.ucp : Instr → Option (Nat × Nat × Nat × List Byte)
  | .deviceInfo n seq body => some (n, seq, 0x0001, body)
  | .sessionClose n seq body => some (n, seq, 0x0002, body)
  | .sessionFlush n seq body => some (n, seq, 0x0003, body)
  | .sessionHistory n seq body => some (n, seq, 0x0004, body)
  | .eventSubscribe n seq body => some (n, seq, 0x0005, body)
  | .nopCommand n seq body => some (n, seq, 0x0006, body)
  | .csrRead n seq body _ => some (n, seq, 0x0101, body)
  | .csrWrite n seq body => some (n, seq, 0x0102, body)
  | .csrRmw n seq body _ => some (n, seq, 0x0103, body)
  | .csrPoll n seq body _ => some (n, seq, 0x0104, body)
  | .tblRead n seq body => some (n, seq, 0x0201, body)
  | .tblWrite n seq body => some (n, seq, 0x0202, body)
  | .tblInvalidate n seq body => some (n, seq, 0x0203, body)
  | .bankCopy n seq body => some (n, seq, 0x0204, body)
  | .emInsert n seq body => some (n, seq, 0x0205, body)
  | .emDelete n seq body => some (n, seq, 0x0206, body)
  | .emFind n seq body => some (n, seq, 0x0207, body)
  | .emFlush n seq body => some (n, seq, 0x0208, body)
  | .tblWriteAll n seq body => some (n, seq, 0x0209, body)
  | .ceRead n seq body => some (n, seq, 0x0301, body)
  | .ceWrite n seq body => some (n, seq, 0x0302, body)
  | .ceInvalidate n seq body => some (n, seq, 0x0303, body)
  | .partitionAbort n seq body => some (n, seq, 0x0304, body)
  | .ceStatus n seq body => some (n, seq, 0x0305, body)
  | .portStatus n seq body => some (n, seq, 0x0401, body)
  | .portEnable n seq body => some (n, seq, 0x0402, body)
  | .portQuiesce n seq body => some (n, seq, 0x0403, body)
  | .indigoSet n seq body => some (n, seq, 0x0404, body)
  | .laneStatus n seq body => some (n, seq, 0x0405, body)
  | .slotCtrl n seq body => some (n, seq, 0x0406, body)
  | .timeStatus n seq body => some (n, seq, 0x0501, body)
  | .tpoArm n seq body => some (n, seq, 0x0503, body)
  | .tpoCancel n seq body => some (n, seq, 0x0504, body)
  | .portHold n seq ids => some (n, seq, 0x0601, Machine.Dev.maintBody 1 ids)
  | .laserService n seq ids => some (n, seq, 0x0601, Machine.Dev.maintBody 2 ids)
  | .oeSelftest n seq ids => some (n, seq, 0x0601, Machine.Dev.maintBody 3 ids)
  | .vatRetire n seq ids => some (n, seq, 0x0601, Machine.Dev.maintBody 4 ids)
  | .sliceSwap n seq ids => some (n, seq, 0x0601, Machine.Dev.maintBody 5 ids)
  | .ddrRetire n seq ids => some (n, seq, 0x0601, Machine.Dev.maintBody 6 ids)
  | .bankSelftest n seq ids => some (n, seq, 0x0601, Machine.Dev.maintBody 7 ids)
  | .maintStop n seq body => some (n, seq, 0x0602, body)
  | .maintStatus n seq body => some (n, seq, 0x0603, body)
  | .errRead n seq body => some (n, seq, 0x0604, body)
  | .errAck n seq body => some (n, seq, 0x0605, body)
  | .fwStatus n seq body => some (n, seq, 0x0701, body)
  | .imgBegin n seq body => some (n, seq, 0x0702, body)
  | .imgData n seq body => some (n, seq, 0x0703, body)
  | .firmwareImageCommit n seq => some (n, seq, 0x0704, [1, 0, 0, 0])
  | .recipeLoad n seq => some (n, seq, 0x0704, [2, 0, 0, 0])
  | .fwActivate n seq body _ => some (n, seq, 0x0705, body)
  | .getCerts n seq body => some (n, seq, 0x0706, body)
  | .attest n seq body => some (n, seq, 0x0707, body)
  | .credRead n seq body => some (n, seq, 0x0708, body)
  | .credWrite n seq body => some (n, seq, 0x0709, body)
  | .svnCommitFirmware n seq => some (n, seq, 0x070A, [1, 0, 0, 0])
  | .svnCommitRecipe n seq => some (n, seq, 0x070A, [2, 0, 0, 0])
  | .ctrSnapshot n seq body => some (n, seq, 0x0801, body)
  | .telemSubscribe n seq body => some (n, seq, 0x0802, body)
  | .flightRead n seq body _ => some (n, seq, 0x0803, body)
  | .powerStatus n seq body => some (n, seq, 0x0901, body)
  | .thermalStatus n seq body => some (n, seq, 0x0903, body)
  | .umberEnter n seq body => some (n, seq, 0x0902, body)
  | _ => none

end Sys2Proof
end

