-- ==== Sys2Proof/WellFormed.lean ====
section
/-! DEFINITION. Which commands name elements that the device has (spec/01_architecture.md, spec/00_scope.md): ports 0 to 511, port codes 0 to 1,023, pipelines and
vat banks 0 to 15, logical vats 0 to 1,535, physical vats 0 to 1,599, slices 0 to 16, session slots 0 to 7, and for registers a word address in a
block of spec/14_control_protocol.md R499. -/
namespace Sys2Proof
open Machine Machine.Dev

/-- Whether every element that a command names exists. -/
def Instr.wellFormed : Instr → Bool
  | .beatBoundary _ => true
  | .registerWrite _ _ => true
  | .quiesceRequest _ q => q.ok
  | .quiesceRelease _ q => q.ok
  | .quiesceDrained _ q => q.ok
  | .forcedQuiesce _ q => q.ok
  | .mrdStage _ a _ => (match mrdAt a with | some (_, o) => a % 4 = 0 && (o = 0 || isItem o) | none => false)
  | .mrdClear _ g _ => g < 4
  | .mrdCancel _ g _ => g < 4
  | .mrdArm _ g _ _ => g < 4
  | .mordantGroupApply _ => true
  | .retireNow _ pl => pl < 16
  | .prevBankRetire _ pl => pl < 16
  | .refclkLost _ => true
  | .refclkRestored _ => true
  | .rowReceive _ c _ _ => c < 1024
  | .packetHeaderArrival _ c _ _ _ => c < 1024
  | .payloadEnd _ c _ _ _ => c < 1024
  | .emOverflowLookupDone _ _ _ => true
  | .emLearnApply _ pl _ => pl < 16
  | .emAgeOut _ part mac _ => part < 4096 && mac.length = 6
  | .fenceRelease _ _ => true
  | .fenceStallRelease _ _ => true
  | .crossbarSlot _ full errs => full.all (· < 16) && errs.all (fun e => e.slice < 17 && e.unit < 32 && e.cell < 12)
  | .sliceHardFault _ x => x < 17
  | .ageLimit _ _ _ => true
  | .egressChoose _ c => c < 1024
  | .launchTimeReached _ c v => c < 1024 && v < 8
  | .transmitComplete _ c _ => c < 1024
  | .resultAdmit _ b _ => b < 16
  | .originatedAdmit _ _ => true
  | .gclGo _ c _ _ => c < 1024
  | .gclCancel _ c _ _ => c < 1024
  | .gclHandover _ => true
  | .gateIntervalExpiry _ c => c < 1024
  | .contributionAccept _ b _ => b < 16
  | .vatContribution _ lv _ => lv < 1536
  | .handlerStep _ lv => lv < 1536
  | .handlerFinal _ lv k _ => lv < 1536 && k < 64
  | .arrayOpComplete _ lv arr _ _ => lv < 1536 && arr < 4
  | .chunkTimeout _ lv k _ _ => lv < 1536 && k < 64
  | .recordEntryExpire _ lv _ _ => lv < 1536
  | .launchAckAccept _ b _ => b < 16
  | .launchTimeout _ b _ _ _ => b < 16
  | .launchSlotFree _ b _ _ => b < 16
  | .ceAbortGo _ part => part < 4096
  | .partitionAbortRun _ _ => true
  | .ceTwRead _ _ => true
  | .ceTwWrite _ _ => true
  | .ceTwInvalidate _ _ => true
  | .ceWindowComplete _ _ => true
  | .twRead _ pl _ _ => pl < 16
  | .twWrite _ pl _ _ => pl < 16
  | .twInvalidate _ pl _ _ => pl < 16
  | .twBankCopy _ pl _ _ => pl < 16
  | .twEmInsert _ pl => pl < 16
  | .twEmDelete _ pl => pl < 16
  | .twEmFind _ pl => pl < 16
  | .twEmFlush _ pl => pl < 16
  | .tableWindowComplete _ pl _ _ => pl < 16
  | .seqNop lv _ _ => lv < 1536
  | .seqDone lv _ _ => lv < 1536
  | .seqSetf lv _ _ => lv < 1536
  | .seqLi lv _ _ => lv < 1536
  | .seqLui lv _ _ => lv < 1536
  | .seqAdd lv _ _ => lv < 1536
  | .seqSub lv _ _ => lv < 1536
  | .seqAnd lv _ _ => lv < 1536
  | .seqOr lv _ _ => lv < 1536
  | .seqXor lv _ _ => lv < 1536
  | .seqShl lv _ _ => lv < 1536
  | .seqShr lv _ _ => lv < 1536
  | .seqSar lv _ _ => lv < 1536
  | .seqMul lv _ _ => lv < 1536
  | .seqMax lv _ _ => lv < 1536
  | .seqMin lv _ _ => lv < 1536
  | .seqAddi lv _ _ => lv < 1536
  | .seqSubi lv _ _ => lv < 1536
  | .seqAndi lv _ _ => lv < 1536
  | .seqOri lv _ _ => lv < 1536
  | .seqXori lv _ _ => lv < 1536
  | .seqShli lv _ _ => lv < 1536
  | .seqShri lv _ _ => lv < 1536
  | .seqSari lv _ _ => lv < 1536
  | .seqMuli lv _ _ => lv < 1536
  | .seqMaxi lv _ _ => lv < 1536
  | .seqMini lv _ _ => lv < 1536
  | .seqGets lv _ _ => lv < 1536
  | .seqLdw lv _ _ => lv < 1536
  | .seqStw lv _ _ => lv < 1536
  | .seqBra lv _ _ => lv < 1536
  | .seqBeq lv _ _ => lv < 1536
  | .seqBne lv _ _ => lv < 1536
  | .seqBlt lv _ _ => lv < 1536
  | .seqBge lv _ _ => lv < 1536
  | .seqAop lv _ _ => lv < 1536
  | .seqWait lv _ _ => lv < 1536
  | .seqOut lv _ _ => lv < 1536
  | .seqSend lv _ _ => lv < 1536
  | .seqRecv lv _ _ => lv < 1536
  | .recipeBudgetExpire _ lv _ => lv < 1536
  | .messageDeliver _ src dst => src < 1536 && dst < 1536
  | .messageExpire _ lv => lv < 1536
  | .lcsSend _ c _ _ => c < 1024
  | .lcsReceive _ c _ _ => c < 1024
  | .lcsTimeoutXoff _ c => c < 1024
  | .lcsTimeoutDown _ c => c < 1024
  | .train _ c _ _ _ _ _ => c < 1024
  | .echoReq _ c _ => c < 1024
  | .echoResp _ c _ _ => c < 1024
  | .feature _ c _ => c < 1024
  | .time _ c _ _ _ _ _ _ => c < 1024
  | .move _ c _ _ _ _ => c < 1024
  | .moveAck _ c _ _ _ => c < 1024
  | .restore _ c _ _ _ _ => c < 1024
  | .restoreAck _ c _ _ _ => c < 1024
  | .narrow _ c _ _ _ _ => c < 1024
  | .narrowAck _ c _ _ _ => c < 1024
  | .refuse _ c _ _ _ => c < 1024
  | .laneRequest _ c code _ _ _ _ => c < 1024 && (code = 1 || code = 3 || code = 5)
  | .down _ c => c < 1024
  | .laneEffectRow _ c _ => c < 1024
  | .laneAckTimeout _ c => c < 1024
  | .laneLost _ p j _ why => p < 512 && j < 9 && why < 4
  | .holdoffExpire _ c => c < 1024
  | .linkEnable _ p => p < 512
  | .linkDisable _ p => p < 512
  | .lightArrival _ p j => p < 512 && j < 9
  | .lightExit _ c => c < 1024
  | .trainingCodeword _ c j _ => c < 1024 && j < 9
  | .trainingTimeout _ c => c < 1024
  | .indigoEnable _ n a b => n < 256 && a < 512 && b < 512
  | .indigoDisable _ n => n < 256
  | .indigoActive _ n => n < 256
  | .indigoCodewordPass _ n _ j _ _ _ => n < 256 && j < 9
  | .identityRead _ p j _ _ => p < 512 && j < 9
  | .identityTimeout _ p j _ => p < 512 && j < 9
  | .relockAttemptEnd _ p j _ _ => p < 512 && j < 9
  | .marginEval _ powers limits => powers.all (fun x => x.p < 512 && x.j < 9) && limits.all (fun x => x.1 < 16)
  | .calVisitStart _ p j => p < 512 && j < 9
  | .calDwellEnd _ => true
  | .slotEnable _ k _ => k < 16
  | .moduleInserted _ k => k < 16
  | .moduleRemoved _ k => k < 16
  | .laserReady _ k _ => k < 16
  | .sourceLost _ => true
  | .parentSwitch _ => true
  | .timeAnnounceSend _ => true
  | .timeAnnounceReceive _ c _ => c < 1024
  | .setNow _ => true
  | .setAtPps _ => true
  | .ppsEdge _ => true
  | .sync _ _ _ _ _ _ _ => true
  | .followUp _ _ _ _ _ _ => true
  | .delayReq _ _ _ _ _ => true
  | .delayResp _ _ _ _ _ _ _ => true
  | .announce _ _ _ => true
  | .ptpMessageSend _ => true
  | .tpoGo _ n _ _ => n < 4
  | .tpoCtrlCancel _ n _ _ => n < 4
  | .tpoPulse _ n => n < 4
  | .tpoPulseEnd _ n => n < 4
  | .mgmtPortLinkChange _ _ _ _ => true
  | .mgmtFrameReceive _ _ _ => true
  | .neighborSolicitation _ mac _ => mac.length = 6
  | .echoRequest _ mac _ => mac.length = 6
  | .hello _ ep _ => ep.kind < 3
  | .finish _ ep _ => ep.kind < 3
  | .helloTimeout _ n => n < 8
  | .command _ ep _ => ep.kind < 3
  | .eventAck _ ep _ => ep.kind < 3
  | .eventResend _ n => n < 8
  | .sessionIdleTimeout _ n => n < 8
  | .deviceInfo n _ _ => n < 8
  | .sessionClose n _ _ => n < 8
  | .sessionFlush n _ _ => n < 8
  | .sessionHistory n _ _ => n < 8
  | .eventSubscribe n _ _ => n < 8
  | .nopCommand n _ _ => n < 8
  | .csrRead n _ _ _ => n < 8
  | .csrWrite n _ _ => n < 8
  | .csrRmw n _ _ _ => n < 8
  | .csrPoll n _ _ _ => n < 8
  | .csrPollTimeout _ n _ => n < 8
  | .tblRead n _ _ => n < 8
  | .tblWrite n _ _ => n < 8
  | .tblInvalidate n _ _ => n < 8
  | .bankCopy n _ _ => n < 8
  | .emInsert n _ _ => n < 8
  | .emDelete n _ _ => n < 8
  | .emFind n _ _ => n < 8
  | .emFlush n _ _ => n < 8
  | .tblWriteAll n _ _ => n < 8
  | .ceRead n _ _ => n < 8
  | .ceWrite n _ _ => n < 8
  | .ceInvalidate n _ _ => n < 8
  | .partitionAbort n _ _ => n < 8
  | .ceStatus n _ _ => n < 8
  | .portStatus n _ _ => n < 8
  | .portEnable n _ _ => n < 8
  | .portQuiesce n _ _ => n < 8
  | .indigoSet n _ _ => n < 8
  | .laneStatus n _ _ => n < 8
  | .slotCtrl n _ _ => n < 8
  | .timeStatus n _ _ => n < 8
  | .tpoArm n _ _ => n < 8
  | .tpoCancel n _ _ => n < 8
  | .portHold n _ ids => n < 8 && ids.length < 65536 && ids.all (· < 2 ^ 32)
  | .laserService n _ ids => n < 8 && ids.length < 65536 && ids.all (· < 2 ^ 32)
  | .oeSelftest n _ ids => n < 8 && ids.length < 65536 && ids.all (· < 2 ^ 32)
  | .vatRetire n _ ids => n < 8 && ids.length < 65536 && ids.all (· < 2 ^ 32)
  | .sliceSwap n _ ids => n < 8 && ids.length < 65536 && ids.all (· < 2 ^ 32)
  | .ddrRetire n _ ids => n < 8 && ids.length < 65536 && ids.all (· < 2 ^ 32)
  | .bankSelftest n _ ids => n < 8 && ids.length < 65536 && ids.all (· < 2 ^ 32)
  | .maintStop n _ _ => n < 8
  | .maintStatus n _ _ => n < 8
  | .errRead n _ _ => n < 8
  | .errAck n _ _ => n < 8
  | .erAck _ k => k < 64
  | .fwStatus n _ _ => n < 8
  | .imgBegin n _ _ => n < 8
  | .imgData n _ _ => n < 8
  | .firmwareImageCommit n _ => n < 8
  | .recipeLoad n _ => n < 8
  | .fwActivate n _ _ _ => n < 8
  | .getCerts n _ _ => n < 8
  | .attest n _ _ => n < 8
  | .credRead n _ _ => n < 8
  | .credWrite n _ _ => n < 8
  | .svnCommitFirmware n _ => n < 8
  | .svnCommitRecipe n _ => n < 8
  | .ctrSnapshot n _ _ => n < 8
  | .telemSubscribe n _ _ => n < 8
  | .flightRead n _ _ _ => n < 8
  | .powerStatus n _ _ => n < 8
  | .thermalStatus n _ _ => n < 8
  | .umberEnter n _ _ => n < 8
  | .umberEntryComplete _ => true
  | .wakeReqWrite _ _ => true
  | .grantInstant _ => true
  | .rampStep _ _ => true
  | .wakeComplete _ bad => bad.all (· < 64)
  | .bistDone _ _ vats slices _ => vats.all (fun x => x.1 < 1600) && slices.all (fun x => x.1 < 17)
  | .thermalWarn _ sensor _ => sensor < 96
  | .thermalTrip _ sensor _ => sensor < 96
  | .railWarn _ rail _ => rail < 8
  | .undervoltageReset _ rail _ => rail < 8
  | .powerOver _ _ => true
  | .powerOnReset _ => true
  | .fullReset _ _ => true
  | .resetRelease _ => true
  | .bootRetry _ => true
  | .firmwareReady _ => true
  | .watchdogExpire _ _ => true
  | .trialConfirm _ => true
  | .coreFault _ n _ => n < 5
  | .mgmtReset _ => true
  | .datapathReset _ => true
  | .datapathResetDone _ => true
  | .programOwner _ _ => true
  | .programRkey _ _ => true
  | .revokeFkey _ _ => true
  | .revokeRkey _ _ => true
  | .fuseProgramDone _ => true
  | .vatHardFault _ v _ _ => v < 1600
  | .vatDrainEnd _ v _ => v < 1600
  | .vatSpareTestEnd _ v _ => v < 1600
  | .sliceSwapSwitchover _ _ _ => true
  | .wireSpareSwitch _ _ => true
  | .deferredRowRepair _ _ _ => true
  | .segmentMoveComplete _ c _ => c < 64
  | .selftestComplete _ _ _ => true
  | .healthDecay _ => true
  | .hsRelease _ _ _ => true
  | .pmClear _ pu => pmUnits.contains pu
  | .telemetryReport _ => true
  | .ringDump _ => true
  | .flightFreeze _ => true
  | .patrolScrub _ c _ burst _ => c < 64 && burst.length = 36 && burst.all (· < 256)
  | .zqCalibration _ => true
  | .imgCommitComplete _ _ => true
  | .railLeavesTolerance _ rail => rail < 8
  | .announceReceiptTimeout _ => true

/-- The same as a proposition. -/
abbrev Instr.WellFormed (i : Instr) : Prop := i.wellFormed = true

end Sys2Proof
end

