-- ==== Sys2Proof/Certificates/Slice0/Obligations.lean ====
section
/-! DEFINITION. The statements for the provers, each a proposition about the model; OBLIGATIONS.json says of each which rule of spec/ it formalises or rests on. `s.after d` is
the state in which the device is `d` once what follows of itself at the end of a step has followed. -/

section
open Sys2Proof Sys2Proof.Machine

/-! Commands and the queue. -/

/-- A step with a command at the front of the queue carries that command out on the state with the queue's rest. -/
def Obligations.FrontCommandIsRun : Prop :=
  ∀ (c : Instr) (s : State), step { s with pending := c :: s.pending } = exec c s

/-- On an empty queue one local count passes (the model's own choice, log entry 1: the spec gives the block a clock and the table no row for a tick), with the beat boundary
that falls on it; the step stops only where that boundary puts into effect direct writes to RWB fields or a Mordant group whose results the spec calls unpredictable (R7; that
such an action stops, and at that boundary, is the model's reading, log entry 9). While a full reset lasts nothing changes. -/
def Obligations.EmptyQueueLetsOneCountPass : Prop :=
  ∀ s : State, s.pending = [] →
    (s.dev.inReset = false → s.dev.mrdTrap (s.dev.lc + 1) = false → step s = .next (s.after (s.dev.advance (s.dev.lc + 1)))) ∧
    (s.dev.inReset = false → s.dev.mrdTrap (s.dev.lc + 1) = true → step s = .fault .unpredictable) ∧
    (s.dev.inReset = true → step s = .next s)

/-- A command stops in one way only: because the spec calls its results unpredictable (spec/00_scope.md R7). None is refused, and none changes the queue of the commands that wait
behind it. A command for an element that the device does not have does nothing (the model's own choice, log entry 10). -/
def Obligations.CommandsStopOnlyByName : Prop :=
  ∀ (c : Instr) (s : State), (c.wellFormed = false → exec c s = .next s) ∧
    ((∃ t, exec c s = .next t ∧ t.pending = s.pending) ∨ exec c s = .fault .unpredictable)

/-- While a full reset lasts, every command but the pins, supplies, sensors and clocks of reset leaves the state as it is. R573 lists what each reset clears; that these nine
commands act in reset, of which the two of LM_PRESENT change PRESENT alone, is the model's reading (log entry 46), and that for every other one the local count stands too is its choice (log entry 1). -/
def Obligations.NothingHappensInFullReset : Prop :=
  ∀ (c : Instr) (s : State), s.dev.inReset = true → (∀ now, c ≠ .powerOnReset now) → (∀ now p, c ≠ .fullReset now p) →
    (∀ now, c ≠ .resetRelease now) → (∀ now, c ≠ .refclkLost now) → (∀ now, c ≠ .refclkRestored now) → (∀ now i t, c ≠ .thermalTrip now i t) →
    (∀ now r mv, c ≠ .undervoltageReset now r mv) → (∀ now k, c ≠ .moduleInserted now k) → (∀ now k, c ≠ .moduleRemoved now k) → exec c s = .next s

/-- Time that passes within a beat changes the local count, which does not go back, counters, and the notes that the queues keep for their report: nothing else. -/
def Obligations.TimePassingOnlyCounts : Prop :=
  ∀ (d : Dev) (now : Nat), ∃ m q, d.tick now =
    { d with csr := { d.csr with ctrs := m }, core := { d.core with qstat := q }, time := { d.time with lc := max d.lc now } }

/-- In a device in which nothing waits, what follows of itself at the end of a step is flow control alone: the words of SC_XOFF, the count of headroom stops, the note of
the last POOL_WARN and the vectors that the thresholds give can change, and nothing else; while the gated blocks stand still (`Dev.powered`, of a wake the
model's choice of log entry 82) nothing changes at all. -/
def Obligations.QuietDeviceUpdatesFlowControlOnly : Prop :=
  ∀ (d : Dev) (u : Fuses), d.quiet = true → (d.powered = false → d.settle u = d) ∧
    ∃ w b x m, Dev.RegsOnly ((List.range 1024).map R.SC_XOFF)
      { d with core := { d.core with warn := w, warnBeat := b, xoffThr := x }, csr := { d.csr with ctrs := m } } (d.settle u) ∧
      ∀ a, a ≠ R.SC_HR_STOP → Sparse.get 0 m a = d.ctr a

/-! Fuses (spec/17_boot_security.md R590 to R595). -/

/-- No command blows a fuse but the end of a fuse operation and SVN_COMMIT. -/
def Obligations.OnlyFuseCommandsBlowFuses : Prop :=
  ∀ (c : Instr) (s t : State), exec c s = .next t → (∀ now, c ≠ .fuseProgramDone now) → (∀ n seq, c ≠ .svnCommitFirmware n seq) →
    (∀ n seq, c ≠ .svnCommitRecipe n seq) → t.fuse = s.fuse

/-- Every step keeps the fuses within their fields: minimum security versions of 0 to 64, four bits of revoked keys of each kind, an owner key only on an owned device. -/
def Obligations.FusesStayLegal : Prop :=
  ∀ s t : State, s.fuse.legal = true → step s = .next t → t.fuse.legal = true

/-- The fuses of the reset state are legal. -/
def Obligations.FusesLegalAtReset : Prop := State.reset.fuse.legal = true

/-- No step undoes a blown fuse: an owned device stays owned with its owner key, recipe keys 2 and 3 stay as they were fused, minimum security versions never fall,
revoked keys stay revoked. It rests on an invariant that every step keeps: a fuse operation in progress that programs a key names one that is not fused yet. -/
def Obligations.FusesAreNeverCleared : Prop :=
  ∀ s t : State, s.fuseFresh = true → step s = .next t → s.fuse.le t.fuse ∧ t.fuseFresh = true

/-- SVN_COMMIT that begins and passes the checks of every command: kind 1 raises FW_MIN to the lower of the two slots' security versions, never lowering it, and replies with
the minimum now in force; kind 2 does the same with RCP_MIN and the loaded recipe image, and is refused with DENIED and detail STATE when none is loaded (R591). That a
failed or empty slot counts as the running image is the model's reading (log entry 48). Security versions run from 0 to 64 (R582, R590): what the model does with one above
64 (log entry 59) is left out by the premises. -/
def Obligations.SvnCommitRaisesTheMinimum : Prop :=
  ∀ (s : State) (n seq : Nat), s.dev.inReset = false → n < 8 →
    (s.dev.cmdRuns s.fuse n seq 0x070A [1, 0, 0, 0] = true → s.dev.slotSvn 0 ≤ 64 → s.dev.slotSvn 1 ≤ 64 →
      let v := max s.fuse.fwMin (min (s.dev.slotSvn 0) (s.dev.slotSvn 1))
      let u := { s.fuse with fwMin := v }
      exec (.svnCommitFirmware n seq) s = .next { s with
        fuse := u
        dev := ((s.dev.begin' n seq 0x070A [1, 0, 0, 0]).reply n seq 0x070A 0 0 (beBytes v 4)).settle u }) ∧
    (s.dev.cmdRuns s.fuse n seq 0x070A [2, 0, 0, 0] = true → s.dev.vat.image ≠ [] → leNat (slice s.dev.vat.image 8 4) ≤ 64 →
      let v := max s.fuse.rcpMin (leNat (slice s.dev.vat.image 8 4))
      let u := { s.fuse with rcpMin := v }
      exec (.svnCommitRecipe n seq) s = .next { s with
        fuse := u
        dev := ((s.dev.begin' n seq 0x070A [2, 0, 0, 0]).reply n seq 0x070A 0 0 (beBytes v 4)).settle u }) ∧
    (s.dev.cmdRuns s.fuse n seq 0x070A [2, 0, 0, 0] = true → s.dev.vat.image = [] →
      exec (.svnCommitRecipe n seq) s =
        .next (s.after ((s.dev.begin' n seq 0x070A [2, 0, 0, 0]).reply n seq 0x070A 3 4 [])))

/-- A fuse operation that R595 refuses sets REFUSED and changes nothing else than the operation and index written; one that it does not refuse sets BUSY and keeps the
operation, its index and the staged key. That a revocation of an index from 4 to 15, which names no key, runs too is the model's reading (log entry 59). -/
def Obligations.FuseOperationRefusedOrBusy : Prop :=
  ∀ (s : State) (now op index : Nat), s.dev.inReset = false → 1 ≤ op → op ≤ 4 → index < 16 → s.dev.mrdTrap now = false →
    let c : Instr := if op = 1 then .programOwner now index else if op = 2 then .programRkey now index
      else if op = 3 then .revokeFkey now index else .revokeRkey now index
    let d := s.dev.advance now
    d.on R.SB_FUSECMD F.SB_FUSECMD_BUSY = false →
    (d.fuseRefused s.fuse op index = true → ∃ e, exec c s = .next (s.after e) ∧ Dev.RegsOnly [R.SB_FUSECMD] d e ∧
      e.on R.SB_FUSECMD F.SB_FUSECMD_REFUSED = true ∧ e.on R.SB_FUSECMD F.SB_FUSECMD_BUSY = false) ∧
    (d.fuseRefused s.fuse op index = false → ∃ e, exec c s = .next (s.after e) ∧
      Dev.RegsOnly [R.SB_FUSECMD] { d with mgmt := { d.mgmt with fuseBusy := some (op, index, d.stagedKey) } } e ∧
      e.on R.SB_FUSECMD F.SB_FUSECMD_BUSY = true)

/-- A fuse operation that ends: BUSY clears, no operation is in progress any more, and exactly the fuse it names is blown; in particular a revocation sets its key's bit and
leaves the other keys' bits. -/
def Obligations.FuseOperationBlowsItsFuse : Prop :=
  ∀ (s : State) (now index : Nat) (key : List Byte), s.dev.inReset = false → index < 4 → s.dev.mrdTrap now = false →
    let d := s.dev.advance now
    let blows (u : Fuses) : Prop := ∃ e : Dev, exec (.fuseProgramDone now) s = .next { s with fuse := u, dev := e.settle u } ∧
      e.on R.SB_FUSECMD F.SB_FUSECMD_BUSY = false ∧ e.mgmt.fuseBusy = none
    (d.mgmt.fuseBusy = some (1, index, key) → blows { s.fuse with owned := true, owner := key }) ∧
    (d.mgmt.fuseBusy = some (2, 2, key) → blows { s.fuse with rkey2 := key }) ∧
    (d.mgmt.fuseBusy = some (2, 3, key) → blows { s.fuse with rkey3 := key }) ∧
    (d.mgmt.fuseBusy = some (3, index, key) → ∃ m, blows { s.fuse with fRev := m } ∧ ∀ k, bit m k = (bit s.fuse.fRev k || k == index)) ∧
    (d.mgmt.fuseBusy = some (4, index, key) → ∃ m, blows { s.fuse with rRev := m } ∧ ∀ k, bit m k = (bit s.fuse.rRev k || k == index)) ∧
    (d.mgmt.fuseBusy = none → exec (.fuseProgramDone now) s = .next (s.after d))

/-! Packets, links and their encodings. -/

/-- While the gated blocks run (`Dev.powered`; of a wake from 14.0 ms on, log entry 82), the XOFF vector that each port code sends has zero in the bits of VC5 and VC6 (spec/04_switch_core.md R153): every step keeps this, and it holds at
reset. -/
def Obligations.XoffNeverSentForBestEffort : Prop :=
  let sent (d : Dev) (c v : Nat) : Bool := bit (d.fld (R.SC_XOFF c) F.SC_XOFF_XOFF_SENT) v
  let Inv (s : State) : Prop := s.dev.powered = true → ∀ c < 1024, sent s.dev c 5 = false ∧ sent s.dev c 6 = false
  Inv State.reset ∧ ∀ s t : State, Inv s → step s = .next t → Inv t

/-- A header whose fields lie within their widths reads back, from the bytes that carry it and whatever follows them, as it was sent, and its CRC is good
(spec/02_fabric_protocol.md R55, R56, R80). -/
def Obligations.HeaderReadsBackAsSent : Prop :=
  ∀ (h : Hdr) (rest : List Byte), h.fits = true → parseHdr (hdrOut h ++ rest) = h ∧ hdrCrcOk (hdrOut h ++ rest) = true

/-- A link control symbol reads back as it was formed, with a good CRC (spec/11_optical_links.md R376). -/
def Obligations.LinkControlSymbolReadsBack : Prop :=
  ∀ typ xoff first body : Nat, typ < 16 → xoff < 256 → first < 4096 → body < 256 →
    let w := lcsWord typ xoff first body
    bits w 39 36 = typ ∧ bits w 35 28 = xoff ∧ bits w 27 16 = first ∧ bits w 15 8 = body ∧ w < 2 ^ 40 ∧ lcsOk w = true

/-- A message that is scrambled and then descrambled from the same state comes out as it was, and both ends stand in the same state after it (R367). -/
def Obligations.DescramblingUndoesScrambling : Prop :=
  ∀ (msg : List Nat) (st : Nat), (∀ v ∈ msg, v < 1024) → scrMsg true (scrMsg false msg st).2 st = ((scrMsg false msg st).1, msg)

/-- A header whose CRC is bad admits no packet: it is counted in the pipeline's and the port's header CRC counters, and the port skips its stream until framing resumes
(spec/02_fabric_protocol.md R86 check 1, spec/11_optical_links.md R379). -/
def Obligations.BadHeaderCrcIsDiscardedAndCounted : Prop :=
  ∀ (s : State) (now c : Nat) (raw : List Byte), s.dev.inReset = false → s.dev.mrdTrap now = false → c < 1024 → hdrCrcOk raw = false →
    let d := s.dev.advance now
    (d.lk c).skip = false →
    ∃ e, exec (.packetHeaderArrival now c raw false none) s = .next (s.after e) ∧ e.core.pkts = d.core.pkts ∧ (e.lk c).skip = true ∧
      Sparse.find e.core.rx c = none ∧ (d.pwState = 2 → e.csr.ctrs = d.csr.ctrs) ∧ (d.pwState ≠ 2 →
      (d.ctr (R.PL_HDR_CRC (c / 64)) < 2 ^ 64 → e.ctr (R.PL_HDR_CRC (c / 64)) = (d.ctr (R.PL_HDR_CRC (c / 64)) + 1) % 2 ^ 64) ∧
      (d.ctr (R.P_HDR_CRC c) < 2 ^ 64 → e.ctr (R.P_HDR_CRC c) = (d.ctr (R.P_HDR_CRC c) + 1) % 2 ^ 64))

/-! Vat arithmetic (spec/08_vat_arithmetic.md) and the sequencer (spec/09_vat_programming.md). -/

/-- A value that a floating-point format holds exactly rounds to its own bits in that format, signed zeros, subnormals and infinities among them, and sets no SAT
(R263, R277, R278). -/
def Obligations.RoundingKeepsRepresentableValues : Prop :=
  ∀ code n : Nat, 1 ≤ code → code ≤ 5 → n < 2 ^ (1 + (ffmt code).eb + (ffmt code).fb) → isNaN code n = false →
    roundVal code (floatVal code n) = (n, false)

/-- A finite value m * 2^e of either sign converts to a tally at anchor A by the steps of R270: zero to 0; an exact m * 2^(e - A) as it is; otherwise the nearest
integer, the even one of two that are equally near; 2^31 - 1 or more becomes 2^31 - 1 and sets SAT; the sign is the value's. -/
def Obligations.TallyConversionFollowsItsSteps : Prop :=
  ∀ (A e : Int) (m : Nat) (neg : Bool),
    let out (t : Nat) : Int × Bool := if 2 ^ 31 - 1 ≤ t then (signed neg (2 ^ 31 - 1), true) else (signed neg t, false)
    (m = 0 → toTally A (.fin neg m e) = (0, false)) ∧
    (0 < m → A ≤ e → toTally A (.fin neg m e) = out (m * 2 ^ (e - A).toNat)) ∧
    (0 < m → e < A → ∃ t : Nat, toTally A (.fin neg m e) = out t ∧
      let k := 2 ^ (A - e).toNat
      2 * (t * k) ≤ 2 * m + k ∧ 2 * m ≤ 2 * (t * k) + k ∧ (2 * (t * k) = 2 * m + k ∨ 2 * m = 2 * (t * k) + k → t % 2 = 0))

/-- The vat adds tallies exactly: for the anchored recipes SUM, WSUM, SUMSQ and FXR, after up to 2^18 contributions each accumulator is the sum of the tallies that the
contributions brought to its element, and lies far within a 64-bit word (R276). -/
def Obligations.TalliesAddExactly : Prop :=
  ∀ (c : Ctx) (l : List (Hdr × List Byte)) (i : Nat), (c.recipe = 1 ∨ c.recipe = 3 ∨ c.recipe = 4 ∨ c.recipe = 5) → c.acc = [] → l.length ≤ 2 ^ 18 →
    i < c.elems →
      (addAll c l).acc.getD i 0 = (l.map fun x => (operand c x.1 x.2 i).1).sum ∧ ((addAll c l).acc.getD i 0).natAbs < 2 ^ 49

/-- The order in which contributions arrive does not matter: for the built-in recipes 0x1 to 0xC, contributions in any two orders leave the same context. -/
def Obligations.ContributionOrderDoesNotMatter : Prop :=
  ∀ (c : Ctx) (l m : List (Hdr × List Byte)), 1 ≤ c.recipe → c.recipe ≤ 12 → c.acc = [] → l.Perm m → addAll c l = addAll c m

/-- The arithmetic of the sequencer is that of 64-bit two's complement words (R323): ADD, SUB, AND, OR, XOR, SHL, SHR, SAR, MUL, MAX and MIN. -/
def Obligations.SequencerArithmeticIsTwosComplement : Prop :=
  ∀ x y : BitVec 64,
    let a := x.toNat
    let b := y.toNat
    alu 0 a b = (x + y).toNat ∧ alu 1 a b = (x - y).toNat ∧ alu 2 a b = (x &&& y).toNat ∧ alu 3 a b = (x ||| y).toNat ∧ alu 4 a b = (x ^^^ y).toNat ∧
      alu 5 a b = (x <<< (b % 64)).toNat ∧ alu 6 a b = (x >>> (b % 64)).toNat ∧ alu 7 a b = (x.sshiftRight (b % 64)).toNat ∧
      alu 8 a b = (x * y).toNat ∧ alu 9 a b = (if x.slt y then b else a) ∧ alu 10 a b = (if y.slt x then b else a)

/-- A register instruction of a running handler, when its word stands at the pc, the handler's BUDGET is not used up and the word reads without an uncorrectable
error: LI, LUI, the eleven operations of registers, the eleven with the immediate, and GETS set rd to the value that R323 gives, G0 staying zero (R317); the pc goes
to the next instruction, one cycle is used, and nothing else changes. -/
def Obligations.RegisterInstructionsSetTheirRegister : Prop :=
  ∀ (s : State) (lv : Nat) (r : Run) (c : Ctx) (err : Option DescErr), s.dev.inReset = false → lv < 1536 → s.dev.runOf lv = some r → s.dev.ctxAt lv r.slot = some c →
    r.cyc < s.dev.budgetOf c →
    let w := s.dev.imemAt r.pc
    iLegal w = true →
    let x := r.get (iRa w)
    let y := r.get (iRb w)
    let z := iSext w
    let done (v : Nat) : Res := .next (s.after ((s.dev.meeting err).putRun
      { r with g := if iRd w = 0 then r.g else r.g.set (iRd w) (v % 2 ^ 64), pc := (r.pc + 1) % 4096, cyc := r.cyc + 1 }))
    (iOp w = 0x08 → exec (.seqLi lv false err) s = done z) ∧
    (iOp w = 0x09 → exec (.seqLui lv false err) s = done (iImm w * 2 ^ 32 + r.get (iRd w) % 2 ^ 32)) ∧
    (iOp w = 0x10 → exec (.seqAdd lv false err) s = done (alu 0 x y)) ∧
    (iOp w = 0x11 → exec (.seqSub lv false err) s = done (alu 1 x y)) ∧
    (iOp w = 0x12 → exec (.seqAnd lv false err) s = done (alu 2 x y)) ∧
    (iOp w = 0x13 → exec (.seqOr lv false err) s = done (alu 3 x y)) ∧
    (iOp w = 0x14 → exec (.seqXor lv false err) s = done (alu 4 x y)) ∧
    (iOp w = 0x15 → exec (.seqShl lv false err) s = done (alu 5 x y)) ∧
    (iOp w = 0x16 → exec (.seqShr lv false err) s = done (alu 6 x y)) ∧
    (iOp w = 0x17 → exec (.seqSar lv false err) s = done (alu 7 x y)) ∧
    (iOp w = 0x18 → exec (.seqMul lv false err) s = done (alu 8 x y)) ∧
    (iOp w = 0x19 → exec (.seqMax lv false err) s = done (alu 9 x y)) ∧
    (iOp w = 0x1A → exec (.seqMin lv false err) s = done (alu 10 x y)) ∧
    (iOp w = 0x20 → exec (.seqAddi lv false err) s = done (alu 0 x z)) ∧
    (iOp w = 0x21 → exec (.seqSubi lv false err) s = done (alu 1 x z)) ∧
    (iOp w = 0x22 → exec (.seqAndi lv false err) s = done (alu 2 x z)) ∧
    (iOp w = 0x23 → exec (.seqOri lv false err) s = done (alu 3 x z)) ∧
    (iOp w = 0x24 → exec (.seqXori lv false err) s = done (alu 4 x z)) ∧
    (iOp w = 0x25 → exec (.seqShli lv false err) s = done (alu 5 x z)) ∧
    (iOp w = 0x26 → exec (.seqShri lv false err) s = done (alu 6 x z)) ∧
    (iOp w = 0x27 → exec (.seqSari lv false err) s = done (alu 7 x z)) ∧
    (iOp w = 0x28 → exec (.seqMuli lv false err) s = done (alu 8 x z)) ∧
    (iOp w = 0x29 → exec (.seqMaxi lv false err) s = done (alu 9 x z)) ∧
    (iOp w = 0x2A → exec (.seqMini lv false err) s = done (alu 10 x z)) ∧
    (iOp w = 0x30 → exec (.seqGets lv false err) s = done (special r c (bits w 7 0)))

/-- Branches and the instructions of memory under the same conditions: a branch that is taken goes to the immediate, one that is not to the next instruction; LDW and
STW reach word ra + IMM of the context's run, and a word address outside the run is a recipe fault of cause 0x2 (ADDR) that leaves the registers as they are
(R319, R323, R336). -/
def Obligations.BranchesAndMemoryInstructions : Prop :=
  ∀ (s : State) (lv : Nat) (r : Run) (c : Ctx) (err : Option DescErr), s.dev.inReset = false → lv < 1536 → s.dev.runOf lv = some r → s.dev.ctxAt lv r.slot = some c →
    r.cyc < s.dev.budgetOf c →
    let w := s.dev.imemAt r.pc
    iLegal w = true →
    let x := r.get (iRa w)
    let y := r.get (iRb w)
    let on := { r with pc := (r.pc + 1) % 4096, cyc := r.cyc + 1 }
    let goes (taken : Bool) : Res := .next (s.after ((s.dev.meeting err).putRun (if taken then { r with pc := bits w 11 0, cyc := r.cyc + 1 } else on)))
    let a := (x + iSext w) % 2 ^ 64
    (iOp w = 0x00 → exec (.seqNop lv false err) s = .next (s.after ((s.dev.meeting err).putRun on))) ∧
    (iOp w = 0x38 → exec (.seqBra lv false err) s = goes true) ∧
    (iOp w = 0x39 → exec (.seqBeq lv false err) s = goes (decide (x = y))) ∧
    (iOp w = 0x3A → exec (.seqBne lv false err) s = goes (decide (x ≠ y))) ∧
    (iOp w = 0x3B → exec (.seqBlt lv false err) s = goes (decide (sgn 64 x < sgn 64 y))) ∧
    (iOp w = 0x3C → exec (.seqBge lv false err) s = goes (decide (sgn 64 y ≤ sgn 64 x))) ∧
    (iOp w = 0x31 → exec (.seqLdw lv false err) s = .next (s.after (if a < 512 * c.run
      then (s.dev.meeting err).putRun { on with g := if iRd w = 0 then r.g else r.g.set (iRd w) (c.word a % 2 ^ 64) }
      else (s.dev.meeting err).recipeFault r c 2))) ∧
    (iOp w = 0x32 → exec (.seqStw lv false err) s = .next (s.after (if a < 512 * c.run
      then ((s.dev.meeting err).putCtx { c with words := Sparse.put 0 c.words a (r.get (iRd w) % 2 ^ 64) }).putRun on
      else (s.dev.meeting err).recipeFault r c 2)))

/-- A handler whose word at the pc is no instruction stops with a recipe fault of cause 0x1 (ILLEGAL), and one whose word reads with an uncorrectable error with one of cause
0x7 (ECC), whichever instruction is asked for and whatever it would do (R318, R323, R336). -/
def Obligations.IllegalWordsFault : Prop :=
  ∀ (s : State) (lv : Nat) (r : Run) (c : Ctx), s.dev.inReset = false → lv < 1536 → s.dev.runOf lv = some r → s.dev.ctxAt lv r.slot = some c →
    r.cyc < s.dev.budgetOf c →
    let all (ecc : Bool) (err : Option DescErr) : List Instr := [Instr.seqNop lv ecc err, .seqDone lv ecc err, .seqSetf lv ecc err, .seqLi lv ecc err, .seqLui lv ecc err, .seqAdd lv ecc err, .seqSub lv ecc err,
      .seqAnd lv ecc err, .seqOr lv ecc err, .seqXor lv ecc err, .seqShl lv ecc err, .seqShr lv ecc err, .seqSar lv ecc err, .seqMul lv ecc err, .seqMax lv
      ecc err, .seqMin lv ecc err, .seqAddi lv ecc err, .seqSubi lv ecc err, .seqAndi lv ecc err, .seqOri lv ecc err, .seqXori lv ecc err, .seqShli lv ecc
      err, .seqShri lv ecc err, .seqSari lv ecc err, .seqMuli lv ecc err, .seqMaxi lv ecc err, .seqMini lv ecc err, .seqGets lv ecc err, .seqLdw lv ecc err,
      .seqStw lv ecc err, .seqBra lv ecc err, .seqBeq lv ecc err, .seqBne lv ecc err, .seqBlt lv ecc err, .seqBge lv ecc err, .seqAop lv ecc err, .seqWait
      lv ecc err, .seqOut lv ecc err, .seqSend lv ecc err, .seqRecv lv ecc err]
    (∀ opc act, s.dev.issue lv opc true act = s.dev.recipeFault r c 7) ∧
    (∀ err, ∀ i ∈ all true err, exec i s = .next (s.after ((s.dev.meeting err).recipeFault r c 7))) ∧
    (iLegal (s.dev.imemAt r.pc) = false → (∀ opc act, s.dev.issue lv opc false act = s.dev.recipeFault r c 1) ∧
      ∀ err, ∀ i ∈ all false err, exec i s = .next (s.after ((s.dev.meeting err).recipeFault r c 1)))

/-! Fabric time (spec/13_time.md). -/

/-- Fabric time at a local count is BASE_T plus the counts since BASE_LC times 0.8 ns times 1 + RATE * 2^-48, truncated to the unit of 2^-16 ns: 0.8 ns is 262,144 / 5
units. So it does not go back as the count goes on (R438). -/
def Obligations.FabricTimeFollowsItsRate : Prop :=
  ∀ (d : Dev) (c : Nat), -(2 ^ 48) < d.time.rate → 0 ≤ d.time.baseT → d.time.baseLc ≤ c →
    let exact : Int := (c - d.time.baseLc : Nat) * 262144 * (2 ^ 48 + d.time.rate)
    5 * 2 ^ 48 * ((d.fabAt c : Int) - d.time.baseT) ≤ exact ∧ exact < 5 * 2 ^ 48 * ((d.fabAt c : Int) + 1 - d.time.baseT) ∧
      ∀ c', c ≤ c' → d.fabAt c ≤ d.fabAt c'

/-! The control protocol (spec/14_control_protocol.md). -/

/-- A command from a session of lower privilege than its opcode needs is answered DENIED with detail PRIVILEGE and has no effect, whatever the command (R482). That this refusal
goes before those of other rules where they hold too (R490, R558) is the model's reading (log entry 27). -/
def Obligations.LowerPrivilegeIsDenied : Prop :=
  ∀ (s : State) (c : Instr) (n seq op p : Nat) (body : List Byte), s.dev.inReset = false → c.wellFormed = true → c.ucp = some (n, seq, op, body) →
    s.dev.mayBegin n seq op body = true → opPriv op body = some p → (s.dev.sessAt n).priv < p →
    exec c s = .next (s.after ((s.dev.begin' n seq op body).reply n seq op 3 2 []))

/-- When the management port's link goes down every session on the port closes, and sessions by fabric packets stay open (R480). It comes up only with a partner that offers the
one ability that MODE selects (R465), and only while the port is neither draining nor quiesced (the drain table of R39) and the management complex runs an image (R578, R580);
otherwise nothing changes. -/
def Obligations.ManagementLinkDownClosesItsSessions : Prop :=
  ∀ (s : State) (now : Nat) (kr cr : Bool), s.dev.inReset = false → s.dev.mrdTrap now = false →
    let d := s.dev.advance now
    let offered := if d.on R.MP_CTRL F.MP_CTRL_MODE then cr else kr
    (d.mgmt.sess.length = 8 →
      ∃ e, exec (.mgmtPortLinkChange now false kr cr) s = .next (s.after e) ∧ e.mgmt.mpUp = false ∧ e.csr.regs = d.csr.regs ∧
        ∀ n < 8, e.sessAt n = if (d.sessAt n).ep.kind ≠ 2 ∧ (d.sessAt n).state ≠ 0 then {} else d.sessAt n) ∧
    exec (.mgmtPortLinkChange now true kr cr) s = .next (s.after (if d.qreq .mp = false ∧ d.mgmt.stopped = false ∧ d.mgmt.image ≠ [] ∧ offered = true
      then { d with mgmt := { d.mgmt with mpUp := true } } else d))

/-! Quiescence, Mordant groups and epochs (spec/01_architecture.md, spec/03_forwarding.md). -/

/-- A write of one to QREQ of a unit that is not requested (crossbar slices and the management port apart) starts its drain: QREQ and DRAINING are one, QACK is zero,
the start of the drain is noted, and nothing else changes. The request of a unit already requested changes nothing (R39). In Umber the units of gated blocks are
out of reach (R558); that a write which does not reach its unit leaves the state as it is is the model's choice (log entry 10). -/
def Obligations.QuiesceRequestStartsTheDrain : Prop :=
  ∀ (s : State) (now : Nat) (q : QUnit), s.dev.inReset = false → s.dev.mrdTrap now = false → q.ok = true → (∀ x, q ≠ .xs x) → q ≠ .mp →
    let d := s.dev.advance now
    (s.dev.reaches q.ctrl = false → exec (.quiesceRequest now q) s = .next s) ∧
    (s.dev.reaches q.ctrl = true → d.qreq q = true → exec (.quiesceRequest now q) s = .next (s.after d)) ∧
    (s.dev.reaches q.ctrl = true → d.qreq q = false → ∃ e, exec (.quiesceRequest now q) s = .next (s.after e) ∧
      e.qreq q = true ∧ e.draining q = true ∧ e.qack q = false ∧
      Dev.RegsOnly [q.ctrl, q.stat] { d with core := { d.core with drains := Sparse.ins d.core.drains q.ctrl d.lc } } e)

/-- A draining unit that is drained sets QACK; a port gives its headroom back and an LPDDR6 channel that is active enters self-refresh. A unit that does not drain, or is
not drained, keeps its state (R39, R157). -/
def Obligations.DrainedUnitAcknowledges : Prop :=
  ∀ (s : State) (now : Nat) (q : QUnit), s.dev.inReset = false → s.dev.mrdTrap now = false → q.ok = true →
    let d := s.dev.advance now
    ((d.draining q && d.drained q) = false → exec (.quiesceDrained now q) s = .next (s.after d)) ∧
    ((d.draining q && d.drained q) = true → ∃ e, exec (.quiesceDrained now q) s = .next (s.after e) ∧
      e.qreq q = true ∧ e.draining q = false ∧ e.qack q = true ∧ e.core.pkts = d.core.pkts ∧
      (∀ p, q = .port p → e.fld (R.SC_PORT_FC p) F.SC_PORT_FC_HEADROOM = 0 ∧ Sparse.get 0 e.core.hr p = 0) ∧
      (∀ c, q = .ch c → e.chState c = if d.chState c = 0 then 1 else d.chState c) ∧
      (∀ a, a ≠ q.ctrl → a ≠ q.stat → (∀ p, q = .port p → a ≠ R.SC_PORT_FC p) → (∀ c, q = .ch c → a ≠ R.DD_CHSTAT c) → e.reg a = d.reg a))

/-- Crossbar slices (R42): all 17 leave reset quiesced, with SPARE naming XS16. The crossbar carries no cell while QREQ is one in a slice that SPARE does not name: a cell
slot then changes nothing but the note of which vat banks have no room. A write of one to QREQ of a slice is ignored, and so is a write of zero to QREQ of the slice that SPARE names; a write of zero to another
slice's QREQ releases it. In Umber the switch core is out of reach (R558), and a write to QREQ then leaves the state as it is (the model's choice, log entry 10). -/
def Obligations.CrossbarSlicesAndTheirQuiescence : Prop :=
  State.reset.dev.fld R.SC_SLICE F.SC_SLICE_SPARE = 16 ∧
  ∀ x < 17, (State.reset.dev.qreq (.xs x) = true ∧ State.reset.dev.qack (.xs x) = true) ∧
  ∀ (s : State) (now : Nat), s.dev.inReset = false → s.dev.mrdTrap now = false →
    (s.dev.pwState = 2 → exec (.quiesceRequest now (.xs x)) s = .next s ∧ exec (.quiesceRelease now (.xs x)) s = .next s) ∧ (s.dev.pwState ≠ 2 →
    let d := s.dev.advance now
    let spare := d.fld R.SC_SLICE F.SC_SLICE_SPARE
    exec (.quiesceRequest now (.xs x)) s = .next (s.after d) ∧
    (∀ full errs, (Instr.crossbarSlot now full errs).wellFormed = true → x ≠ spare → d.qreq (.xs x) = true →
      exec (.crossbarSlot now full errs) s = .next (s.after { d with core := { d.core with feFull := full } })) ∧
    (d.badRelease (.xs x) = false → x = spare → exec (.quiesceRelease now (.xs x)) s = .next (s.after d)) ∧
    (d.badRelease (.xs x) = false → x ≠ spare → d.qreq (.xs x) = true → ∃ e, exec (.quiesceRelease now (.xs x)) s = .next (s.after e) ∧
      e.qreq (.xs x) = false ∧ e.qack (.xs x) = false ∧
      Dev.RegsOnly [R.QCTRL_XS x, R.QSTAT_XS x] { d with core := { d.core with drains := Sparse.del d.core.drains (R.QCTRL_XS x) } } e))

/-- While a Mordant group is ARMED, writes of its item words, of COUNT and of its target beat are ignored, a CLEAR and an ARM too: the group keeps its items, its COUNT and
its target beat (R43, R44, R660). -/
def Obligations.ArmedGroupKeepsItsItems : Prop :=
  ∀ (s : State) (now g : Nat), s.dev.inReset = false → s.dev.mrdTrap now = false → g < 4 → s.dev.pwState ≠ 2 →
    let d := s.dev.advance now
    (d.mrdState g = 2 →
      (∀ a o v, mrdAt a = some (g, o) → isItem o = true → a % 4 = 0 → d.unpredictable none a (2 ^ 32 - 1) (v % 2 ^ 32) = false →
        exec (.mrdStage now a v) s = .next (s.after d)) ∧
      (∀ v, bit (v % 2 ^ 32) 1 = false → d.unpredictable none (R.MRD_CTRL g) (2 ^ 32 - 1) (v % 2 ^ 32) = false →
        exec (.mrdStage now (R.MRD_CTRL g) v) s = .next (s.after d)) ∧
      (∀ count, exec (.mrdClear now g count) s = .next (s.after d)) ∧
      (∀ count ecc, exec (.mrdArm now g count ecc) s = .next (s.after d))) ∧
    (s.dev.mrdState g = 2 → ∀ a v, (a = R.MRD_TARGET_LO g ∨ a = R.MRD_TARGET_HI g) → s.dev.unpredictable none a (2 ^ 32 - 1) (v % 2 ^ 32) = false →
      exec (.registerWrite a v) s = .next (s.after s.dev))

/-- ARM of a STAGED or APPLIED group makes every check (R44), over the first 512 items where COUNT is larger (the model's reading, log entry 14): LATE, when the target beat is less than two beats ahead or not less than 2^47 ahead; CONFLICT, when another
group is armed for the same beat; TYPE, when an item's mask covers a bit that a group may not write; ECC. The bit of each check that fails is set. With none failed the
group is ARMED, otherwise STATE stays. The model's own note of
the session that armed the group is gone then. -/
def Obligations.ArmChecksTheGroup : Prop :=
  ∀ (s : State) (now g count : Nat) (ecc : Bool), s.dev.inReset = false → s.dev.mrdTrap now = false → g < 4 → s.dev.pwState ≠ 2 → count < 1024 →
    let d := s.dev.advance now
    d.mrdState g = 1 ∨ d.mrdState g = 3 →
    let ahead := d.beatsAhead (d.mrdTarget g)
    let late := decide (ahead < 2 ∨ 2 ^ 47 ≤ ahead)
    let conf := (List.range 4).any fun h => h ≠ g && d.mrdState h = 2 && d.mrdTarget h = d.mrdTarget g
    let typ := (List.range (min count 512)).any (d.mrdBadItem g)
    let st := R.MRD_STATUS g
    ∃ e, exec (.mrdArm now g count ecc) s = .next (s.after e) ∧
      Dev.RegsOnly [R.MRD_CTRL g, st] (if late || conf || typ || ecc then d else { d with csr := { d.csr with armBy := Sparse.del d.csr.armBy g } }) e ∧
      e.fld (R.MRD_CTRL g) F.MRD_CTRL_COUNT = count ∧
      e.on st F.MRD_STATUS_LATE = (d.on st F.MRD_STATUS_LATE || late) ∧ e.on st F.MRD_STATUS_CONFLICT = (d.on st F.MRD_STATUS_CONFLICT || conf) ∧
      e.on st F.MRD_STATUS_TYPE = (d.on st F.MRD_STATUS_TYPE || typ) ∧ e.on st F.MRD_STATUS_ECC = (d.on st F.MRD_STATUS_ECC || ecc) ∧
      e.mrdState g = if late || conf || typ || ecc then d.mrdState g else 2

/-- A CANCEL of an ARMED group returns it to STAGED when its target beat is two beats ahead or more; otherwise it is ignored and CANCEL_LATE is set (R47), at the CANCEL and
not at the target beat (the model's choice, log entry 14). -/
def Obligations.CancelReturnsTheGroupToStaged : Prop :=
  ∀ (s : State) (now g count : Nat), s.dev.inReset = false → s.dev.mrdTrap now = false → g < 4 → s.dev.pwState ≠ 2 →
    let d := s.dev.advance now
    d.mrdState g = 2 →
    exec (.mrdCancel now g count) s = .next (s.after (if 2 ≤ d.beatsAhead (d.mrdTarget g)
      then d.setFld (R.MRD_STATUS g) F.MRD_STATUS_STATE 1 else d.setFld (R.MRD_STATUS g) F.MRD_STATUS_CANCEL_LATE 1))

/-- The previous bank of a pipeline retires at the boundary that its beat begins, or at the first one after RETIRE_NOW was written, and PREV_HELD clears; otherwise it is held
on (R126). At the retirement every packet that the fence holds or stalls in the pipeline is released (R127: `Pkt.opened`), and no other packet changes. A write of one to RETIRE_NOW is kept, with the beat in which it came, while a previous bank is held and none is kept. That PREV_BANK_RETIRE acts at any moment of
the beat in progress, and that RETIRE_NOW is kept with its beat, is the model's choice (log entry 13). -/
def Obligations.PreviousBankRetires : Prop :=
  ∀ (s : State) (now p : Nat), s.dev.inReset = false → s.dev.mrdTrap now = false → p < 16 →
    let d := s.dev.advance now
    let asked := d.tab.retireReq.any fun x => x.1 = p && x.2 < d.time.beat
    (s.dev.pwState ≠ 2 → exec (.retireNow now p) s = .next (s.after (if d.prevHeld p && !d.tab.retireReq.any (·.1 = p)
      then { d with tab := { d.tab with retireReq := d.tab.retireReq ++ [(p, d.time.beat)] } } else d))) ∧
    (d.prevHeld p = true → asked = true ∨ d.beatNo = d.retireBeat p →
      ∃ e, exec (.prevBankRetire now p) s = .next (s.after e) ∧ e.prevHeld p = false ∧ e.curEpoch p = d.curEpoch p ∧
        Dev.RegsOnly [R.FW_EPOCH p] { d with
          tab := { d.tab with retireReq := d.tab.retireReq.filter (·.1 ≠ p) }
          core := { d.core with pkts := d.core.pkts.map fun k => if Dev.plOf k.port = p ∧ (k.place = .fence ∨ k.place = .stall) then { k with opened := true } else k } } e) ∧
    (d.prevHeld p = false ∨ (asked = false ∧ d.beatNo ≠ d.retireBeat p) →
      exec (.prevBankRetire now p) s = .next (s.after d))

/-- A write to TW_INDEX, TW_CMD or any TW_DATA word while BUSY is one is ignored and sets OVERRUN, a command that starts an operation of the window, which is a write to
TW_CMD, among them (R133). In Umber the pipelines are out of reach (R558). -/
def Obligations.BusyWindowIgnoresWrites : Prop :=
  ∀ (s : State) (p a v : Nat), s.dev.inReset = false → p < 16 → s.dev.pwState ≠ 2 →
    ((a = R.TW_INDEX p ∨ a = R.TW_CMD p ∨ ∃ i < 36, a = R.TW_DATA p i) →
      s.dev.unpredictable none a (2 ^ 32 - 1) (v % 2 ^ 32) = false → s.dev.on (R.TW_STAT p) F.TW_STAT_BUSY = true →
      exec (.registerWrite a v) s = .next (s.after (s.dev.setFld (R.TW_STAT p) F.TW_STAT_OVERRUN 1))) ∧
    ∀ now table bank : Nat, s.dev.mrdTrap now = false →
      let d := s.dev.advance now
      d.on (R.TW_STAT p) F.TW_STAT_BUSY = true →
      ∀ c ∈ [Instr.twRead now p table bank, .twWrite now p table bank, .twInvalidate now p table bank, .twBankCopy now p table bank, .twEmInsert now p,
        .twEmDelete now p, .twEmFind now p, .twEmFlush now p], exec c s = .next (s.after (d.setFld (R.TW_STAT p) F.TW_STAT_OVERRUN 1))

/-! Lake, gate lists, links, optics. -/

/-- Admission never discards a packet of a lossless VC: its cells come whole from the main pool or whole from headroom (spec/05_lake.md R178). -/
def Obligations.LosslessPacketsAreAlwaysAdmitted : Prop :=
  ∀ (d : Dev) (k : Pkt) (out : Nat), lossless k.h.vc = true → ∃ e k', d.admitPkt k out = (e, some k') ∧ k'.id = k.id ∧
    ((k'.main = k.cells ∧ k'.hr = 0) ∨ (k'.main = 0 ∧ k'.hr = k.cells))

/-- Outside Umber, where the pipelines are in reach, GO of a gate list writes LEN and CYCLE_BEATS. While no list is pending and BASE is at least two and less than 2^47 beats ahead it sets PENDING and captures LEN,
CYCLE_BEATS and BASE; otherwise it sets GO_REFUSED and captures nothing (R207). A list that 06_scheduling_shaping.md calls a controller error stops (R7, log entry 9). -/
def Obligations.GateListGo : Prop :=
  ∀ (s : State) (now c len cyc : Nat), s.dev.inReset = false → s.dev.mrdTrap now = false → c < 1024 → len < 128 → cyc < 8192 →
    s.dev.pwState ≠ 2 →
    let d := s.dev.advance now
    (d.gclBad c len cyc = true → exec (.gclGo now c len cyc) s = .fault .unpredictable) ∧
    (d.gclBad c len cyc = false →
    let ct := R.GCL_CTRL (Dev.plOf c) (c % 64)
    let st := R.GCL_STAT (Dev.plOf c) (c % 64)
    let base := (d.reg (R.GCL_BASE_LO (Dev.plOf c) (c % 64))).toNat + bits (d.reg (R.GCL_BASE_HI (Dev.plOf c) (c % 64))).toNat 15 0 * 2 ^ 32
    let ok := (Sparse.find d.core.gcl c).isNone && decide (2 ≤ d.beatsAhead base ∧ d.beatsAhead base < 2 ^ 47)
    ∃ e, exec (.gclGo now c len cyc) s = .next (s.after e) ∧
      Dev.RegsOnly [ct, st] { d with core := { d.core with gcl := if ok then Sparse.ins d.core.gcl c (len, cyc, base) else d.core.gcl } } e ∧
      e.fld ct F.GCL_CTRL_LEN = len ∧ e.fld ct F.GCL_CTRL_CYCLE_BEATS = cyc ∧
      e.on st F.GCL_STAT_PENDING = (d.on st F.GCL_STAT_PENDING || ok) ∧ e.on st F.GCL_STAT_GO_REFUSED = (d.on st F.GCL_STAT_GO_REFUSED || !ok))

/-- A FEATURE message in the FEATURE phase: once this end's own message has gone out too, the link is UP at the lower of the two levels; before that the level is kept and the
link stays in FEATURE (R389, R392). -/
def Obligations.FeatureLevelIsTheLower : Prop :=
  ∀ (s : State) (now c lvl : Nat), s.dev.inReset = false → s.dev.mrdTrap now = false → c < 1024 → lvl < 256 →
    let d := s.dev.advance now
    d.linkState c = 4 →
      ((d.lk c).featSent = true → ∃ e, exec (.feature now c lvl) s = .next (s.after e) ∧ e.linkState c = 5 ∧
        e.stat c F.YZ_STAT_FEAT = min lvl (d.fld (R.YZ_CTRL (c / 2)) F.YZ_CTRL_FEAT_MAX)) ∧
      ((d.lk c).featSent = false → ∃ e, exec (.feature now c lvl) s = .next (s.after e) ∧ e.linkState c = 4 ∧ (e.lk c).farFeat = some lvl)

/-- A link control symbol whose CRC fails is ignored but for its count in YZ_LCS_BAD: the XOFF state in force stays that of the last good one (R377). The control message
being assembled is given up (the model's reading, log entry 40). -/
def Obligations.BadLinkControlSymbolIsIgnored : Prop :=
  ∀ (s : State) (now c w row : Nat), s.dev.inReset = false → s.dev.mrdTrap now = false → c < 1024 → w < 2 ^ 40 → lcsOk w = false →
    let d := s.dev.advance now
    rowsOn (d.linkState c) = true →
    exec (.lcsReceive now c w row) s = .next (s.after ((d.inc (R.YZ_LCS_BAD (c / 2))).updLk c fun l => { l with asm := [] }))

/-- What inserting a module, removing it, enabling its slot and disabling it do to LM_EN (R435): a module inserted in an enabled slot, and a slot enabled with its module, gain
it, but not in Umber, on the way into it or in a wake before 18.0 ms (R557, R560, R563); a module removed, or a slot disabled, loses it, and the 64 port codes of the slot
are down. -/
def Obligations.LaserEnableFollowsItsModule : Prop :=
  ∀ (s : State) (now k : Nat), s.dev.inReset = false → s.dev.mrdTrap now = false → k < 16 →
    let d := s.dev.advance now
    d.power.lmEn.length = 16 →
    let en := d.on (R.OH_SLOT_CTRL k) F.OH_SLOT_CTRL_EN
    let here := d.on (R.OH_SLOT_STAT k) F.OH_SLOT_STAT_PRESENT
    let may := decide (d.pwState = 0 ∨ (d.pwState = 3 ∧ d.power.begun + 18000 * 1250 ≤ d.lc))
    (∃ e, exec (.moduleInserted now k) s = .next (s.after e) ∧ e.on (R.OH_SLOT_STAT k) F.OH_SLOT_STAT_PRESENT = true ∧
      e.power.lmEn.getD k false = ((en && may) || d.power.lmEn.getD k false)) ∧
    (here = true → ∃ e, exec (.moduleRemoved now k) s = .next (s.after e) ∧ e.on (R.OH_SLOT_STAT k) F.OH_SLOT_STAT_PRESENT = false ∧
      e.power.lmEn.getD k false = false ∧ ∀ i < 64, e.linkState (64 * k + i) = 0 ∨ 6 ≤ e.linkState (64 * k + i)) ∧
    (s.dev.pwState ≠ 2 → en = true → ∃ e, exec (.slotEnable now k false) s = .next (s.after e) ∧ e.on (R.OH_SLOT_CTRL k) F.OH_SLOT_CTRL_EN = false ∧
      e.power.lmEn.getD k false = false ∧ ∀ i < 64, e.linkState (64 * k + i) = 0 ∨ 6 ≤ e.linkState (64 * k + i)) ∧
    (s.dev.pwState ≠ 2 → en = false → exec (.slotEnable now k true) s = .next (s.after ((d.setFld (R.OH_SLOT_CTRL k) F.OH_SLOT_CTRL_EN 1).setLmEn k (here && may))))

/-! Collective engine and time pulse outputs. -/

/-- GO in CE_ABORT (R253): refused, with REFUSED set, for partition 0 and when 16 aborts wait behind one that runs; without further effect for a partition that is
ABORTED or whose abort runs or waits, even when 16 wait (the model's choice, log entry 85); otherwise the abort begins or waits. PARTITION is written in every case. In Umber the collective engine is out of reach. -/
def Obligations.AbortIsRefusedOrBegins : Prop :=
  ∀ (s : State) (now p : Nat), s.dev.inReset = false → s.dev.mrdTrap now = false → p < 4096 → s.dev.pwState ≠ 2 →
    let d := (s.dev.advance now).setFld R.CE_ABORT F.CE_ABORT_PARTITION p
    let full := d.faults.abortRun.isSome && decide (16 ≤ d.faults.aborts.length)
    (p = 0 → exec (.ceAbortGo now p) s = .next (s.after (d.setFld R.CE_ABORT F.CE_ABORT_REFUSED 1))) ∧
    (p ≠ 0 → d.abortKnown p = true → exec (.ceAbortGo now p) s = .next (s.after d)) ∧
    (p ≠ 0 → d.abortKnown p = false → full = true → exec (.ceAbortGo now p) s = .next (s.after (d.setFld R.CE_ABORT F.CE_ABORT_REFUSED 1))) ∧
    (p ≠ 0 → d.abortKnown p = false → d.faults.abortRun.isSome = true → full = false →
      exec (.ceAbortGo now p) s = .next (s.after { d with faults := { d.faults with aborts := d.faults.aborts ++ [(p, 2, 0)] } })) ∧
    (p ≠ 0 → d.abortKnown p = false → d.faults.abortRun.isSome = false → ∃ e, exec (.ceAbortGo now p) s = .next (s.after e) ∧
      e.on R.CE_ABORT F.CE_ABORT_BUSY = true ∧
      Dev.RegsOnly [R.CE_ABORT] { d with faults := { d.faults with abortRun := some (p, 2, 0), abortStart := d.beatNo } } e)

/-- GO of a time pulse output (R461): it arms the output while ARMED is zero, the start lies at least 1 us and less than 2^31 s ahead, and in PERIODIC mode the width is
below the period; otherwise GO_REFUSED is set. MODE and POL are written first, and a new idle level shows at the output. The output is armed
with its start, period, width and mode as they stand at GO (R460). That the settings are captured then, and that a period below 16 ns in PERIODIC mode, which the spec calls
unpredictable, is a free value above zero, is the model's reading (log entry 43). -/
def Obligations.PulseOutputGo : Prop :=
  ∀ (s : State) (now n mode pol : Nat), s.dev.inReset = false → s.dev.mrdTrap now = false → n < 4 → mode < 2 → pol < 2 →
    let d := s.dev.advance now
    let a := R.TPO_CTRL n
    let sec := d.fabT / Dev.secUnits
    let start := (sec + ((d.reg (R.TPO_START_SEC n)).toNat + 2 ^ 32 - sec % 2 ^ 32) % 2 ^ 32) * Dev.secUnits + (d.reg (R.TPO_START_NS n)).toNat * 65536
    let per := (d.reg (R.TPO_PERIOD_NS n)).toNat
    let ok := !d.on a F.TPO_CTRL_ARMED && decide (d.fabT + 1000 * 65536 ≤ start ∧ start < d.fabT + 2 ^ 31 * Dev.secUnits ∧
      (mode = 1 → (d.reg (R.TPO_WIDTH_NS n)).toNat < per))
    let f := if d.fld a F.TPO_CTRL_POL = pol then d else d.emit (.pulse n (decide (pol = 1) != (d.tpoAt n).high.isSome) d.lc)
    let wild := ok && decide (mode = 1 ∧ per < 16)
    let out (p : Nat) : Tpo :=
      { next := start, period := p, width := (d.reg (R.TPO_WIDTH_NS n)).toNat * 65536, periodic := mode = 1, high := (d.tpoAt n).high,
        cancel := (d.tpoAt n).high.isSome }
    ∃ e p, exec (.tpoGo now n mode pol) s = .next (s.after e) ∧ 0 < (if wild then p else 1) ∧ (wild = false → p = per * 65536) ∧
      Dev.RegsOnly [a] (if ok then ({ f with free := if wild then f.free + 1 else f.free } : Dev).setTpo n (out p) else f) e ∧
      e.fld a F.TPO_CTRL_MODE = mode ∧ e.fld a F.TPO_CTRL_POL = pol ∧
      e.on a F.TPO_CTRL_ARMED = (d.on a F.TPO_CTRL_ARMED || ok) ∧ e.on a F.TPO_CTRL_GO_REFUSED = (d.on a F.TPO_CTRL_GO_REFUSED || !ok)

/-! Errors, health, power, resets, telemetry. -/

/-- At a beat whose number is a multiple of 2^24 every health score becomes floor(score * 15 / 16), and no element leaves quarantine by it (R537). At other beats nothing
changes. That the decay is carried out by its command in the beat in progress, once in a beat, is the model's choice (log entries 13, 57 and 78). -/
def Obligations.HealthScoresDecay : Prop :=
  ∀ (s : State) (now : Nat), s.dev.inReset = false → s.dev.mrdTrap now = false →
    let d := s.dev.advance now
    (d.beatNo % 2 ^ 24 ≠ 0 ∨ d.actedIn 2 = true → exec (.healthDecay now) s = .next (s.after d)) ∧
    (d.beatNo % 2 ^ 24 = 0 → d.actedIn 2 = false → ∃ e, exec (.healthDecay now) s = .next (s.after e) ∧
      (∀ p < 512, e.fld (R.HS_PORT p) F.HS_PORT_SCORE = d.fld (R.HS_PORT p) F.HS_PORT_SCORE * 15 / 16 ∧
        e.on (R.HS_PORT p) F.HS_PORT_QUARANTINED = d.on (R.HS_PORT p) F.HS_PORT_QUARANTINED) ∧
      (∀ v < 1600, e.fld (R.HS_VAT v) F.HS_VAT_SCORE = d.fld (R.HS_VAT v) F.HS_VAT_SCORE * 15 / 16 ∧
        e.on (R.HS_VAT v) F.HS_VAT_QUARANTINED = d.on (R.HS_VAT v) F.HS_VAT_QUARANTINED))

/-- A write of HS_RELEASE clears QUARANTINED, WITHHELD and the score of the element it names; a released vat is no longer counted as retired, so it is a spare again; nothing
else changes, so a released port stays down (R542). The release of a vat that is mapped is one of the controller errors of 15_faults_sparing.md, whose results are unpredictable, and
stops (R7; which forms stop is the model's reading, log entry 9). -/
def Obligations.HealthReleaseClearsTheElement : Prop :=
  ∀ (s : State) (now n : Nat), s.dev.inReset = false → s.dev.mrdTrap now = false →
    let d := s.dev.advance now
    (n < 512 → exec (.hsRelease now 1 n) s = .next (s.after (d.setNum (R.HS_PORT n) 0))) ∧
    (n < 1600 → d.logicalOf n ≠ none → exec (.hsRelease now 2 n) s = .fault .unpredictable) ∧
    (n < 1600 → d.logicalOf n = none →
      exec (.hsRelease now 2 n) s =
        .next (s.after { (d.setNum (R.HS_VAT n) 0) with faults := { d.faults with retired := d.faults.retired.filter (· ≠ n) } }))

/-- An acknowledgement sets ACKED in a record that is VALID and not acknowledged, and has no effect on any other slot (R511). -/
def Obligations.AcknowledgingARecord : Prop :=
  ∀ (s : State) (now k : Nat), s.dev.inReset = false → s.dev.mrdTrap now = false → k < 64 →
    let d := s.dev.advance now
    ((d.recValid k && !d.recAcked k) = true → ∃ e, exec (.erAck now k) s = .next (s.after e) ∧ e.recValid k = true ∧ e.recAcked k = true ∧
      Dev.RegsOnly [R.ER_REC k 1] d e) ∧
    ((d.recValid k && !d.recAcked k) = false → exec (.erAck now k) s = .next (s.after d))

/-- WAKE_GRANT sampled high in Umber with WAKE_REQ asserted starts the wake: STATE is WAKING, STEP 0, and the fabric time of the grant instant is kept. In every other state
it starts nothing (R562). Ramp step k of 32 ends 0.5 + 0.4 k ms after the grant, no earlier, and STEP then reads k; outside a wake there is none (R563). -/
def Obligations.WakeFollowsItsGrant : Prop :=
  ∀ (s : State) (now : Nat), s.dev.inReset = false → s.dev.mrdTrap now = false →
    let d := s.dev.advance now
    let k := d.fld R.PW_STAT F.PW_STAT_STEP + 1
    (d.pwState = 2 → d.on R.PW_STAT F.PW_STAT_REQ_PIN = true → ∃ e, exec (.grantInstant now) s = .next (s.after e) ∧ e.pwState = 3 ∧
      e.fld R.PW_STAT F.PW_STAT_STEP = 0 ∧ (e.reg R.PW_GRANT_LO).toNat = d.fabNs % 2 ^ 32 ∧ (e.reg R.PW_GRANT_HI).toNat = d.fabNs / 2 ^ 32 % 2 ^ 32 ∧
      Dev.RegsOnly [R.PW_STAT, R.PW_GRANT_LO, R.PW_GRANT_HI] { d with power := { d.power with begun := d.lc } } e) ∧
    (d.pwState ≠ 2 ∨ d.on R.PW_STAT F.PW_STAT_REQ_PIN = false →
      exec (.grantInstant now) s = .next (s.after d)) ∧
    exec (.rampStep now none) s = .next (s.after (if d.pwState = 3 ∧ k ≤ 32 ∧ d.power.begun + (500 + 400 * k) * 1250 ≤ d.lc
      then d.setFld R.PW_STAT F.PW_STAT_STEP k else d))

/-- A power-on reset leaves every register at its reset value and every counter at zero, but that PRESENT follows the pins LM_PRESENT in every reset (the model's reading, log
entry 46); packets, tables, contexts, error records and sessions are gone; fuses and boot storage stay (R573, R574, R577). A full reset does the same and keeps the soft
repairs in SR_STAT. BOOT_CAUSE of SB_STAT tells the cause: power-on 0x01, full reset 0x02, and 0x03 where an undervoltage holds the device in reset; a device that RESET_N, PWRGOOD
or a thermal trip holds already keeps the cause it has (the model's reading, log entry 46). The other bits of SB_STAT are at their reset values. -/
def Obligations.ResetsClearTheDevice : Prop :=
  ∀ (s : State) (now : Nat), (s.dev.inReset = true ∨ s.dev.mrdTrap now = false) →
    let d := s.dev.runOn now
    let clean (t : State) (kept : List Nat) : Prop :=
      t.fuse = s.fuse ∧ t.dev.inReset = true ∧ t.dev.mgmt.slots = d.mgmt.slots ∧ t.dev.mgmt.slotBad = d.mgmt.slotBad ∧ t.dev.mgmt.sel = d.mgmt.sel ∧ t.dev.csr.ctrs = [] ∧ t.dev.core = {} ∧ t.dev.tab = {} ∧ t.dev.ce = {} ∧
      t.dev.vat = {} ∧ t.dev.link = {} ∧ t.dev.faults = {} ∧ t.dev.ddr = {} ∧ t.dev.mgmt.sess = List.replicate 8 {} ∧
      (∀ a, a ∉ kept → (∀ k < 16, a ≠ R.OH_SLOT_STAT k) → t.dev.reg a = resetWord a) ∧
      (∀ k < 16, t.dev.reg (R.OH_SLOT_STAT k) =
        fput (resetWord (R.OH_SLOT_STAT k)) F.OH_SLOT_STAT_PRESENT (d.fld (R.OH_SLOT_STAT k) F.OH_SLOT_STAT_PRESENT))
    (∃ t, exec (.powerOnReset now) s = .next t ∧ clean t [] ∧ t.dev.fld R.SB_STAT F.SB_STAT_BOOT_CAUSE = 1) ∧
    (∀ pg, ∃ t, exec (.fullReset now pg) s = .next t ∧ clean t [R.SR_STAT, R.SB_STAT] ∧ t.dev.reg R.SR_STAT = d.reg R.SR_STAT ∧
      t.dev.reg R.SB_STAT = fput (resetWord R.SB_STAT) F.SB_STAT_BOOT_CAUSE (if d.power.uvHold then 3 else if d.power.resetLow || d.power.tripped then d.fld R.SB_STAT F.SB_STAT_BOOT_CAUSE else 2))

/-- A write of one to CLEAR of a performance monitor set waits for the boundary; there, after the snapshot, PM_CYCLES and the eight counters of the set are zero, and the
snapshot holds their values from before (R605). What step 1 of the boundary does after that are samples, the building of reports and the records of ring 0, whose writes the
monitor of LPDDR6 counts anew. -/
def Obligations.ClearedMonitorsKeepTheirSnapshot : Prop :=
  (∀ (s : State) (now : Nat) (u : Dev.PmUnit), s.dev.inReset = false → s.dev.mrdTrap now = false → (Dev.pmUnits.contains u) = true → s.dev.pwState ≠ 2 →
    let d := s.dev.advance now
    exec (.pmClear now u) s = .next (s.after (if d.tel.pmClear.contains u.base then d
      else { d with tel := { d.tel with pmClear := d.tel.pmClear ++ [u.base] } }))) ∧
  ∀ (d : Dev) (u : Dev.PmUnit), d.pwState ≠ 2 → u ∈ Dev.pmUnits → u.base ∈ d.tel.pmClear →
    ∃ e : Dev, e.csr.snap = d.csr.ctrs ∧ e.ctr (u.base + 8) = 0 ∧ (∀ n < 8, e.ctr (u.base + 0x40 + 8 * n) = 0) ∧
      d.beatSample = if e.powered then e.sampleAll.reportsBuild.ringQueues else e

/-! Every command completes: it answers a next state, with its own effect on the device and then what follows of itself, wherever the device is not held in reset, the elements
named exist and the spec does not call the results unpredictable: neither those of the command nor, for a command that lets time go on to its count, those of a Mordant group that
is applied on the way (`Dev.mrdTrap`). -/

/-- The commands of the beat, registers, quiescence, Mordant groups, epochs, the reference clock and fabric time complete (spec/01_architecture.md, spec/13_time.md). Those of the pins and supplies of reset act in reset too. -/
def Obligations.ClockAndTimeCommandsComplete : Prop :=
  ∀ s : State,
    (∀ (now : Nat), (s.dev.inReset = true ∨ s.dev.mrdTrap now = false) → exec (.refclkLost now) s = .next (s.after ((s.dev.runOn now).refclkLost))) ∧
    (∀ (now : Nat), (s.dev.inReset = true ∨ s.dev.mrdTrap now = false) → exec (.refclkRestored now) s = .next (s.after ((s.dev.runOn now).refclkBack s.fuse))) ∧
    (s.dev.inReset = false →
        (∀ (now : Nat), s.dev.mrdTrap (s.dev.boundaryBy now) = false → exec (.beatBoundary now) s = .next (s.after ((s.dev.advance (s.dev.boundaryBy now))))) ∧
    (∀ (a v : Nat), s.dev.reaches (a) = true → (!reservedBlock a && a % 4 = 0 && s.dev.unpredictable none a (2 ^ 32 - 1) (v % 2 ^ 32)) = false → 
      exec (.registerWrite a v) s = .next (s.after (s.dev.registerWrite s.fuse a (v % 2 ^ 32)))) ∧
    (∀ (now : Nat) (q : QUnit), s.dev.mrdTrap now = false → (Instr.quiesceRequest now q).wellFormed = true → s.dev.reaches (q.ctrl) = true → 
      exec (.quiesceRequest now q) s = .next (s.after ((s.dev.advance now).quiesceRequest q))) ∧
    (∀ (now : Nat) (q : QUnit), s.dev.mrdTrap now = false → (Instr.quiesceRelease now q).wellFormed = true → s.dev.reaches (q.ctrl) = true → ((s.dev.advance now).badRelease q) = false → 
      exec (.quiesceRelease now q) s = .next (s.after ((s.dev.advance now).quiesceRelease q))) ∧
    (∀ (now : Nat) (q : QUnit), s.dev.mrdTrap now = false → (Instr.quiesceDrained now q).wellFormed = true → 
      exec (.quiesceDrained now q) s = .next (s.after ((s.dev.advance now).quiesceDrained q))) ∧
    (∀ (now : Nat) (q : QUnit), s.dev.mrdTrap now = false → (Instr.forcedQuiesce now q).wellFormed = true → 
      exec (.forcedQuiesce now q) s = .next (s.after ((s.dev.advance now).forcedQuiesce q))) ∧
    (∀ (now a v : Nat), s.dev.mrdTrap now = false → (Instr.mrdStage now a v).wellFormed = true → s.dev.reaches (a) = true → ((s.dev.advance now).unpredictable none a (2 ^ 32 - 1) (v % 2 ^ 32)) = false → 
      exec (.mrdStage now a v) s = .next (s.after ((s.dev.advance now).csrWrite s.fuse a (2 ^ 32 - 1) (v % 2 ^ 32)))) ∧
    (∀ (now g count : Nat), s.dev.mrdTrap now = false → (Instr.mrdClear now g count).wellFormed = true → s.dev.reaches (R.MRD_CTRL g) = true → 
      exec (.mrdClear now g count) s = .next (s.after ((s.dev.advance now).mrdWrite g count true false false false))) ∧
    (∀ (now g count : Nat), s.dev.mrdTrap now = false → (Instr.mrdCancel now g count).wellFormed = true → s.dev.reaches (R.MRD_CTRL g) = true → 
      exec (.mrdCancel now g count) s = .next (s.after ((s.dev.advance now).mrdWrite g count false true false false))) ∧
    (∀ (now g count : Nat) (ecc : Bool), s.dev.mrdTrap now = false → (Instr.mrdArm now g count ecc).wellFormed = true → s.dev.reaches (R.MRD_CTRL g) = true → 
      exec (.mrdArm now g count ecc) s = .next (s.after ((s.dev.advance now).mrdWrite g count false false true ecc))) ∧
    (∀ (now : Nat), s.dev.mrdTrap now = false → (match (s.dev.advance now).mrdDue with | some g => (s.dev.advance now).mrdUnpredictable g | none => false) = false → 
      exec (.mordantGroupApply now) s = .next (s.after ((s.dev.advance now).groupApply))) ∧
    (∀ (now pl : Nat), s.dev.mrdTrap now = false → (Instr.retireNow now pl).wellFormed = true → s.dev.reaches (R.FW_EPOCH pl) = true → 
      exec (.retireNow now pl) s = .next (s.after ((s.dev.advance now).retireNow pl))) ∧
    (∀ (now pl : Nat), s.dev.mrdTrap now = false → (Instr.prevBankRetire now pl).wellFormed = true → 
      exec (.prevBankRetire now pl) s = .next (s.after ((s.dev.advance now).prevRetire pl))) ∧
    (∀ (now c ttx trx : Nat) (rxv : Bool) (seqTx seqRx arr : Nat), s.dev.mrdTrap now = false → (Instr.time now c ttx trx rxv seqTx seqRx arr).wellFormed = true → 
      exec (.time now c ttx trx rxv seqTx seqRx arr) s = .next (s.after ((s.dev.advance now).timeMsg c (ttx % 2 ^ 22) (trx % 2 ^ 22) rxv (seqTx % 16) (seqRx % 16) arr))) ∧
    (∀ (now : Nat), s.dev.mrdTrap now = false → exec (.sourceLost now) s = .next (s.after ((s.dev.advance now).sourceLost))) ∧
    (∀ (now : Nat), s.dev.mrdTrap now = false → exec (.parentSwitch now) s = .next (s.after ((s.dev.advance now).parentSwitch))) ∧
    (∀ (now : Nat), s.dev.mrdTrap now = false → exec (.timeAnnounceSend now) s = .next (s.after ((s.dev.advance now).announce))) ∧
    (∀ (now c : Nat) (pay : List Byte), s.dev.mrdTrap now = false → (Instr.timeAnnounceReceive now c pay).wellFormed = true → 
      exec (.timeAnnounceReceive now c pay) s = .next (s.after (let d := s.dev.advance now; d.annReceive c pay d.fabT))) ∧
    (∀ (now : Nat), s.dev.mrdTrap now = false → exec (.setNow now) s = .next (s.after ((s.dev.advance now).setNow))) ∧
    (∀ (now : Nat), s.dev.mrdTrap now = false → exec (.setAtPps now) s = .next (s.after ((s.dev.advance now).setAtPps))) ∧
    (∀ (now : Nat), s.dev.mrdTrap now = false → exec (.ppsEdge now) s = .next (s.after ((s.dev.advance now).ppsEdge))) ∧
    (∀ (now dom : Nat) (src : List Byte) (seq : Nat) (twoStep : Bool) (t1 : Nat) (corr : Int), s.dev.mrdTrap now = false → 
      exec (.sync now dom src seq twoStep t1 corr) s = .next (s.after ((s.dev.advance now).ptpSync dom src seq twoStep t1 corr))) ∧
    (∀ (now dom : Nat) (src : List Byte) (seq t1 : Nat) (corr : Int), s.dev.mrdTrap now = false → 
      exec (.followUp now dom src seq t1 corr) s = .next (s.after ((s.dev.advance now).ptpFollow dom src seq t1 corr))) ∧
    (∀ (now dom : Nat) (src : List Byte) (seq : Nat) (corr : Int), s.dev.mrdTrap now = false → 
      exec (.delayReq now dom src seq corr) s = .next (s.after ((s.dev.advance now).ptpReq dom src seq corr))) ∧
    (∀ (now dom : Nat) (src req : List Byte) (seq t4 : Nat) (corr : Int), s.dev.mrdTrap now = false → 
      exec (.delayResp now dom src req seq t4 corr) s = .next (s.after ((s.dev.advance now).ptpResp dom src req seq t4 corr))) ∧
    (∀ (now dom : Nat) (data : PtpData), s.dev.mrdTrap now = false → exec (.announce now dom data) s = .next (s.after ((s.dev.advance now).ptpAnnounce dom data))) ∧
    (∀ (now : Nat), s.dev.mrdTrap now = false → exec (.ptpMessageSend now) s = .next (s.after ((s.dev.advance now).ptpSends))) ∧
    (∀ (now n mode pol : Nat), s.dev.mrdTrap now = false → (Instr.tpoGo now n mode pol).wellFormed = true → 
      exec (.tpoGo now n mode pol) s = .next (s.after ((s.dev.advance now).tpoWrite n (mode % 2) (pol % 2) false true))) ∧
    (∀ (now n mode pol : Nat), s.dev.mrdTrap now = false → (Instr.tpoCtrlCancel now n mode pol).wellFormed = true → 
      exec (.tpoCtrlCancel now n mode pol) s = .next (s.after ((s.dev.advance now).tpoWrite n (mode % 2) (pol % 2) true false))) ∧
    (∀ (now n : Nat), s.dev.mrdTrap now = false → (Instr.tpoPulse now n).wellFormed = true → exec (.tpoPulse now n) s = .next (s.after ((s.dev.advance now).tpoPulse n))) ∧
    (∀ (now n : Nat), s.dev.mrdTrap now = false → (Instr.tpoPulseEnd now n).wellFormed = true → exec (.tpoPulseEnd now n) s = .next (s.after ((s.dev.advance now).tpoEnd n))))

/-- The commands of the packet path complete (spec/02_fabric_protocol.md to spec/06_scheduling_shaping.md). -/
def Obligations.PacketCommandsComplete : Prop :=
  ∀ s : State, s.dev.inReset = false →
    (∀ (now c : Nat) (raw : List Byte) (lost : Bool) (sram : Option Dev.SramErr), s.dev.mrdTrap now = false → (Instr.packetHeaderArrival now c raw lost sram).wellFormed = true → (!lost && hdrCrcOk raw && (s.dev.advance now).overdraws ((s.dev.advance now).headerArrival c raw lost)) = false → 
      exec (.packetHeaderArrival now c raw lost sram) s = .next (s.after (let d := s.dev.advance now; match sram with | some e => (d.headerArrival c raw lost).sramError e | none => d.headerArrival c raw lost))) ∧
    (∀ (now c : Nat) (pay check : List Byte) (lost : Bool), s.dev.mrdTrap now = false → (Instr.payloadEnd now c pay check lost).wellFormed = true → 
      exec (.payloadEnd now c pay check lost) s = .next (s.after ((s.dev.advance now).payloadEnd c pay check lost))) ∧
    (∀ (now id : Nat) (errs : List (Nat × List Nat)), s.dev.mrdTrap now = false → 
      exec (.emOverflowLookupDone now id errs) s = .next (s.after (let d := s.dev.advance now; match d.pkt? id with | some k => if k.place = Place.emWait then (d.seeing errs).overflowDone k else d | none => d))) ∧
    (∀ (now pl : Nat) (errs : List (Nat × List Nat)), s.dev.mrdTrap now = false → (Instr.emLearnApply now pl errs).wellFormed = true → 
      exec (.emLearnApply now pl errs) s = .next (s.after (((s.dev.advance now).seeing errs).learnNext pl))) ∧
    (∀ (now part : Nat) (mac : List Byte) (errs : List (Nat × List Nat)), s.dev.mrdTrap now = false → (Instr.emAgeOut now part mac errs).wellFormed = true → ((s.dev.advance now).ageDiffers) = false → 
      exec (.emAgeOut now part mac errs) s = .next (s.after (((s.dev.advance now).seeing errs).emAgeOut part mac))) ∧
    (∀ (now id : Nat), s.dev.mrdTrap now = false → ((s.dev.advance now).overdraws ((s.dev.advance now).fenceGo id)) = false → 
      exec (.fenceRelease now id) s = .next (s.after ((s.dev.advance now).fenceGo id))) ∧
    (∀ (now id : Nat), s.dev.mrdTrap now = false → ((s.dev.advance now).overdraws ((s.dev.advance now).stallGo id)) = false → 
      exec (.fenceStallRelease now id) s = .next (s.after ((s.dev.advance now).stallGo id))) ∧
    (∀ (now : Nat) (full : List Nat) (errs : List Dev.PartErr), s.dev.mrdTrap now = false → (Instr.crossbarSlot now full errs).wellFormed = true → 
      exec (.crossbarSlot now full errs) s = .next (s.after ((s.dev.advance now).slot full errs))) ∧
    (∀ (now x : Nat), s.dev.mrdTrap now = false → (Instr.sliceHardFault now x).wellFormed = true → 
      exec (.sliceHardFault now x) s = .next (s.after ((s.dev.advance now).sliceHard x))) ∧
    (∀ (now id : Nat) (out : Option Nat), s.dev.mrdTrap now = false → 
      exec (.ageLimit now id out) s = .next (s.after (let d := s.dev.advance now; match d.pkt? id with | some k => d.ageLimitAt k out | none => d))) ∧
    (∀ (now c : Nat), s.dev.mrdTrap now = false → (Instr.egressChoose now c).wellFormed = true → 
      exec (.egressChoose now c) s = .next (s.after ((s.dev.advance now).choose c))) ∧
    (∀ (now c v : Nat), s.dev.mrdTrap now = false → (Instr.launchTimeReached now c v).wellFormed = true → 
      exec (.launchTimeReached now c v) s = .next (s.after ((s.dev.advance now)))) ∧
    (∀ (now c : Nat) (ptr : Option Nat), s.dev.mrdTrap now = false → (Instr.transmitComplete now c ptr).wellFormed = true → 
      exec (.transmitComplete now c ptr) s = .next (s.after ((s.dev.advance now).txComplete c ptr))) ∧
    (∀ (now : Nat) (tu : Bool), s.dev.mrdTrap now = false → exec (.originatedAdmit now tu) s = .next (s.after ((s.dev.advance now).originatedAdmit tu))) ∧
    (∀ (now c len cyc : Nat), s.dev.mrdTrap now = false → (Instr.gclGo now c len cyc).wellFormed = true → s.dev.reaches (R.GCL_CTRL (Dev.plOf c) (c % 64)) = true → ((s.dev.advance now).gclBad c (len % 128) (cyc % 8192)) = false → 
      exec (.gclGo now c len cyc) s = .next (s.after ((s.dev.advance now).gclWrite c (len % 128) (cyc % 8192) false true))) ∧
    (∀ (now c len cyc : Nat), s.dev.mrdTrap now = false → (Instr.gclCancel now c len cyc).wellFormed = true → s.dev.reaches (R.GCL_CTRL (Dev.plOf c) (c % 64)) = true → 
      exec (.gclCancel now c len cyc) s = .next (s.after ((s.dev.advance now).gclWrite c (len % 128) (cyc % 8192) true false))) ∧
    (∀ (now : Nat), s.dev.mrdTrap now = false → exec (.gclHandover now) s = .next (s.after ((s.dev.advance now).gclHandOver))) ∧
    (∀ (now c : Nat), s.dev.mrdTrap now = false → (Instr.gateIntervalExpiry now c).wellFormed = true → 
      exec (.gateIntervalExpiry now c) s = .next (s.after ((s.dev.advance now))))

/-- The commands of the collective engine, the vats, the collective engine table window and the messages that the tables take complete (spec/07_collectives.md, spec/08_vat_arithmetic.md). -/
def Obligations.CollectiveCommandsComplete : Prop :=
  ∀ s : State, s.dev.inReset = false →
    (∀ (now b : Nat) (err : Option Dev.ResErr), s.dev.mrdTrap now = false → (Instr.resultAdmit now b err).wellFormed = true → ((s.dev.advance now).resultBad b) = false → 
      exec (.resultAdmit now b err) s = .next (s.after ((s.dev.advance now).resultAdmit b err))) ∧
    (∀ (now b : Nat) (err : Option DescErr), s.dev.mrdTrap now = false → (Instr.contributionAccept now b err).wellFormed = true → ((s.dev.advance now).contribBad b err) = false → 
      exec (.contributionAccept now b err) s = .next (s.after ((s.dev.advance now).contribAccept b err))) ∧
    (∀ (now lv : Nat) (err : Option DescErr), s.dev.mrdTrap now = false → (Instr.vatContribution now lv err).wellFormed = true → ((s.dev.advance now).vatBad lv err) = false → 
      exec (.vatContribution now lv err) s = .next (s.after ((s.dev.advance now).vatContribution lv err))) ∧
    (∀ (now lv : Nat), s.dev.mrdTrap now = false → (Instr.handlerStep now lv).wellFormed = true → 
      exec (.handlerStep now lv) s = .next (s.after ((s.dev.advance now).handlerStep lv))) ∧
    (∀ (now lv k : Nat) (err : Option DescErr), s.dev.mrdTrap now = false → (Instr.handlerFinal now lv k err).wellFormed = true → 
      exec (.handlerFinal now lv k err) s = .next (s.after (((s.dev.advance now).meeting err).handlerFinal lv k))) ∧
    (∀ (now lv arr : Nat) (err : Option (Nat × Bool)) (desc : Option DescErr), s.dev.mrdTrap now = false → (Instr.arrayOpComplete now lv arr err desc).wellFormed = true → 
      exec (.arrayOpComplete now lv arr err desc) s = .next (s.after (let d := s.dev.advance now; match err with | some e => ((d.meeting desc).arrayOpComplete lv arr).tallyError lv e.1 e.2 | none => d.arrayOpComplete lv arr))) ∧
    (∀ (now lv k : Nat) (ptr : Option (Nat × Nat × Nat)) (err : Option DescErr), s.dev.mrdTrap now = false → (Instr.chunkTimeout now lv k ptr err).wellFormed = true → 
      exec (.chunkTimeout now lv k ptr err) s = .next (s.after ((s.dev.advance now).chunkTimeout lv k ptr err))) ∧
    (∀ (now lv stream chunk : Nat), s.dev.mrdTrap now = false → (Instr.recordEntryExpire now lv stream chunk).wellFormed = true → 
      exec (.recordEntryExpire now lv stream chunk) s = .next (s.after ((s.dev.advance now).recExpire lv stream chunk))) ∧
    (∀ (now b : Nat) (err : Option DescErr), s.dev.mrdTrap now = false → (Instr.launchAckAccept now b err).wellFormed = true → ((s.dev.advance now).ackBad b err) = false → 
      exec (.launchAckAccept now b err) s = .next (s.after ((s.dev.advance now).ackAccept b err))) ∧
    (∀ (now b stream chunk : Nat) (err : Option DescErr), s.dev.mrdTrap now = false → (Instr.launchTimeout now b stream chunk err).wellFormed = true → 
      exec (.launchTimeout now b stream chunk err) s = .next (s.after ((s.dev.advance now).launchTimeout b stream chunk err))) ∧
    (∀ (now b stream chunk : Nat), s.dev.mrdTrap now = false → (Instr.launchSlotFree now b stream chunk).wellFormed = true → 
      exec (.launchSlotFree now b stream chunk) s = .next (s.after ((s.dev.advance now).launchFree b stream chunk))) ∧
    (∀ (now part : Nat), s.dev.mrdTrap now = false → (Instr.ceAbortGo now part).wellFormed = true → s.dev.reaches (R.CE_ABORT) = true → 
      exec (.ceAbortGo now part) s = .next (s.after ((((s.dev.advance now).setFld R.CE_ABORT F.CE_ABORT_PARTITION part).abortRequest part).1))) ∧
    (∀ (now : Nat) (err : Option DescErr), s.dev.mrdTrap now = false → exec (.partitionAbortRun now err) s = .next (s.after (((s.dev.advance now).meeting err).abortRun))) ∧
    (∀ (now table : Nat), s.dev.mrdTrap now = false → s.dev.reaches (R.CE_TW_CMD) = true → 
      exec (.ceTwRead now table) s = .next (s.after ((s.dev.advance now).ceTwStart 1 (table % 16)))) ∧
    (∀ (now table : Nat), s.dev.mrdTrap now = false → s.dev.reaches (R.CE_TW_CMD) = true → 
      exec (.ceTwWrite now table) s = .next (s.after ((s.dev.advance now).ceTwStart 2 (table % 16)))) ∧
    (∀ (now table : Nat), s.dev.mrdTrap now = false → s.dev.reaches (R.CE_TW_CMD) = true → 
      exec (.ceTwInvalidate now table) s = .next (s.after ((s.dev.advance now).ceTwStart 3 (table % 16)))) ∧
    (∀ (now : Nat) (err : Option DescErr), s.dev.mrdTrap now = false → 
      exec (.ceWindowComplete now err) s = .next (s.after (((s.dev.advance now).ceTwComplete err).winDone 16))) ∧
    (∀ (now pl table bank : Nat), s.dev.mrdTrap now = false → (Instr.twRead now pl table bank).wellFormed = true → s.dev.reaches (R.TW_CMD pl) = true → 
      exec (.twRead now pl table bank) s = .next (s.after ((s.dev.advance now).twStart pl 1 (table % 16) (bank % 2)))) ∧
    (∀ (now pl table bank : Nat), s.dev.mrdTrap now = false → (Instr.twWrite now pl table bank).wellFormed = true → s.dev.reaches (R.TW_CMD pl) = true → 
      exec (.twWrite now pl table bank) s = .next (s.after ((s.dev.advance now).twStart pl 2 (table % 16) (bank % 2)))) ∧
    (∀ (now pl table bank : Nat), s.dev.mrdTrap now = false → (Instr.twInvalidate now pl table bank).wellFormed = true → s.dev.reaches (R.TW_CMD pl) = true → 
      exec (.twInvalidate now pl table bank) s = .next (s.after ((s.dev.advance now).twStart pl 3 (table % 16) (bank % 2)))) ∧
    (∀ (now pl table bank : Nat), s.dev.mrdTrap now = false → (Instr.twBankCopy now pl table bank).wellFormed = true → s.dev.reaches (R.TW_CMD pl) = true → 
      exec (.twBankCopy now pl table bank) s = .next (s.after ((s.dev.advance now).twStart pl 4 (table % 16) (bank % 2)))) ∧
    (∀ (now pl : Nat), s.dev.mrdTrap now = false → (Instr.twEmInsert now pl).wellFormed = true → s.dev.reaches (R.TW_CMD pl) = true → 
      exec (.twEmInsert now pl) s = .next (s.after ((s.dev.advance now).twStart pl 5 5 0))) ∧
    (∀ (now pl : Nat), s.dev.mrdTrap now = false → (Instr.twEmDelete now pl).wellFormed = true → s.dev.reaches (R.TW_CMD pl) = true → 
      exec (.twEmDelete now pl) s = .next (s.after ((s.dev.advance now).twStart pl 6 5 0))) ∧
    (∀ (now pl : Nat), s.dev.mrdTrap now = false → (Instr.twEmFind now pl).wellFormed = true → s.dev.reaches (R.TW_CMD pl) = true → 
      exec (.twEmFind now pl) s = .next (s.after ((s.dev.advance now).twStart pl 7 5 0))) ∧
    (∀ (now pl : Nat), s.dev.mrdTrap now = false → (Instr.twEmFlush now pl).wellFormed = true → s.dev.reaches (R.TW_CMD pl) = true → 
      exec (.twEmFlush now pl) s = .next (s.after ((s.dev.advance now).twStart pl 8 5 0))) ∧
    (∀ (now pl : Nat) (ecc : Bool) (errs : List (Nat × List Nat)), s.dev.mrdTrap now = false → (Instr.tableWindowComplete now pl ecc errs).wellFormed = true → ((s.dev.advance now).twTwice pl) = false → 
      exec (.tableWindowComplete now pl ecc errs) s = .next (s.after ((((s.dev.advance now).seeing errs).twComplete pl ecc).winDone pl)))

/-- The instructions of the sequencer and the commands of budgets and messages complete (spec/09_vat_programming.md R323). -/
def Obligations.SequencerInstructionsComplete : Prop :=
  ∀ s : State, s.dev.inReset = false →
    (∀ (lv : Nat) (ecc : Bool) (err : Option DescErr), (Instr.seqNop lv ecc err).wellFormed = true → exec (.seqNop lv ecc err) s = .next (s.after ((s.dev.meeting err).issue lv 0x00 ecc Dev.iNop))) ∧
    (∀ (lv : Nat) (ecc : Bool) (err : Option DescErr), (Instr.seqDone lv ecc err).wellFormed = true → exec (.seqDone lv ecc err) s = .next (s.after ((s.dev.meeting err).issue lv 0x01 ecc Dev.iDone))) ∧
    (∀ (lv : Nat) (ecc : Bool) (err : Option DescErr), (Instr.seqSetf lv ecc err).wellFormed = true → exec (.seqSetf lv ecc err) s = .next (s.after ((s.dev.meeting err).issue lv 0x02 ecc Dev.iSetf))) ∧
    (∀ (lv : Nat) (ecc : Bool) (err : Option DescErr), (Instr.seqLi lv ecc err).wellFormed = true → exec (.seqLi lv ecc err) s = .next (s.after ((s.dev.meeting err).issue lv 0x08 ecc Dev.iLi))) ∧
    (∀ (lv : Nat) (ecc : Bool) (err : Option DescErr), (Instr.seqLui lv ecc err).wellFormed = true → exec (.seqLui lv ecc err) s = .next (s.after ((s.dev.meeting err).issue lv 0x09 ecc Dev.iLui))) ∧
    (∀ (lv : Nat) (ecc : Bool) (err : Option DescErr), (Instr.seqAdd lv ecc err).wellFormed = true → exec (.seqAdd lv ecc err) s = .next (s.after ((s.dev.meeting err).issue lv 0x10 ecc (Dev.iAlu 0)))) ∧
    (∀ (lv : Nat) (ecc : Bool) (err : Option DescErr), (Instr.seqSub lv ecc err).wellFormed = true → exec (.seqSub lv ecc err) s = .next (s.after ((s.dev.meeting err).issue lv 0x11 ecc (Dev.iAlu 1)))) ∧
    (∀ (lv : Nat) (ecc : Bool) (err : Option DescErr), (Instr.seqAnd lv ecc err).wellFormed = true → exec (.seqAnd lv ecc err) s = .next (s.after ((s.dev.meeting err).issue lv 0x12 ecc (Dev.iAlu 2)))) ∧
    (∀ (lv : Nat) (ecc : Bool) (err : Option DescErr), (Instr.seqOr lv ecc err).wellFormed = true → exec (.seqOr lv ecc err) s = .next (s.after ((s.dev.meeting err).issue lv 0x13 ecc (Dev.iAlu 3)))) ∧
    (∀ (lv : Nat) (ecc : Bool) (err : Option DescErr), (Instr.seqXor lv ecc err).wellFormed = true → exec (.seqXor lv ecc err) s = .next (s.after ((s.dev.meeting err).issue lv 0x14 ecc (Dev.iAlu 4)))) ∧
    (∀ (lv : Nat) (ecc : Bool) (err : Option DescErr), (Instr.seqShl lv ecc err).wellFormed = true → exec (.seqShl lv ecc err) s = .next (s.after ((s.dev.meeting err).issue lv 0x15 ecc (Dev.iAlu 5)))) ∧
    (∀ (lv : Nat) (ecc : Bool) (err : Option DescErr), (Instr.seqShr lv ecc err).wellFormed = true → exec (.seqShr lv ecc err) s = .next (s.after ((s.dev.meeting err).issue lv 0x16 ecc (Dev.iAlu 6)))) ∧
    (∀ (lv : Nat) (ecc : Bool) (err : Option DescErr), (Instr.seqSar lv ecc err).wellFormed = true → exec (.seqSar lv ecc err) s = .next (s.after ((s.dev.meeting err).issue lv 0x17 ecc (Dev.iAlu 7)))) ∧
    (∀ (lv : Nat) (ecc : Bool) (err : Option DescErr), (Instr.seqMul lv ecc err).wellFormed = true → exec (.seqMul lv ecc err) s = .next (s.after ((s.dev.meeting err).issue lv 0x18 ecc (Dev.iAlu 8)))) ∧
    (∀ (lv : Nat) (ecc : Bool) (err : Option DescErr), (Instr.seqMax lv ecc err).wellFormed = true → exec (.seqMax lv ecc err) s = .next (s.after ((s.dev.meeting err).issue lv 0x19 ecc (Dev.iAlu 9)))) ∧
    (∀ (lv : Nat) (ecc : Bool) (err : Option DescErr), (Instr.seqMin lv ecc err).wellFormed = true → exec (.seqMin lv ecc err) s = .next (s.after ((s.dev.meeting err).issue lv 0x1A ecc (Dev.iAlu 10)))) ∧
    (∀ (lv : Nat) (ecc : Bool) (err : Option DescErr), (Instr.seqAddi lv ecc err).wellFormed = true → exec (.seqAddi lv ecc err) s = .next (s.after ((s.dev.meeting err).issue lv 0x20 ecc (Dev.iAluI 0)))) ∧
    (∀ (lv : Nat) (ecc : Bool) (err : Option DescErr), (Instr.seqSubi lv ecc err).wellFormed = true → exec (.seqSubi lv ecc err) s = .next (s.after ((s.dev.meeting err).issue lv 0x21 ecc (Dev.iAluI 1)))) ∧
    (∀ (lv : Nat) (ecc : Bool) (err : Option DescErr), (Instr.seqAndi lv ecc err).wellFormed = true → exec (.seqAndi lv ecc err) s = .next (s.after ((s.dev.meeting err).issue lv 0x22 ecc (Dev.iAluI 2)))) ∧
    (∀ (lv : Nat) (ecc : Bool) (err : Option DescErr), (Instr.seqOri lv ecc err).wellFormed = true → exec (.seqOri lv ecc err) s = .next (s.after ((s.dev.meeting err).issue lv 0x23 ecc (Dev.iAluI 3)))) ∧
    (∀ (lv : Nat) (ecc : Bool) (err : Option DescErr), (Instr.seqXori lv ecc err).wellFormed = true → exec (.seqXori lv ecc err) s = .next (s.after ((s.dev.meeting err).issue lv 0x24 ecc (Dev.iAluI 4)))) ∧
    (∀ (lv : Nat) (ecc : Bool) (err : Option DescErr), (Instr.seqShli lv ecc err).wellFormed = true → exec (.seqShli lv ecc err) s = .next (s.after ((s.dev.meeting err).issue lv 0x25 ecc (Dev.iAluI 5)))) ∧
    (∀ (lv : Nat) (ecc : Bool) (err : Option DescErr), (Instr.seqShri lv ecc err).wellFormed = true → exec (.seqShri lv ecc err) s = .next (s.after ((s.dev.meeting err).issue lv 0x26 ecc (Dev.iAluI 6)))) ∧
    (∀ (lv : Nat) (ecc : Bool) (err : Option DescErr), (Instr.seqSari lv ecc err).wellFormed = true → exec (.seqSari lv ecc err) s = .next (s.after ((s.dev.meeting err).issue lv 0x27 ecc (Dev.iAluI 7)))) ∧
    (∀ (lv : Nat) (ecc : Bool) (err : Option DescErr), (Instr.seqMuli lv ecc err).wellFormed = true → exec (.seqMuli lv ecc err) s = .next (s.after ((s.dev.meeting err).issue lv 0x28 ecc (Dev.iAluI 8)))) ∧
    (∀ (lv : Nat) (ecc : Bool) (err : Option DescErr), (Instr.seqMaxi lv ecc err).wellFormed = true → exec (.seqMaxi lv ecc err) s = .next (s.after ((s.dev.meeting err).issue lv 0x29 ecc (Dev.iAluI 9)))) ∧
    (∀ (lv : Nat) (ecc : Bool) (err : Option DescErr), (Instr.seqMini lv ecc err).wellFormed = true → exec (.seqMini lv ecc err) s = .next (s.after ((s.dev.meeting err).issue lv 0x2A ecc (Dev.iAluI 10)))) ∧
    (∀ (lv : Nat) (ecc : Bool) (err : Option DescErr), (Instr.seqGets lv ecc err).wellFormed = true → exec (.seqGets lv ecc err) s = .next (s.after ((s.dev.meeting err).issue lv 0x30 ecc Dev.iGets))) ∧
    (∀ (lv : Nat) (ecc : Bool) (err : Option DescErr), (Instr.seqLdw lv ecc err).wellFormed = true → exec (.seqLdw lv ecc err) s = .next (s.after ((s.dev.meeting err).issue lv 0x31 ecc Dev.iLdw))) ∧
    (∀ (lv : Nat) (ecc : Bool) (err : Option DescErr), (Instr.seqStw lv ecc err).wellFormed = true → exec (.seqStw lv ecc err) s = .next (s.after ((s.dev.meeting err).issue lv 0x32 ecc Dev.iStw))) ∧
    (∀ (lv : Nat) (ecc : Bool) (err : Option DescErr), (Instr.seqBra lv ecc err).wellFormed = true → exec (.seqBra lv ecc err) s = .next (s.after ((s.dev.meeting err).issue lv 0x38 ecc Dev.iBra))) ∧
    (∀ (lv : Nat) (ecc : Bool) (err : Option DescErr), (Instr.seqBeq lv ecc err).wellFormed = true → exec (.seqBeq lv ecc err) s = .next (s.after ((s.dev.meeting err).issue lv 0x39 ecc Dev.iBeq))) ∧
    (∀ (lv : Nat) (ecc : Bool) (err : Option DescErr), (Instr.seqBne lv ecc err).wellFormed = true → exec (.seqBne lv ecc err) s = .next (s.after ((s.dev.meeting err).issue lv 0x3A ecc Dev.iBne))) ∧
    (∀ (lv : Nat) (ecc : Bool) (err : Option DescErr), (Instr.seqBlt lv ecc err).wellFormed = true → exec (.seqBlt lv ecc err) s = .next (s.after ((s.dev.meeting err).issue lv 0x3B ecc Dev.iBlt))) ∧
    (∀ (lv : Nat) (ecc : Bool) (err : Option DescErr), (Instr.seqBge lv ecc err).wellFormed = true → exec (.seqBge lv ecc err) s = .next (s.after ((s.dev.meeting err).issue lv 0x3C ecc Dev.iBge))) ∧
    (∀ (lv : Nat) (ecc : Bool) (err : Option DescErr), (Instr.seqAop lv ecc err).wellFormed = true → exec (.seqAop lv ecc err) s = .next (s.after ((s.dev.meeting err).issue lv 0x40 ecc Dev.iAop))) ∧
    (∀ (lv : Nat) (ecc : Bool) (err : Option DescErr), (Instr.seqWait lv ecc err).wellFormed = true → exec (.seqWait lv ecc err) s = .next (s.after ((s.dev.meeting err).issue lv 0x41 ecc Dev.iWait))) ∧
    (∀ (lv : Nat) (ecc : Bool) (err : Option DescErr), (Instr.seqOut lv ecc err).wellFormed = true → exec (.seqOut lv ecc err) s = .next (s.after ((s.dev.meeting err).issue lv 0x48 ecc Dev.iOut))) ∧
    (∀ (lv : Nat) (ecc : Bool) (err : Option DescErr), (Instr.seqSend lv ecc err).wellFormed = true → exec (.seqSend lv ecc err) s = .next (s.after ((s.dev.meeting err).issue lv 0x50 ecc Dev.iSend))) ∧
    (∀ (lv : Nat) (ecc : Bool) (err : Option DescErr), (Instr.seqRecv lv ecc err).wellFormed = true → exec (.seqRecv lv ecc err) s = .next (s.after ((s.dev.meeting err).issue lv 0x51 ecc Dev.iRecv))) ∧
    (∀ (now lv : Nat) (err : Option DescErr), s.dev.mrdTrap now = false → (Instr.recipeBudgetExpire now lv err).wellFormed = true → 
      exec (.recipeBudgetExpire now lv err) s = .next (s.after (((s.dev.advance now).meeting err).budgetExpire lv))) ∧
    (∀ (now src dst : Nat), s.dev.mrdTrap now = false → (Instr.messageDeliver now src dst).wellFormed = true → 
      exec (.messageDeliver now src dst) s = .next (s.after ((s.dev.advance now).msgDeliver src dst))) ∧
    (∀ (now lv : Nat), s.dev.mrdTrap now = false → (Instr.messageExpire now lv).wellFormed = true → 
      exec (.messageExpire now lv) s = .next (s.after ((s.dev.advance now).msgExpire lv)))

/-- The commands of links, lanes, Indigo circuits and optical health complete (spec/11_optical_links.md, spec/12_optical_health.md). Those of the pins and supplies of reset act in reset too. -/
def Obligations.LinkAndOpticalCommandsComplete : Prop :=
  ∀ s : State,
    (∀ (now k : Nat), (s.dev.inReset = true ∨ s.dev.mrdTrap now = false) → (Instr.moduleInserted now k).wellFormed = true → 
      exec (.moduleInserted now k) s = .next (s.after ((s.dev.runOn now).modulePin s.dev.inReset k true))) ∧
    (∀ (now k : Nat), (s.dev.inReset = true ∨ s.dev.mrdTrap now = false) → (Instr.moduleRemoved now k).wellFormed = true → 
      exec (.moduleRemoved now k) s = .next (s.after ((s.dev.runOn now).modulePin s.dev.inReset k false))) ∧
    (s.dev.inReset = false →
        (∀ (now c : Nat) (cws : List (Option (List Nat))) (wires : List Dev.WireErr), s.dev.mrdTrap now = false → (Instr.rowReceive now c cws wires).wellFormed = true → ((s.dev.advance now).overdraws ((s.dev.advance now).rowReceive c cws wires)) = false → 
      exec (.rowReceive now c cws wires) s = .next (s.after ((s.dev.advance now).rowReceive c cws wires))) ∧
    (∀ (now c : Nat) (data : List Byte) (wires : List Dev.WireErr), s.dev.mrdTrap now = false → (Instr.lcsSend now c data wires).wellFormed = true → 
      exec (.lcsSend now c data wires) s = .next (s.after ((s.dev.advance now).lcsSend c data wires))) ∧
    (∀ (now c w row : Nat), s.dev.mrdTrap now = false → (Instr.lcsReceive now c w row).wellFormed = true → 
      exec (.lcsReceive now c w row) s = .next (s.after (let d := s.dev.advance now; d.lcsReceive c (w % 2 ^ 40) (row % 2 ^ 24) d.lc))) ∧
    (∀ (now c : Nat), s.dev.mrdTrap now = false → (Instr.lcsTimeoutXoff now c).wellFormed = true → 
      exec (.lcsTimeoutXoff now c) s = .next (s.after ((s.dev.advance now).lcsStarve c))) ∧
    (∀ (now c : Nat), s.dev.mrdTrap now = false → (Instr.lcsTimeoutDown now c).wellFormed = true → 
      exec (.lcsTimeoutDown now c) s = .next (s.after ((s.dev.advance now).lcsDown c))) ∧
    (∀ (now c chip port : Nat) (split : Bool) (row first : Nat), s.dev.mrdTrap now = false → (Instr.train now c chip port split row first).wellFormed = true → 
      exec (.train now c chip port split row first) s = .next (s.after ((s.dev.advance now).trainMsg c (chip % 2 ^ 18) (port % 1024) split (row % 2 ^ 24) (first % 2 ^ 24)))) ∧
    (∀ (now c row : Nat), s.dev.mrdTrap now = false → (Instr.echoReq now c row).wellFormed = true → 
      exec (.echoReq now c row) s = .next (s.after ((s.dev.advance now).echoReq c (row % 2 ^ 24)))) ∧
    (∀ (now c row turn : Nat), s.dev.mrdTrap now = false → (Instr.echoResp now c row turn).wellFormed = true → 
      exec (.echoResp now c row turn) s = .next (s.after ((s.dev.advance now).echoResp c (row % 2 ^ 24) (turn % 65536)))) ∧
    (∀ (now c lvl : Nat), s.dev.mrdTrap now = false → (Instr.feature now c lvl).wellFormed = true → 
      exec (.feature now c lvl) s = .next (s.after ((s.dev.advance now).featureMsg c (lvl % 256)))) ∧
    (∀ (now c lane wl row first : Nat), s.dev.mrdTrap now = false → (Instr.move now c lane wl row first).wellFormed = true → 
      exec (.move now c lane wl row first) s = .next (s.after ((s.dev.advance now).laneMsg c 1 (lane % 16) (wl % 16) (row % 2 ^ 24) (first % 2 ^ 24)))) ∧
    (∀ (now c lane wl row : Nat), s.dev.mrdTrap now = false → (Instr.moveAck now c lane wl row).wellFormed = true → 
      exec (.moveAck now c lane wl row) s = .next (s.after ((s.dev.advance now).laneAck c 1 (lane % 16) (wl % 16) (row % 2 ^ 24)))) ∧
    (∀ (now c lane wl row first : Nat), s.dev.mrdTrap now = false → (Instr.restore now c lane wl row first).wellFormed = true → 
      exec (.restore now c lane wl row first) s = .next (s.after ((s.dev.advance now).laneMsg c 3 (lane % 16) (wl % 16) (row % 2 ^ 24) (first % 2 ^ 24)))) ∧
    (∀ (now c lane wl row : Nat), s.dev.mrdTrap now = false → (Instr.restoreAck now c lane wl row).wellFormed = true → 
      exec (.restoreAck now c lane wl row) s = .next (s.after ((s.dev.advance now).laneAck c 3 (lane % 16) (wl % 16) (row % 2 ^ 24)))) ∧
    (∀ (now c lane wl row first : Nat), s.dev.mrdTrap now = false → (Instr.narrow now c lane wl row first).wellFormed = true → 
      exec (.narrow now c lane wl row first) s = .next (s.after ((s.dev.advance now).laneMsg c 5 (lane % 16) (wl % 16) (row % 2 ^ 24) (first % 2 ^ 24)))) ∧
    (∀ (now c lane wl row : Nat), s.dev.mrdTrap now = false → (Instr.narrowAck now c lane wl row).wellFormed = true → 
      exec (.narrowAck now c lane wl row) s = .next (s.after ((s.dev.advance now).laneAck c 5 (lane % 16) (wl % 16) (row % 2 ^ 24)))) ∧
    (∀ (now c lane wl row : Nat), s.dev.mrdTrap now = false → (Instr.refuse now c lane wl row).wellFormed = true → 
      exec (.refuse now c lane wl row) s = .next (s.after ((s.dev.advance now).laneRefuse c (lane % 16) (wl % 16) (row % 2 ^ 24)))) ∧
    (∀ (now c code lane wl row first : Nat), s.dev.mrdTrap now = false → (Instr.laneRequest now c code lane wl row first).wellFormed = true → 
      exec (.laneRequest now c code lane wl row first) s = .next (s.after ((s.dev.advance now).laneRequest c code (lane % 8) (wl % 16) (row % 2 ^ 24) (first % 2 ^ 24)))) ∧
    (∀ (now c : Nat), s.dev.mrdTrap now = false → (Instr.down now c).wellFormed = true → exec (.down now c) s = .next (s.after ((s.dev.advance now).downMsg c))) ∧
    (∀ (now c : Nat) (tx : Bool), s.dev.mrdTrap now = false → (Instr.laneEffectRow now c tx).wellFormed = true → 
      exec (.laneEffectRow now c tx) s = .next (s.after ((s.dev.advance now).laneEffect c tx))) ∧
    (∀ (now c : Nat), s.dev.mrdTrap now = false → (Instr.laneAckTimeout now c).wellFormed = true → 
      exec (.laneAckTimeout now c) s = .next (s.after ((s.dev.advance now).laneAckTimeout c))) ∧
    (∀ (now p j : Nat) (rx : Bool) (why : Nat), s.dev.mrdTrap now = false → (Instr.laneLost now p j rx why).wellFormed = true → 
      exec (.laneLost now p j rx why) s = .next (s.after ((s.dev.advance now).laneLostBy p j rx why))) ∧
    (∀ (now c : Nat), s.dev.mrdTrap now = false → (Instr.holdoffExpire now c).wellFormed = true → 
      exec (.holdoffExpire now c) s = .next (s.after ((s.dev.advance now).holdoffExpire c))) ∧
    (∀ (now p : Nat), s.dev.mrdTrap now = false → (Instr.linkEnable now p).wellFormed = true → s.dev.reaches (R.YZ_CTRL p) = true → 
      exec (.linkEnable now p) s = .next (s.after ((s.dev.advance now).putRw (R.YZ_CTRL p) (2 ^ 31) (2 ^ 31)))) ∧
    (∀ (now p : Nat), s.dev.mrdTrap now = false → (Instr.linkDisable now p).wellFormed = true → s.dev.reaches (R.YZ_CTRL p) = true → 
      exec (.linkDisable now p) s = .next (s.after ((s.dev.advance now).putRw (R.YZ_CTRL p) (2 ^ 31) 0))) ∧
    (∀ (now p j : Nat), s.dev.mrdTrap now = false → (Instr.lightArrival now p j).wellFormed = true → 
      exec (.lightArrival now p j) s = .next (s.after ((s.dev.advance now).lightArrival p j))) ∧
    (∀ (now c : Nat), s.dev.mrdTrap now = false → (Instr.lightExit now c).wellFormed = true → exec (.lightExit now c) s = .next (s.after ((s.dev.advance now).lightExit c))) ∧
    (∀ (now c j : Nat) (cw : List Nat), s.dev.mrdTrap now = false → (Instr.trainingCodeword now c j cw).wellFormed = true → 
      exec (.trainingCodeword now c j cw) s = .next (s.after ((s.dev.advance now).trainingCodeword c j cw))) ∧
    (∀ (now c : Nat), s.dev.mrdTrap now = false → (Instr.trainingTimeout now c).wellFormed = true → 
      exec (.trainingTimeout now c) s = .next (s.after ((s.dev.advance now).trainingTimeout c))) ∧
    (∀ (now n a b : Nat), s.dev.mrdTrap now = false → (Instr.indigoEnable now n a b).wellFormed = true → s.dev.reaches (R.IND_PAIR n) = true → 
      exec (.indigoEnable now n a b) s = .next (s.after ((s.dev.advance now).putRw (R.IND_PAIR n) (rwMask (R.IND_PAIR n)) (2 ^ 31 + b * 512 + a)))) ∧
    (∀ (now n : Nat), s.dev.mrdTrap now = false → (Instr.indigoDisable now n).wellFormed = true → s.dev.reaches (R.IND_PAIR n) = true → 
      exec (.indigoDisable now n) s = .next (s.after ((s.dev.advance now).putRw (R.IND_PAIR n) (2 ^ 31) 0))) ∧
    (∀ (now n : Nat), s.dev.mrdTrap now = false → (Instr.indigoActive now n).wellFormed = true → 
      exec (.indigoActive now n) s = .next (s.after ((s.dev.advance now).indigoActive n))) ∧
    (∀ (now n : Nat) (ab : Bool) (j : Nat) (cw : List Nat) (wires outs : List Dev.WireErr), s.dev.mrdTrap now = false → (Instr.indigoCodewordPass now n ab j cw wires outs).wellFormed = true → 
      exec (.indigoCodewordPass now n ab j cw wires outs) s = .next (s.after ((s.dev.advance now).indigoPass n ab j cw wires outs))) ∧
    (∀ (now p j : Nat) (rx : Bool) (chips : List Bool), s.dev.mrdTrap now = false → (Instr.identityRead now p j rx chips).wellFormed = true → 
      exec (.identityRead now p j rx chips) s = .next (s.after ((s.dev.advance now).identityRead p j rx chips))) ∧
    (∀ (now p j : Nat) (rx : Bool), s.dev.mrdTrap now = false → (Instr.identityTimeout now p j rx).wellFormed = true → 
      exec (.identityTimeout now p j rx) s = .next (s.after ((s.dev.advance now).identityTimeout p j rx))) ∧
    (∀ (now p j : Nat) (rx : Bool) (chips : List Bool), s.dev.mrdTrap now = false → (Instr.relockAttemptEnd now p j rx chips).wellFormed = true → 
      exec (.relockAttemptEnd now p j rx chips) s = .next (s.after ((s.dev.advance now).relockEnd p j rx chips))) ∧
    (∀ (now : Nat) (powers : List LanePower) (limits : List (Nat × Nat)), s.dev.mrdTrap now = false → (Instr.marginEval now powers limits).wellFormed = true → 
      exec (.marginEval now powers limits) s = .next (s.after ((s.dev.advance now).marginEval powers limits))) ∧
    (∀ (now p j : Nat), s.dev.mrdTrap now = false → (Instr.calVisitStart now p j).wellFormed = true → 
      exec (.calVisitStart now p j) s = .next (s.after ((s.dev.advance now).calStart p j))) ∧
    (∀ (now : Nat), s.dev.mrdTrap now = false → exec (.calDwellEnd now) s = .next (s.after ((s.dev.advance now).calDwellEnd))) ∧
    (∀ (now k : Nat) (en : Bool), s.dev.mrdTrap now = false → (Instr.slotEnable now k en).wellFormed = true → s.dev.reaches (R.OH_SLOT_CTRL k) = true → 
      exec (.slotEnable now k en) s = .next (s.after ((s.dev.advance now).putRw (R.OH_SLOT_CTRL k) 1 (b2n en)))) ∧
    (∀ (now k : Nat) (taps : List Int), s.dev.mrdTrap now = false → (Instr.laserReady now k taps).wellFormed = true → 
      exec (.laserReady now k taps) s = .next (s.after ((s.dev.advance now).laserReady k taps))))

/-- The frames of the management port and the operations of the UCP complete (spec/14_control_protocol.md). -/
def Obligations.ControlProtocolCommandsComplete : Prop :=
  ∀ s : State, s.dev.inReset = false →
    (∀ (now : Nat) (up kr cr : Bool), s.dev.mrdTrap now = false → exec (.mgmtPortLinkChange now up kr cr) s = .next (s.after ((s.dev.advance now).mgmtLink up kr cr))) ∧
    (∀ (now : Nat) (fcs : Bool) (fr : List Byte), s.dev.mrdTrap now = false → 
      exec (.mgmtFrameReceive now fcs fr) s = .next (s.after ((s.dev.advance now).mgmtFrame s.fuse fcs fr))) ∧
    (∀ (now : Nat) (mac pkt : List Byte), s.dev.mrdTrap now = false → (Instr.neighborSolicitation now mac pkt).wellFormed = true → 
      exec (.neighborSolicitation now mac pkt) s = .next (s.after (let d := s.dev.advance now; if d.mgmt.mpUp then d.neighbor mac pkt else d))) ∧
    (∀ (now : Nat) (mac pkt : List Byte), s.dev.mrdTrap now = false → (Instr.echoRequest now mac pkt).wellFormed = true → 
      exec (.echoRequest now mac pkt) s = .next (s.after (let d := s.dev.advance now; if d.mgmt.mpUp then d.echo6 mac pkt else d))) ∧
    (∀ (now : Nat) (ep : Ep) (fr : List Byte), s.dev.mrdTrap now = false → (Instr.hello now ep fr).wellFormed = true → 
      exec (.hello now ep fr) s = .next (s.after (let d := s.dev.advance now; if ucpType fr = 1 then d.ucpFrame s.fuse ep fr else d))) ∧
    (∀ (now : Nat) (ep : Ep) (fr : List Byte), s.dev.mrdTrap now = false → (Instr.finish now ep fr).wellFormed = true → 
      exec (.finish now ep fr) s = .next (s.after (let d := s.dev.advance now; if ucpType fr = 3 then d.ucpFrame s.fuse ep fr else d))) ∧
    (∀ (now n : Nat), s.dev.mrdTrap now = false → (Instr.helloTimeout now n).wellFormed = true → 
      exec (.helloTimeout now n) s = .next (s.after ((s.dev.advance now).helloTimeout n))) ∧
    (∀ (now : Nat) (ep : Ep) (fr : List Byte), s.dev.mrdTrap now = false → (Instr.command now ep fr).wellFormed = true → 
      exec (.command now ep fr) s = .next (s.after (let d := s.dev.advance now; if ucpType fr = 5 then d.ucpFrame s.fuse ep fr else d))) ∧
    (∀ (now : Nat) (ep : Ep) (fr : List Byte), s.dev.mrdTrap now = false → (Instr.eventAck now ep fr).wellFormed = true → 
      exec (.eventAck now ep fr) s = .next (s.after (let d := s.dev.advance now; if ucpType fr = 8 then d.ucpFrame s.fuse ep fr else d))) ∧
    (∀ (now n : Nat), s.dev.mrdTrap now = false → (Instr.eventResend now n).wellFormed = true → 
      exec (.eventResend now n) s = .next (s.after ((s.dev.advance now).eventResend n))) ∧
    (∀ (now n : Nat), s.dev.mrdTrap now = false → (Instr.sessionIdleTimeout now n).wellFormed = true → 
      exec (.sessionIdleTimeout now n) s = .next (s.after ((s.dev.advance now).idleTimeout n))) ∧
    (∀ (n seq : Nat) (body : List Byte), (Instr.deviceInfo n seq body).wellFormed = true → 
      exec (.deviceInfo n seq body) s = .next (s.after (s.dev.opDeviceInfo s.fuse n seq body))) ∧
    (∀ (n seq : Nat) (body : List Byte), (Instr.sessionClose n seq body).wellFormed = true → 
      exec (.sessionClose n seq body) s = .next (s.after (s.dev.opClose s.fuse n seq body))) ∧
    (∀ (n seq : Nat) (body : List Byte), (Instr.sessionFlush n seq body).wellFormed = true → 
      exec (.sessionFlush n seq body) s = .next (s.after (s.dev.opFlush s.fuse n seq body))) ∧
    (∀ (n seq : Nat) (body : List Byte), (Instr.sessionHistory n seq body).wellFormed = true → 
      exec (.sessionHistory n seq body) s = .next (s.after (s.dev.opHistory s.fuse n seq body))) ∧
    (∀ (n seq : Nat) (body : List Byte), (Instr.eventSubscribe n seq body).wellFormed = true → 
      exec (.eventSubscribe n seq body) s = .next (s.after (s.dev.opSubscribe s.fuse n seq body))) ∧
    (∀ (n seq : Nat) (body : List Byte), (Instr.nopCommand n seq body).wellFormed = true → exec (.nopCommand n seq body) s = .next (s.after (s.dev.opNop s.fuse n seq body))) ∧
    (∀ (n seq : Nat) (body : List Byte) (errs : List (Nat × List Nat)), (Instr.csrRead n seq body errs).wellFormed = true → 
      exec (.csrRead n seq body errs) s = .next (s.after ((s.dev.seeing errs).opCsrRead s.fuse n seq body))) ∧
    (∀ (n seq : Nat) (body : List Byte), (Instr.csrWrite n seq body).wellFormed = true → (s.dev.cmdUnpredictable s.fuse n seq 0x0102 body) = false → 
      exec (.csrWrite n seq body) s = .next (s.after (s.dev.opCsrWrite s.fuse n seq body))) ∧
    (∀ (n seq : Nat) (body : List Byte) (errs : List (Nat × List Nat)), (Instr.csrRmw n seq body errs).wellFormed = true → (s.dev.cmdUnpredictable s.fuse n seq 0x0103 body) = false → 
      exec (.csrRmw n seq body errs) s = .next (s.after ((s.dev.seeing errs).opCsrRmw s.fuse n seq body))) ∧
    (∀ (n seq : Nat) (body : List Byte) (errs : List (Nat × List Nat)), (Instr.csrPoll n seq body errs).wellFormed = true → 
      exec (.csrPoll n seq body errs) s = .next (s.after ((s.dev.seeing errs).opCsrPoll s.fuse n seq body))) ∧
    (∀ (now n : Nat) (errs : List (Nat × List Nat)), s.dev.mrdTrap now = false → (Instr.csrPollTimeout now n errs).wellFormed = true → 
      exec (.csrPollTimeout now n errs) s = .next (s.after (((s.dev.advance now).seeing errs).pollTimeout s.fuse n))) ∧
    (∀ (n seq : Nat) (body : List Byte), (Instr.tblRead n seq body).wellFormed = true → 
      exec (.tblRead n seq body) s = .next (s.after (s.dev.opTable s.fuse n seq 0x0201 body))) ∧
    (∀ (n seq : Nat) (body : List Byte), (Instr.tblWrite n seq body).wellFormed = true → 
      exec (.tblWrite n seq body) s = .next (s.after (s.dev.opTable s.fuse n seq 0x0202 body))) ∧
    (∀ (n seq : Nat) (body : List Byte), (Instr.tblInvalidate n seq body).wellFormed = true → 
      exec (.tblInvalidate n seq body) s = .next (s.after (s.dev.opTable s.fuse n seq 0x0203 body))) ∧
    (∀ (n seq : Nat) (body : List Byte), (Instr.bankCopy n seq body).wellFormed = true → 
      exec (.bankCopy n seq body) s = .next (s.after (s.dev.opTable s.fuse n seq 0x0204 body))) ∧
    (∀ (n seq : Nat) (body : List Byte), (Instr.emInsert n seq body).wellFormed = true → 
      exec (.emInsert n seq body) s = .next (s.after (s.dev.opTable s.fuse n seq 0x0205 body))) ∧
    (∀ (n seq : Nat) (body : List Byte), (Instr.emDelete n seq body).wellFormed = true → 
      exec (.emDelete n seq body) s = .next (s.after (s.dev.opTable s.fuse n seq 0x0206 body))) ∧
    (∀ (n seq : Nat) (body : List Byte), (Instr.emFind n seq body).wellFormed = true → 
      exec (.emFind n seq body) s = .next (s.after (s.dev.opTable s.fuse n seq 0x0207 body))) ∧
    (∀ (n seq : Nat) (body : List Byte), (Instr.emFlush n seq body).wellFormed = true → 
      exec (.emFlush n seq body) s = .next (s.after (s.dev.opTable s.fuse n seq 0x0208 body))) ∧
    (∀ (n seq : Nat) (body : List Byte), (Instr.tblWriteAll n seq body).wellFormed = true → 
      exec (.tblWriteAll n seq body) s = .next (s.after (s.dev.opTable s.fuse n seq 0x0209 body))) ∧
    (∀ (n seq : Nat) (body : List Byte), (Instr.ceRead n seq body).wellFormed = true → exec (.ceRead n seq body) s = .next (s.after (s.dev.opCe s.fuse n seq 0x0301 body))) ∧
    (∀ (n seq : Nat) (body : List Byte), (Instr.ceWrite n seq body).wellFormed = true → exec (.ceWrite n seq body) s = .next (s.after (s.dev.opCe s.fuse n seq 0x0302 body))) ∧
    (∀ (n seq : Nat) (body : List Byte), (Instr.ceInvalidate n seq body).wellFormed = true → 
      exec (.ceInvalidate n seq body) s = .next (s.after (s.dev.opCe s.fuse n seq 0x0303 body))) ∧
    (∀ (n seq : Nat) (body : List Byte), (Instr.partitionAbort n seq body).wellFormed = true → 
      exec (.partitionAbort n seq body) s = .next (s.after (s.dev.opPartAbort s.fuse n seq body))) ∧
    (∀ (n seq : Nat) (body : List Byte), (Instr.ceStatus n seq body).wellFormed = true → 
      exec (.ceStatus n seq body) s = .next (s.after (s.dev.opCeStatus s.fuse n seq body))) ∧
    (∀ (n seq : Nat) (body : List Byte), (Instr.portStatus n seq body).wellFormed = true → 
      exec (.portStatus n seq body) s = .next (s.after (s.dev.opPortStatus s.fuse n seq body))) ∧
    (∀ (n seq : Nat) (body : List Byte), (Instr.portEnable n seq body).wellFormed = true → (s.dev.cmdUnpredictable s.fuse n seq 0x0402 body) = false → 
      exec (.portEnable n seq body) s = .next (s.after (s.dev.opPortEnable s.fuse n seq body))) ∧
    (∀ (n seq : Nat) (body : List Byte), (Instr.portQuiesce n seq body).wellFormed = true → (s.dev.cmdUnpredictable s.fuse n seq 0x0403 body) = false → 
      exec (.portQuiesce n seq body) s = .next (s.after (s.dev.opPortQuiesce s.fuse n seq body))) ∧
    (∀ (n seq : Nat) (body : List Byte), (Instr.indigoSet n seq body).wellFormed = true → (s.dev.cmdUnpredictable s.fuse n seq 0x0404 body) = false → 
      exec (.indigoSet n seq body) s = .next (s.after (s.dev.opIndigo s.fuse n seq body))) ∧
    (∀ (n seq : Nat) (body : List Byte), (Instr.laneStatus n seq body).wellFormed = true → 
      exec (.laneStatus n seq body) s = .next (s.after (s.dev.opLaneStatus s.fuse n seq body))) ∧
    (∀ (n seq : Nat) (body : List Byte), (Instr.slotCtrl n seq body).wellFormed = true → (s.dev.cmdUnpredictable s.fuse n seq 0x0406 body) = false → 
      exec (.slotCtrl n seq body) s = .next (s.after (s.dev.opSlotCtrl s.fuse n seq body))) ∧
    (∀ (n seq : Nat) (body : List Byte), (Instr.timeStatus n seq body).wellFormed = true → 
      exec (.timeStatus n seq body) s = .next (s.after (s.dev.opTimeStatus s.fuse n seq body))) ∧
    (∀ (n seq : Nat) (body : List Byte), (Instr.tpoArm n seq body).wellFormed = true → exec (.tpoArm n seq body) s = .next (s.after (s.dev.opTpoArm s.fuse n seq body))) ∧
    (∀ (n seq : Nat) (body : List Byte), (Instr.tpoCancel n seq body).wellFormed = true → 
      exec (.tpoCancel n seq body) s = .next (s.after (s.dev.opTpoCancel s.fuse n seq body))) ∧
    (∀ (n seq : Nat) (ids : List Nat), (Instr.portHold n seq ids).wellFormed = true → 
      exec (.portHold n seq ids) s = .next (s.after (s.dev.opMaint s.fuse n seq (Dev.maintBody 1 ids)))) ∧
    (∀ (n seq : Nat) (ids : List Nat), (Instr.laserService n seq ids).wellFormed = true → 
      exec (.laserService n seq ids) s = .next (s.after (s.dev.opMaint s.fuse n seq (Dev.maintBody 2 ids)))) ∧
    (∀ (n seq : Nat) (ids : List Nat), (Instr.oeSelftest n seq ids).wellFormed = true → 
      exec (.oeSelftest n seq ids) s = .next (s.after (s.dev.opMaint s.fuse n seq (Dev.maintBody 3 ids)))) ∧
    (∀ (n seq : Nat) (ids : List Nat), (Instr.vatRetire n seq ids).wellFormed = true → 
      exec (.vatRetire n seq ids) s = .next (s.after (s.dev.opMaint s.fuse n seq (Dev.maintBody 4 ids)))) ∧
    (∀ (n seq : Nat) (ids : List Nat), (Instr.sliceSwap n seq ids).wellFormed = true → 
      exec (.sliceSwap n seq ids) s = .next (s.after (s.dev.opMaint s.fuse n seq (Dev.maintBody 5 ids)))) ∧
    (∀ (n seq : Nat) (ids : List Nat), (Instr.ddrRetire n seq ids).wellFormed = true → 
      exec (.ddrRetire n seq ids) s = .next (s.after (s.dev.opMaint s.fuse n seq (Dev.maintBody 6 ids)))) ∧
    (∀ (n seq : Nat) (ids : List Nat), (Instr.bankSelftest n seq ids).wellFormed = true → 
      exec (.bankSelftest n seq ids) s = .next (s.after (s.dev.opMaint s.fuse n seq (Dev.maintBody 7 ids)))) ∧
    (∀ (n seq : Nat) (body : List Byte), (Instr.maintStop n seq body).wellFormed = true → 
      exec (.maintStop n seq body) s = .next (s.after (s.dev.opMaintStop s.fuse n seq body))) ∧
    (∀ (n seq : Nat) (body : List Byte), (Instr.maintStatus n seq body).wellFormed = true → 
      exec (.maintStatus n seq body) s = .next (s.after (s.dev.opMaintStatus s.fuse n seq body))) ∧
    (∀ (n seq : Nat) (body : List Byte), (Instr.errRead n seq body).wellFormed = true → exec (.errRead n seq body) s = .next (s.after (s.dev.opErrRead s.fuse n seq body))) ∧
    (∀ (n seq : Nat) (body : List Byte), (Instr.errAck n seq body).wellFormed = true → exec (.errAck n seq body) s = .next (s.after (s.dev.opErrAck s.fuse n seq body))) ∧
    (∀ (n seq : Nat) (body : List Byte), (Instr.fwStatus n seq body).wellFormed = true → 
      exec (.fwStatus n seq body) s = .next (s.after (s.dev.opFwStatus s.fuse n seq body))) ∧
    (∀ (n seq : Nat) (body : List Byte), (Instr.imgBegin n seq body).wellFormed = true → 
      exec (.imgBegin n seq body) s = .next (s.after (s.dev.opImgBegin s.fuse n seq body))) ∧
    (∀ (n seq : Nat) (body : List Byte), (Instr.imgData n seq body).wellFormed = true → exec (.imgData n seq body) s = .next (s.after (s.dev.opImgData s.fuse n seq body))) ∧
    (∀ (n seq : Nat), (Instr.firmwareImageCommit n seq).wellFormed = true → exec (.firmwareImageCommit n seq) s = .next (s.after (s.dev.opFwCommit s.fuse n seq))) ∧
    (∀ (n seq : Nat), (Instr.recipeLoad n seq).wellFormed = true → exec (.recipeLoad n seq) s = .next (s.after (s.dev.opRecipeCommit s.fuse n seq))) ∧
    (∀ (n seq : Nat) (body : List Byte) (errs : List (Nat × List Nat)), (Instr.fwActivate n seq body errs).wellFormed = true → 
      exec (.fwActivate n seq body errs) s = .next (s.after ((s.dev.seeing errs).opActivate s.fuse n seq body))) ∧
    (∀ (n seq : Nat) (body : List Byte), (Instr.getCerts n seq body).wellFormed = true → 
      exec (.getCerts n seq body) s = .next (s.after (s.dev.opGetCerts s.fuse n seq body))) ∧
    (∀ (n seq : Nat) (body : List Byte), (Instr.attest n seq body).wellFormed = true → exec (.attest n seq body) s = .next (s.after (s.dev.opAttest s.fuse n seq body))) ∧
    (∀ (n seq : Nat) (body : List Byte), (Instr.credRead n seq body).wellFormed = true → 
      exec (.credRead n seq body) s = .next (s.after (s.dev.opCredRead s.fuse n seq body))) ∧
    (∀ (n seq : Nat) (body : List Byte), (Instr.credWrite n seq body).wellFormed = true → 
      exec (.credWrite n seq body) s = .next (s.after (s.dev.opCredWrite s.fuse n seq body))) ∧
    (∀ n seq : Nat, n < 8 → exec (.svnCommitFirmware n seq) s =
      let v := if s.dev.svnRuns s.fuse n seq 1 then s.dev.svnFirmware s.fuse else s.fuse; .next { s with fuse := v, dev := (s.dev.opSvn s.fuse n seq 1 v.fwMin).settle v }) ∧
    (∀ n seq : Nat, n < 8 → exec (.svnCommitRecipe n seq) s =
      let v := if s.dev.svnRuns s.fuse n seq 2 then s.dev.svnRecipe s.fuse else s.fuse; .next { s with fuse := v, dev := (s.dev.opSvn s.fuse n seq 2 v.rcpMin).settle v }) ∧
    (∀ (n seq : Nat) (body : List Byte), (Instr.ctrSnapshot n seq body).wellFormed = true → 
      exec (.ctrSnapshot n seq body) s = .next (s.after (s.dev.opSnapshot s.fuse n seq body))) ∧
    (∀ (n seq : Nat) (body : List Byte), (Instr.telemSubscribe n seq body).wellFormed = true → 
      exec (.telemSubscribe n seq body) s = .next (s.after (s.dev.opTelem s.fuse n seq body))) ∧
    (∀ (n seq : Nat) (body : List Byte) (errs : List (Nat × List Nat)), (Instr.flightRead n seq body errs).wellFormed = true → 
      exec (.flightRead n seq body errs) s = .next (s.after ((s.dev.seeing errs).opFlight s.fuse n seq body))) ∧
    (∀ (n seq : Nat) (body : List Byte), (Instr.powerStatus n seq body).wellFormed = true → 
      exec (.powerStatus n seq body) s = .next (s.after (s.dev.opPower s.fuse n seq body))) ∧
    (∀ (n seq : Nat) (body : List Byte), (Instr.thermalStatus n seq body).wellFormed = true → 
      exec (.thermalStatus n seq body) s = .next (s.after (s.dev.opThermal s.fuse n seq body))) ∧
    (∀ (n seq : Nat) (body : List Byte), (Instr.umberEnter n seq body).wellFormed = true → 
      exec (.umberEnter n seq body) s = .next (s.after (s.dev.opUmber s.fuse n seq body)))

/-- The commands of errors, sparing, health, telemetry and LPDDR6 complete (spec/15_faults_sparing.md, spec/18_telemetry.md, spec/19_lpddr6.md). -/
def Obligations.FaultAndTelemetryCommandsComplete : Prop :=
  ∀ s : State, s.dev.inReset = false →
    (∀ (now k : Nat), s.dev.mrdTrap now = false → (Instr.erAck now k).wellFormed = true → exec (.erAck now k) s = .next (s.after ((s.dev.advance now).ackRecord k))) ∧
    (∀ (now v unit : Nat) (err : Option DescErr), s.dev.mrdTrap now = false → (Instr.vatHardFault now v unit err).wellFormed = true → 
      exec (.vatHardFault now v unit err) s = .next (s.after (((s.dev.advance now).meeting err).vatHard v unit))) ∧
    (∀ (now v : Nat) (err : Option DescErr), s.dev.mrdTrap now = false → (Instr.vatDrainEnd now v err).wellFormed = true → 
      exec (.vatDrainEnd now v err) s = .next (s.after (((s.dev.advance now).meeting err).drainEnd v))) ∧
    (∀ (now v : Nat) (pass : Bool), s.dev.mrdTrap now = false → (Instr.vatSpareTestEnd now v pass).wellFormed = true → 
      exec (.vatSpareTestEnd now v pass) s = .next (s.after ((s.dev.advance now).spareTest v pass))) ∧
    (∀ (now : Nat) (pass : Bool) (unit : Nat), s.dev.mrdTrap now = false → 
      exec (.sliceSwapSwitchover now pass unit) s = .next (s.after ((s.dev.advance now).swapOver pass (unit % 32)))) ∧
    (∀ (now g : Nat), s.dev.mrdTrap now = false → exec (.wireSpareSwitch now g) s = .next (s.after ((s.dev.advance now).wireSwitch g))) ∧
    (∀ (now mac row : Nat), s.dev.mrdTrap now = false → exec (.deferredRowRepair now mac row) s = .next (s.after ((s.dev.advance now).deferredRepair mac row))) ∧
    (∀ (now c : Nat) (fail : Bool), s.dev.mrdTrap now = false → (Instr.segmentMoveComplete now c fail).wellFormed = true → 
      exec (.segmentMoveComplete now c fail) s = .next (s.after ((s.dev.advance now).segmentMove c fail))) ∧
    (∀ (now handle data : Nat), s.dev.mrdTrap now = false → exec (.selftestComplete now handle data) s = .next (s.after ((s.dev.advance now).selfTestEnd handle data))) ∧
    (∀ (now : Nat), s.dev.mrdTrap now = false → exec (.healthDecay now) s = .next (s.after ((s.dev.advance now).healthDecay))) ∧
    (∀ (now kind n : Nat), s.dev.mrdTrap now = false → (kind % 256 = 2 && ((s.dev.advance now).logicalOf (n % 2048)).isSome) = false → 
      exec (.hsRelease now kind n) s = .next (s.after ((s.dev.advance now).hsRelease (kind % 256) (n % 2048)))) ∧
    (∀ (now : Nat) (pu : Dev.PmUnit), s.dev.mrdTrap now = false → (Instr.pmClear now pu).wellFormed = true → s.dev.reaches (pu.base) = true → 
      exec (.pmClear now pu) s = .next (s.after ((s.dev.advance now).csrWrite s.fuse pu.base 1 1))) ∧
    (∀ (now : Nat), s.dev.mrdTrap now = false → exec (.telemetryReport now) s = .next (s.after ((s.dev.advance now).reports))) ∧
    (∀ (now : Nat), s.dev.mrdTrap now = false → exec (.ringDump now) s = .next (s.after ((s.dev.advance now).ringDump))) ∧
    (∀ (now : Nat), s.dev.mrdTrap now = false → exec (.flightFreeze now) s = .next (s.after ((s.dev.advance now).flightFreeze))) ∧
    (∀ (now c addr : Nat) (burst : List Nat) (newer : Bool), s.dev.mrdTrap now = false → (Instr.patrolScrub now c addr burst newer).wellFormed = true → 
      exec (.patrolScrub now c addr burst newer) s = .next (s.after ((s.dev.advance now).scrub c (addr % 2 ^ 32) burst newer))) ∧
    (∀ (now : Nat), s.dev.mrdTrap now = false → exec (.zqCalibration now) s = .next (s.after ((s.dev.advance now)))) ∧
    (∀ (now : Nat) (ok : Bool), s.dev.mrdTrap now = false → exec (.imgCommitComplete now ok) s = .next (s.after ((s.dev.advance now).commitDone ok))) ∧
    (∀ (now rail : Nat), s.dev.mrdTrap now = false → (Instr.railLeavesTolerance now rail).wellFormed = true → 
      exec (.railLeavesTolerance now rail) s = .next (s.after ((s.dev.advance now).wakeFail rail))) ∧
    (∀ (now : Nat), s.dev.mrdTrap now = false → exec (.announceReceiptTimeout now) s = .next (s.after ((s.dev.advance now).ptpAnnTimeout)))

/-- The commands of power, wake, reset, boot and fuses complete (spec/16_power_umber.md, spec/17_boot_security.md). Those of the pins and supplies of reset act in reset too. -/
def Obligations.PowerAndBootCommandsComplete : Prop :=
  ∀ s : State,
    (∀ (now sensor t : Nat), (s.dev.inReset = true ∨ s.dev.mrdTrap now = false) → (Instr.thermalTrip now sensor t).wellFormed = true → 
      exec (.thermalTrip now sensor t) s = .next (s.after ((s.dev.runOn now).thermTrip sensor t))) ∧
    (∀ (now rail mv : Nat), (s.dev.inReset = true ∨ s.dev.mrdTrap now = false) → (Instr.undervoltageReset now rail mv).wellFormed = true → 
      exec (.undervoltageReset now rail mv) s = .next (s.after ((s.dev.runOn now).undervoltage rail mv))) ∧
    (∀ (now : Nat), (s.dev.inReset = true ∨ s.dev.mrdTrap now = false) → exec (.powerOnReset now) s = .next (s.after ((s.dev.runOn now).powerOnReset))) ∧
    (∀ (now : Nat) (pwrgood : Bool), (s.dev.inReset = true ∨ s.dev.mrdTrap now = false) → 
      exec (.fullReset now pwrgood) s = .next (s.after ((s.dev.runOn now).resetAssert pwrgood))) ∧
    (∀ (now : Nat), (s.dev.inReset = true ∨ s.dev.mrdTrap now = false) → exec (.resetRelease now) s = .next (s.after ((s.dev.runOn now).resetRelease s.fuse))) ∧
    (s.dev.inReset = false →
        (∀ (now : Nat), s.dev.mrdTrap now = false → exec (.umberEntryComplete now) s = .next (s.after ((s.dev.advance now).umberDone))) ∧
    (∀ (now : Nat) (req : Bool), s.dev.mrdTrap now = false → exec (.wakeReqWrite now req) s = .next (s.after ((s.dev.advance now).wakeReqWrite (b2n req)))) ∧
    (∀ (now : Nat), s.dev.mrdTrap now = false → exec (.grantInstant now) s = .next (s.after ((s.dev.advance now).grant))) ∧
    (∀ (now : Nat) (pll : Option Nat), s.dev.mrdTrap now = false → exec (.rampStep now pll) s = .next (s.after ((s.dev.advance now).ramp pll))) ∧
    (∀ (now : Nat) (bad : List Nat), s.dev.mrdTrap now = false → (Instr.wakeComplete now bad).wellFormed = true → 
      exec (.wakeComplete now bad) s = .next (s.after ((s.dev.advance now).wakeDone bad))) ∧
    (∀ (now : Nat) (rows vats slices wires : List (Nat × Nat)), s.dev.mrdTrap now = false → (Instr.bistDone now rows vats slices wires).wellFormed = true → 
      exec (.bistDone now rows vats slices wires) s = .next (s.after ((s.dev.advance now).bistDone rows vats slices wires))) ∧
    (∀ (now sensor t : Nat), s.dev.mrdTrap now = false → (Instr.thermalWarn now sensor t).wellFormed = true → 
      exec (.thermalWarn now sensor t) s = .next (s.after ((s.dev.advance now).thermWarn sensor t))) ∧
    (∀ (now rail mv : Nat), s.dev.mrdTrap now = false → (Instr.railWarn now rail mv).wellFormed = true → 
      exec (.railWarn now rail mv) s = .next (s.after ((s.dev.advance now).railWarn rail mv))) ∧
    (∀ (now w : Nat), s.dev.mrdTrap now = false → exec (.powerOver now w) s = .next (s.after ((s.dev.advance now).powerOver w))) ∧
    (∀ (now : Nat), s.dev.mrdTrap now = false → exec (.bootRetry now) s = .next (s.after ((s.dev.advance now).bootRetry s.fuse))) ∧
    (∀ (now : Nat), s.dev.mrdTrap now = false → exec (.firmwareReady now) s = .next (s.after ((s.dev.advance now).firmwareReady s.fuse))) ∧
    (∀ (now : Nat) (errs : List (Nat × List Nat)), s.dev.mrdTrap now = false → 
      exec (.watchdogExpire now errs) s = .next (s.after (((s.dev.advance now).seeing errs).watchdog s.fuse))) ∧
    (∀ (now : Nat), s.dev.mrdTrap now = false → exec (.trialConfirm now) s = .next (s.after ((s.dev.advance now).trialConfirm))) ∧
    (∀ (now n : Nat) (errs : List (Nat × List Nat)), s.dev.mrdTrap now = false → (Instr.coreFault now n errs).wellFormed = true → 
      exec (.coreFault now n errs) s = .next (s.after (((s.dev.advance now).seeing errs).coreFault s.fuse n))) ∧
    (∀ (now : Nat), s.dev.mrdTrap now = false → exec (.mgmtReset now) s = .next (s.after ((s.dev.advance now).mgmtReset s.fuse))) ∧
    (∀ (now : Nat), s.dev.mrdTrap now = false → exec (.datapathReset now) s = .next (s.after ((s.dev.advance now).dpReset))) ∧
    (∀ (now : Nat), s.dev.mrdTrap now = false → exec (.datapathResetDone now) s = .next (s.after ((s.dev.advance now).dpResetDone))) ∧
    (∀ (now index : Nat), s.dev.mrdTrap now = false → ((s.dev.advance now).on R.SB_FUSECMD F.SB_FUSECMD_BUSY) = false → 
      exec (.programOwner now index) s = .next (s.after ((s.dev.advance now).fuseGo s.fuse 1 (index % 16)))) ∧
    (∀ (now index : Nat), s.dev.mrdTrap now = false → ((s.dev.advance now).on R.SB_FUSECMD F.SB_FUSECMD_BUSY) = false → 
      exec (.programRkey now index) s = .next (s.after ((s.dev.advance now).fuseGo s.fuse 2 (index % 16)))) ∧
    (∀ (now index : Nat), s.dev.mrdTrap now = false → ((s.dev.advance now).on R.SB_FUSECMD F.SB_FUSECMD_BUSY) = false → 
      exec (.revokeFkey now index) s = .next (s.after ((s.dev.advance now).fuseGo s.fuse 3 (index % 16)))) ∧
    (∀ (now index : Nat), s.dev.mrdTrap now = false → ((s.dev.advance now).on R.SB_FUSECMD F.SB_FUSECMD_BUSY) = false → 
      exec (.revokeRkey now index) s = .next (s.after ((s.dev.advance now).fuseGo s.fuse 4 (index % 16)))) ∧
    (∀ now : Nat, s.dev.mrdTrap now = false → exec (.fuseProgramDone now) s = let r := (s.dev.advance now).fuseDone s.fuse; .next { s with fuse := r.2, dev := r.1.settle r.2 }))

/-! Error records, and what is written is read back. -/

/-- An occurrence in the error record queue (R506 to R509). One whose source has a VALID, unacknowledged record is folded into it: RECUR goes up by one, saturating, LAST_TIME
is the fabric time in nanoseconds, and RSEQ, FIRST_TIME and the detail words stay. Any other makes a new record in the lowest slot without VALID, or, when every slot is VALID, in
that of the acknowledged record with the lowest RSEQ: its source, RECUR 1, RSEQ from ER_NEXT, which goes up by one, both times the fabric time, its detail words, VALID and not
acknowledged. When all 64 records are VALID and unacknowledged and none has its source, OVF is set and ER_LOST counts, outside Umber. No other record changes. -/
def Obligations.OccurrencesFoldMakeOrOverflow : Prop :=
  ∀ (d : Dev) (blk inst cause sev : Nat) (det : List Nat) (part : Option Nat), blk < 256 → cause < 256 → 1 ≤ sev → sev ≤ 5 →
    (blk = 1 → inst < 1024) → (blk = 2 → inst < 4608) → (blk = 9 → inst < 1600) →
    let e := d.error blk inst cause sev det part
    let src := blk * 2 ^ 24 + inst % 65536 * 256 + cause
    let same (n : Nat) : Prop := ∀ k < 16, e.erw n k = d.erw n k
    let open' (n : Nat) : Bool := d.recValid n && !d.recAcked n
    let lastIs (n : Nat) : Prop := e.erw n 6 = d.fabNs / 2 ^ 32 % 2 ^ 32 ∧ e.erw n 7 = d.fabNs % 2 ^ 32
    (∀ n < 64, open' n = true → d.erw n 0 = src → (∀ m < n, ¬ (open' m = true ∧ d.erw m 0 = src)) →
      e.erw n 0 = src ∧ e.recValid n = true ∧ e.recAcked n = false ∧ e.erw n 2 = min (d.erw n 2 + 1) (2 ^ 32 - 1) ∧ lastIs n ∧
      (∀ k < 16, k = 3 ∨ k = 4 ∨ k = 5 ∨ 9 ≤ k → e.erw n k = d.erw n k) ∧ (∀ m < 64, m ≠ n → same m) ∧ e.reg R.ER_NEXT = d.reg R.ER_NEXT) ∧
    ((∀ m < 64, ¬ (open' m = true ∧ d.erw m 0 = src)) → ∀ n < 64,
      ((d.recValid n = false ∧ ∀ m < n, d.recValid m = true) ∨
        ((∀ m < 64, d.recValid m = true) ∧ d.recAcked n = true ∧
          ∀ m < 64, d.recAcked m = true → d.erw n 3 < d.erw m 3 ∨ (d.erw n 3 = d.erw m 3 ∧ n ≤ m))) →
      e.erw n 0 = src ∧ e.recValid n = true ∧ e.recAcked n = false ∧ e.erw n 2 = 1 ∧ e.erw n 3 = (d.reg R.ER_NEXT).toNat ∧
      (e.reg R.ER_NEXT).toNat = ((d.reg R.ER_NEXT).toNat + 1) % 2 ^ 32 ∧ lastIs n ∧ e.erw n 4 = e.erw n 6 ∧ e.erw n 5 = e.erw n 7 ∧
      bits (e.erw n 1) 27 24 = sev ∧ (∀ k < 7, e.erw n (9 + k) = det.getD k 0 % 2 ^ 32) ∧ (∀ m < 64, m ≠ n → same m)) ∧
    ((∀ m < 64, open' m = true) → (∀ m < 64, d.erw m 0 ≠ src) →
      e.on R.ER_STAT F.ER_STAT_OVF = true ∧ (∀ m < 64, same m) ∧ e.reg R.ER_NEXT = d.reg R.ER_NEXT ∧
      (d.pwState ≠ 2 → d.ctr R.ER_LOST < 2 ^ 64 → e.ctr R.ER_LOST = (d.ctr R.ER_LOST + 1) % 2 ^ 64))

/-- What is written is read back. A write of a data word of an idle table window or of the start, period or width of a time pulse output changes that word alone, and the word then
reads as it was written (R15, R132, R460). An entry that is written whole reads back as it was written, and every other entry of the tables reads as before, in all five tables
of R132. A WRITE of a window that completes does just this, with RESULT 0 and BUSY zero, but that a valid exact-match entry takes its key from any other slot (R123; the model's
reading, log entry 89); a READ that completes puts the entry into TW_DATA and changes no entry. -/
def Obligations.WrittenWordsAndEntriesReadBack : Prop :=
  (∀ (s : State) (a v : Nat), s.dev.inReset = false → s.dev.pwState ≠ 2 → v < 2 ^ 32 →
    ((∃ p < 16, ∃ i < 36, a = R.TW_DATA p i ∧ s.dev.on (R.TW_STAT p) F.TW_STAT_BUSY = false) ∨ (∃ i < 80, a = R.CE_TW_DATA i ∧ s.dev.on R.CE_TW_STAT F.CE_TW_STAT_BUSY = false) ∨
      ∃ n < 4, a = R.TPO_START_SEC n ∨ a = R.TPO_START_NS n ∨ a = R.TPO_PERIOD_NS n ∨ a = R.TPO_WIDTH_NS n) →
    s.dev.unpredictable none a (2 ^ 32 - 1) v = false →
    ∃ e, exec (.registerWrite a v) s = .next (s.after e) ∧ Dev.RegsOnly [a] s.dev e ∧ (e.reg a).toNat = v ∧
      ∀ u, Sparse.find e.csr.latch a = none → e.csrRead u a = (v, e)) ∧
  (∀ (d : Dev) (p table bank index : Nat) (v : List Byte), p < 16 → 1 ≤ table → table ≤ 5 → bank < 2 → index < (tblSize table).1 → v.length = (tblSize table).2 →
    let e := d.tblPut p table bank index v
    e.tblGet p table bank index = v ∧
      ∀ q t b i, q < 16 → 1 ≤ t → t ≤ 5 → b < 2 → i < (tblSize t).1 → (t ≠ table ∨ i ≠ index ∨ (table ≠ 5 ∧ q ≠ p) ∨ (table ≤ 3 ∧ b ≠ bank)) →
        e.tblGet q t b i = d.tblGet q t b i) ∧
  ∀ (s : State) (now p : Nat) (errs : List (Nat × List Nat)) (o : TwOp), s.dev.inReset = false → s.dev.mrdTrap now = false → p < 16 →
    let d := s.dev.advance now
    d.powered = true → d.mgmt.winQ = [] → Sparse.find d.tab.tw p = some o → o.result = 0 →
    1 ≤ o.table → o.table ≤ 5 → o.bank < 2 → o.index < (tblSize o.table).1 →
    (o.op = 2 → d.twTwice p = false → d.twWaits o = false →
      ∃ e, exec (.tableWindowComplete now p false errs) s = .next (s.after e) ∧ e.on (R.TW_STAT p) F.TW_STAT_BUSY = false ∧ e.fld (R.TW_STAT p) F.TW_STAT_RESULT = 0 ∧
        e.tblGet p o.table o.bank o.index = slice o.data 0 (tblSize o.table).2 ∧
        ∀ q t b i, q < 16 → 1 ≤ t → t ≤ 5 → b < 2 → i < (tblSize t).1 →
          (t ≠ o.table ∨ i ≠ o.index ∨ (o.table ≠ 5 ∧ q ≠ p) ∨ (o.table ≤ 3 ∧ b ≠ o.bank)) →
          if o.table = 5 ∧ t = 5 ∧ emValid o.data = true ∧ emIs (emPart o.data) (emMac o.data) (d.tblGet q t b i) = true
          then emValid (e.tblGet q t b i) = false else e.tblGet q t b i = d.tblGet q t b i) ∧
    (o.op = 1 → ∃ e, exec (.tableWindowComplete now p false errs) s = .next (s.after e) ∧ e.on (R.TW_STAT p) F.TW_STAT_BUSY = false ∧
      e.fld (R.TW_STAT p) F.TW_STAT_RESULT = 0 ∧ (∀ k < (tblSize o.table).2 / 4, (e.reg (R.TW_DATA p k)).toNat = leNat (slice (d.tblGet p o.table o.bank o.index) (4 * k) 4)) ∧
      ∀ q t b i, q < 16 → 1 ≤ t → t ≤ 5 → b < 2 → i < (tblSize t).1 → e.tblGet q t b i = d.tblGet q t b i)

end
end

