-- ==== Sys2Proof/Laws/Sparse.lean ====
section
/-! SUPPORT. Laws of bit fields and of sparse tables: a read after a write, and the canonical form that every table operation keeps. -/
namespace Sys2Proof.Machine

/-! Bit fields. -/

theorem bits_lt (n hi lo : Nat) : bits n hi lo < 2 ^ (hi + 1 - lo) := Nat.mod_lt _ (Nat.two_pow_pos _)

/-- A number split at a field: what lies above it, the field, what lies below it. -/
theorem bits_split (n hi lo : Nat) :
    n = (n / 2 ^ lo / 2 ^ (hi + 1 - lo) * 2 ^ (hi + 1 - lo) + bits n hi lo) * 2 ^ lo + n % 2 ^ lo := by
  have h1 := Nat.div_add_mod n (2 ^ lo)
  have h2 := Nat.div_add_mod (n / 2 ^ lo) (2 ^ (hi + 1 - lo))
  rw [Nat.mul_comm] at h1 h2
  unfold bits
  rw [h2, h1]

/-- A field replaced, as a sum. -/
theorem putBits_eq (n hi lo v : Nat) :
    putBits n hi lo v =
      (n / 2 ^ lo / 2 ^ (hi + 1 - lo) * 2 ^ (hi + 1 - lo) + v % 2 ^ (hi + 1 - lo)) * 2 ^ lo + n % 2 ^ lo := by
  have h := bits_split n hi lo
  have e := Nat.add_mul (n / 2 ^ lo / 2 ^ (hi + 1 - lo) * 2 ^ (hi + 1 - lo)) (bits n hi lo) (2 ^ lo)
  have e' := Nat.add_mul (n / 2 ^ lo / 2 ^ (hi + 1 - lo) * 2 ^ (hi + 1 - lo)) (v % 2 ^ (hi + 1 - lo)) (2 ^ lo)
  unfold putBits
  omega

/-- A field reads as what was put into it. -/
theorem bits_putBits (n hi lo v : Nat) : bits (putBits n hi lo v) hi lo = v % 2 ^ (hi + 1 - lo) := by
  rw [putBits_eq]
  unfold bits
  rw [Nat.add_comm, Nat.add_mul_div_right _ _ (Nat.two_pow_pos lo), Nat.div_eq_of_lt (Nat.mod_lt _ (Nat.two_pow_pos lo)),
    Nat.zero_add, Nat.add_comm, Nat.add_mul_mod_self_right, Nat.mod_mod]

/-- A field below another is left as it was. -/
theorem bits_putBits_below (n hi lo v h l : Nat) (hl : h + 1 ≤ lo) : bits (putBits n hi lo v) h l = bits n h l := by
  by_cases c : h + 1 ≤ l
  · have z : h + 1 - l = 0 := by omega
    simp [bits, z, Nat.mod_one]
  · have e : ∀ m : Nat, bits m h l = m % 2 ^ lo / 2 ^ l % 2 ^ (h + 1 - l) := by
      intro m
      have p : 2 ^ lo = 2 ^ l * (2 ^ (h + 1 - l) * 2 ^ (lo - h - 1)) := by
        rw [← Nat.pow_add, ← Nat.pow_add]; congr 1; omega
      unfold bits
      rw [p, Nat.mod_mul_right_div_self, Nat.mod_mul_right_mod]
    rw [e, e, putBits_eq, Nat.mul_comm, Nat.mul_add_mod, Nat.mod_mod]

/-- What lies above a field is left as it was. -/
theorem putBits_div (n hi lo v : Nat) :
    putBits n hi lo v / (2 ^ lo * 2 ^ (hi + 1 - lo)) = n / (2 ^ lo * 2 ^ (hi + 1 - lo)) := by
  rw [← Nat.div_div_eq_div_mul, ← Nat.div_div_eq_div_mul, putBits_eq, Nat.add_comm,
    Nat.add_mul_div_right _ _ (Nat.two_pow_pos lo), Nat.div_eq_of_lt (Nat.mod_lt _ (Nat.two_pow_pos lo)), Nat.zero_add, Nat.add_comm,
    Nat.add_mul_div_right _ _ (Nat.two_pow_pos _), Nat.div_eq_of_lt (Nat.mod_lt _ (Nat.two_pow_pos _)), Nat.zero_add]

/-- A field above another is left as it was. -/
theorem bits_putBits_above (n hi lo v h l : Nat) (hl : hi + 1 ≤ l) (hw : lo ≤ hi) : bits (putBits n hi lo v) h l = bits n h l := by
  have p : 2 ^ l = 2 ^ lo * 2 ^ (hi + 1 - lo) * 2 ^ (l - hi - 1) := by
    rw [← Nat.pow_add, ← Nat.pow_add]; congr 1; omega
  unfold bits
  rw [p, ← Nat.div_div_eq_div_mul _ (2 ^ lo * 2 ^ (hi + 1 - lo)), ← Nat.div_div_eq_div_mul n (2 ^ lo * 2 ^ (hi + 1 - lo)), putBits_div]

/-- A field replaced keeps a number within its word. -/
theorem putBits_lt (n hi lo v w : Nat) (hn : n < 2 ^ w) (hw : lo ≤ hi) (hh : hi < w) : putBits n hi lo v < 2 ^ w := by
  have p : 2 ^ w = 2 ^ (w - hi - 1) * (2 ^ lo * 2 ^ (hi + 1 - lo)) := by
    rw [← Nat.pow_add, ← Nat.pow_add]; congr 1; omega
  have q : 0 < 2 ^ lo * 2 ^ (hi + 1 - lo) := Nat.mul_pos (Nat.two_pow_pos _) (Nat.two_pow_pos _)
  rw [p] at hn ⊢
  rw [← Nat.div_lt_iff_lt_mul q] at hn ⊢
  rwa [putBits_div]

/-! Sparse tables. -/
namespace Sparse

variable {α : Type}

theorem find_ins_same (l : List (Nat × α)) (a : Nat) (x : α) : find (ins l a x) a = some x := by
  induction l with
  | nil => simp [ins, find]
  | cons p r ih =>
    simp only [ins]
    split
    · simp [find]
    · split
      · simp [find]
      · simp [find, *]

theorem find_ins_other (l : List (Nat × α)) (a b : Nat) (x : α) (h : b ≠ a) : find (ins l a x) b = find l b := by
  induction l with
  | nil => simp [ins, find, h.symm]
  | cons p r ih =>
    simp only [ins]
    split
    · simp [find, h.symm]
    · split
      · subst_vars; simp [find, h.symm]
      · simp only [find, ih]

theorem find_del_other (l : List (Nat × α)) (a b : Nat) (h : b ≠ a) : find (del l a) b = find l b := by
  induction l with
  | nil => rfl
  | cons p r ih =>
    simp only [del]
    split
    · subst_vars; simp [find, h.symm, ih]
    · simp only [find, ih]

theorem find_del_same (l : List (Nat × α)) (a : Nat) : find (del l a) a = none := by
  induction l with
  | nil => rfl
  | cons p r ih =>
    simp only [del]
    split
    · exact ih
    · simp only [find, *, if_false]

/-- Keys strictly rising from above `n`, no value equal to what an unlisted key reads as. -/
theorem Rising.mono {dflt : α} {n m : Nat} (h : m ≤ n) : ∀ {l : List (Nat × α)}, Rising dflt n l → Rising dflt m l
  | [], _ => trivial
  | (_, _) :: _, ⟨h1, h2, h3⟩ => ⟨Nat.le_trans h h1, h2, h3⟩

theorem Rising.del {dflt : α} {n : Nat} (a : Nat) : ∀ {l : List (Nat × α)}, Rising dflt n l → Rising dflt n (del l a)
  | [], _ => trivial
  | (k, v) :: r, ⟨h1, h2, h3⟩ => by
    simp only [Sparse.del]
    split
    · exact Rising.mono (by omega) (Rising.del a h3)
    · exact ⟨h1, h2, Rising.del a h3⟩

theorem Rising.ins {dflt x : α} {n a : Nat} (hx : x ≠ dflt) :
    ∀ {l : List (Nat × α)}, Rising dflt n l → n ≤ a → Rising dflt n (ins l a x)
  | [], _, h => ⟨h, hx, trivial⟩
  | (k, v) :: r, ⟨h1, h2, h3⟩, h => by
    simp only [Sparse.ins]
    split
    · exact ⟨h, hx, by omega, h2, h3⟩
    · split
      · subst_vars; exact ⟨h, hx, h3⟩
      · exact ⟨h1, h2, Rising.ins hx h3 (by omega)⟩

variable [DecidableEq α]

/-- Every table operation keeps the canonical form. -/
theorem wf_put {dflt : α} {l : List (Nat × α)} (h : wf dflt l) (a : Nat) (x : α) : wf dflt (put dflt l a x) := by
  unfold put
  split
  · exact Rising.del a h
  · exact Rising.ins (by assumption) h (Nat.zero_le a)

/-- A read after a write to the same key gives the value written. -/
theorem get_put_same (dflt : α) (l : List (Nat × α)) (a : Nat) (x : α) : get dflt (put dflt l a x) a = x := by
  unfold put get
  split
  · rw [find_del_same]; simp [*]
  · rw [find_ins_same]; rfl

/-- A write leaves every other key alone. -/
theorem get_put_other (dflt : α) (l : List (Nat × α)) (a b : Nat) (x : α) (h : b ≠ a) : get dflt (put dflt l a x) b = get dflt l b := by
  unfold put get
  split
  · rw [find_del_other _ _ _ h]
  · rw [find_ins_other _ _ _ _ h]

end Sparse
end Sys2Proof.Machine
end

