-- ==== Sys2Proof/Laws/State.lean ====
section
/-! SUPPORT. What each update of the state leaves alone: one lemma per field and update. -/
namespace Sys2Proof.Machine

/-! The state around the device. -/

@[simp] theorem State.effect_pending (s : State) (f : Dev → Fuses → Dev) : (s.effect f).pending = s.pending := by
  unfold State.effect; split <;> rfl
@[simp] theorem State.effect_fuse (s : State) (f : Dev → Fuses → Dev) : (s.effect f).fuse = s.fuse := by
  unfold State.effect; split <;> rfl

/-! A register word. -/

@[simp] theorem Dev.setReg_time (d : Dev) (a : Nat) (w : Word) : (d.setReg a w).time = d.time := rfl
@[simp] theorem Dev.setReg_core (d : Dev) (a : Nat) (w : Word) : (d.setReg a w).core = d.core := rfl
@[simp] theorem Dev.setReg_tab (d : Dev) (a : Nat) (w : Word) : (d.setReg a w).tab = d.tab := rfl
@[simp] theorem Dev.setReg_ce (d : Dev) (a : Nat) (w : Word) : (d.setReg a w).ce = d.ce := rfl
@[simp] theorem Dev.setReg_vat (d : Dev) (a : Nat) (w : Word) : (d.setReg a w).vat = d.vat := rfl
@[simp] theorem Dev.setReg_link (d : Dev) (a : Nat) (w : Word) : (d.setReg a w).link = d.link := rfl
@[simp] theorem Dev.setReg_optic (d : Dev) (a : Nat) (w : Word) : (d.setReg a w).optic = d.optic := rfl
@[simp] theorem Dev.setReg_mgmt (d : Dev) (a : Nat) (w : Word) : (d.setReg a w).mgmt = d.mgmt := rfl
@[simp] theorem Dev.setReg_faults (d : Dev) (a : Nat) (w : Word) : (d.setReg a w).faults = d.faults := rfl
@[simp] theorem Dev.setReg_power (d : Dev) (a : Nat) (w : Word) : (d.setReg a w).power = d.power := rfl
@[simp] theorem Dev.setReg_tel (d : Dev) (a : Nat) (w : Word) : (d.setReg a w).tel = d.tel := rfl
@[simp] theorem Dev.setReg_ddr (d : Dev) (a : Nat) (w : Word) : (d.setReg a w).ddr = d.ddr := rfl
@[simp] theorem Dev.setReg_seen (d : Dev) (a : Nat) (w : Word) : (d.setReg a w).seen = d.seen := rfl
@[simp] theorem Dev.setReg_out (d : Dev) (a : Nat) (w : Word) : (d.setReg a w).out = d.out := rfl
@[simp] theorem Dev.setReg_free (d : Dev) (a : Nat) (w : Word) : (d.setReg a w).free = d.free := rfl

/-! A register word from a number. -/

@[simp] theorem Dev.setNum_time (d : Dev) (a n : Nat) : (d.setNum a n).time = d.time := rfl
@[simp] theorem Dev.setNum_core (d : Dev) (a n : Nat) : (d.setNum a n).core = d.core := rfl
@[simp] theorem Dev.setNum_tab (d : Dev) (a n : Nat) : (d.setNum a n).tab = d.tab := rfl
@[simp] theorem Dev.setNum_ce (d : Dev) (a n : Nat) : (d.setNum a n).ce = d.ce := rfl
@[simp] theorem Dev.setNum_vat (d : Dev) (a n : Nat) : (d.setNum a n).vat = d.vat := rfl
@[simp] theorem Dev.setNum_link (d : Dev) (a n : Nat) : (d.setNum a n).link = d.link := rfl
@[simp] theorem Dev.setNum_optic (d : Dev) (a n : Nat) : (d.setNum a n).optic = d.optic := rfl
@[simp] theorem Dev.setNum_mgmt (d : Dev) (a n : Nat) : (d.setNum a n).mgmt = d.mgmt := rfl
@[simp] theorem Dev.setNum_faults (d : Dev) (a n : Nat) : (d.setNum a n).faults = d.faults := rfl
@[simp] theorem Dev.setNum_power (d : Dev) (a n : Nat) : (d.setNum a n).power = d.power := rfl
@[simp] theorem Dev.setNum_tel (d : Dev) (a n : Nat) : (d.setNum a n).tel = d.tel := rfl
@[simp] theorem Dev.setNum_ddr (d : Dev) (a n : Nat) : (d.setNum a n).ddr = d.ddr := rfl
@[simp] theorem Dev.setNum_seen (d : Dev) (a n : Nat) : (d.setNum a n).seen = d.seen := rfl
@[simp] theorem Dev.setNum_out (d : Dev) (a n : Nat) : (d.setNum a n).out = d.out := rfl
@[simp] theorem Dev.setNum_free (d : Dev) (a n : Nat) : (d.setNum a n).free = d.free := rfl

/-! A field of a register. -/

@[simp] theorem Dev.setFld_time (d : Dev) (a : Nat) (f : FR) (v : Nat) : (d.setFld a f v).time = d.time := rfl
@[simp] theorem Dev.setFld_core (d : Dev) (a : Nat) (f : FR) (v : Nat) : (d.setFld a f v).core = d.core := rfl
@[simp] theorem Dev.setFld_tab (d : Dev) (a : Nat) (f : FR) (v : Nat) : (d.setFld a f v).tab = d.tab := rfl
@[simp] theorem Dev.setFld_ce (d : Dev) (a : Nat) (f : FR) (v : Nat) : (d.setFld a f v).ce = d.ce := rfl
@[simp] theorem Dev.setFld_vat (d : Dev) (a : Nat) (f : FR) (v : Nat) : (d.setFld a f v).vat = d.vat := rfl
@[simp] theorem Dev.setFld_link (d : Dev) (a : Nat) (f : FR) (v : Nat) : (d.setFld a f v).link = d.link := rfl
@[simp] theorem Dev.setFld_optic (d : Dev) (a : Nat) (f : FR) (v : Nat) : (d.setFld a f v).optic = d.optic := rfl
@[simp] theorem Dev.setFld_mgmt (d : Dev) (a : Nat) (f : FR) (v : Nat) : (d.setFld a f v).mgmt = d.mgmt := rfl
@[simp] theorem Dev.setFld_faults (d : Dev) (a : Nat) (f : FR) (v : Nat) : (d.setFld a f v).faults = d.faults := rfl
@[simp] theorem Dev.setFld_power (d : Dev) (a : Nat) (f : FR) (v : Nat) : (d.setFld a f v).power = d.power := rfl
@[simp] theorem Dev.setFld_tel (d : Dev) (a : Nat) (f : FR) (v : Nat) : (d.setFld a f v).tel = d.tel := rfl
@[simp] theorem Dev.setFld_ddr (d : Dev) (a : Nat) (f : FR) (v : Nat) : (d.setFld a f v).ddr = d.ddr := rfl
@[simp] theorem Dev.setFld_seen (d : Dev) (a : Nat) (f : FR) (v : Nat) : (d.setFld a f v).seen = d.seen := rfl
@[simp] theorem Dev.setFld_out (d : Dev) (a : Nat) (f : FR) (v : Nat) : (d.setFld a f v).out = d.out := rfl
@[simp] theorem Dev.setFld_free (d : Dev) (a : Nat) (f : FR) (v : Nat) : (d.setFld a f v).free = d.free := rfl

/-! A counter. -/

@[simp] theorem Dev.incBy_time (d : Dev) (a n : Nat) : (d.incBy a n).time = d.time := by
  unfold Dev.incBy; split <;> rfl
@[simp] theorem Dev.incBy_core (d : Dev) (a n : Nat) : (d.incBy a n).core = d.core := by
  unfold Dev.incBy; split <;> rfl
@[simp] theorem Dev.incBy_tab (d : Dev) (a n : Nat) : (d.incBy a n).tab = d.tab := by
  unfold Dev.incBy; split <;> rfl
@[simp] theorem Dev.incBy_ce (d : Dev) (a n : Nat) : (d.incBy a n).ce = d.ce := by
  unfold Dev.incBy; split <;> rfl
@[simp] theorem Dev.incBy_vat (d : Dev) (a n : Nat) : (d.incBy a n).vat = d.vat := by
  unfold Dev.incBy; split <;> rfl
@[simp] theorem Dev.incBy_link (d : Dev) (a n : Nat) : (d.incBy a n).link = d.link := by
  unfold Dev.incBy; split <;> rfl
@[simp] theorem Dev.incBy_optic (d : Dev) (a n : Nat) : (d.incBy a n).optic = d.optic := by
  unfold Dev.incBy; split <;> rfl
@[simp] theorem Dev.incBy_mgmt (d : Dev) (a n : Nat) : (d.incBy a n).mgmt = d.mgmt := by
  unfold Dev.incBy; split <;> rfl
@[simp] theorem Dev.incBy_faults (d : Dev) (a n : Nat) : (d.incBy a n).faults = d.faults := by
  unfold Dev.incBy; split <;> rfl
@[simp] theorem Dev.incBy_power (d : Dev) (a n : Nat) : (d.incBy a n).power = d.power := by
  unfold Dev.incBy; split <;> rfl
@[simp] theorem Dev.incBy_tel (d : Dev) (a n : Nat) : (d.incBy a n).tel = d.tel := by
  unfold Dev.incBy; split <;> rfl
@[simp] theorem Dev.incBy_ddr (d : Dev) (a n : Nat) : (d.incBy a n).ddr = d.ddr := by
  unfold Dev.incBy; split <;> rfl
@[simp] theorem Dev.incBy_seen (d : Dev) (a n : Nat) : (d.incBy a n).seen = d.seen := by
  unfold Dev.incBy; split <;> rfl
@[simp] theorem Dev.incBy_out (d : Dev) (a n : Nat) : (d.incBy a n).out = d.out := by
  unfold Dev.incBy; split <;> rfl
@[simp] theorem Dev.incBy_free (d : Dev) (a n : Nat) : (d.incBy a n).free = d.free := by
  unfold Dev.incBy; split <;> rfl

/-! One event counted. -/

@[simp] theorem Dev.inc_time (d : Dev) (a : Nat) : (d.inc a).time = d.time := by
  simp [Dev.inc]
@[simp] theorem Dev.inc_core (d : Dev) (a : Nat) : (d.inc a).core = d.core := by
  simp [Dev.inc]
@[simp] theorem Dev.inc_tab (d : Dev) (a : Nat) : (d.inc a).tab = d.tab := by
  simp [Dev.inc]
@[simp] theorem Dev.inc_ce (d : Dev) (a : Nat) : (d.inc a).ce = d.ce := by
  simp [Dev.inc]
@[simp] theorem Dev.inc_vat (d : Dev) (a : Nat) : (d.inc a).vat = d.vat := by
  simp [Dev.inc]
@[simp] theorem Dev.inc_link (d : Dev) (a : Nat) : (d.inc a).link = d.link := by
  simp [Dev.inc]
@[simp] theorem Dev.inc_optic (d : Dev) (a : Nat) : (d.inc a).optic = d.optic := by
  simp [Dev.inc]
@[simp] theorem Dev.inc_mgmt (d : Dev) (a : Nat) : (d.inc a).mgmt = d.mgmt := by
  simp [Dev.inc]
@[simp] theorem Dev.inc_faults (d : Dev) (a : Nat) : (d.inc a).faults = d.faults := by
  simp [Dev.inc]
@[simp] theorem Dev.inc_power (d : Dev) (a : Nat) : (d.inc a).power = d.power := by
  simp [Dev.inc]
@[simp] theorem Dev.inc_tel (d : Dev) (a : Nat) : (d.inc a).tel = d.tel := by
  simp [Dev.inc]
@[simp] theorem Dev.inc_ddr (d : Dev) (a : Nat) : (d.inc a).ddr = d.ddr := by
  simp [Dev.inc]
@[simp] theorem Dev.inc_seen (d : Dev) (a : Nat) : (d.inc a).seen = d.seen := by
  simp [Dev.inc]
@[simp] theorem Dev.inc_out (d : Dev) (a : Nat) : (d.inc a).out = d.out := by
  simp [Dev.inc]
@[simp] theorem Dev.inc_free (d : Dev) (a : Nat) : (d.inc a).free = d.free := by
  simp [Dev.inc]

/-- A performance monitor event changes counters alone. -/
theorem Dev.pm_csr (d : Dev) (u : Dev.PmUnit) (ev : Nat) (vc : Option Nat) (n : Nat) : ∃ m, d.pm u ev vc n = { d with csr := m } := by
  have fold : ∀ (l : List Nat) (e : Dev), (∃ m, e = { d with csr := m }) →
      ∃ m, l.foldl (fun d k => if d.pmSelects u k ev vc then d.incBy (u.base + 0x40 + 8 * k) n else d) e = { d with csr := m } := by
    intro l
    induction l with
    | nil => exact fun _ h => h
    | cons k l ih =>
      intro e h
      refine ih _ ?_
      obtain ⟨m, rfl⟩ := h
      dsimp only
      split
      · unfold Dev.incBy; split
        · exact ⟨m, rfl⟩
        · exact ⟨_, rfl⟩
      · exact ⟨m, rfl⟩
  unfold Dev.pm
  split
  · exact ⟨d.csr, rfl⟩
  · exact fold _ d ⟨d.csr, rfl⟩

/-! A performance monitor event. -/

@[simp] theorem Dev.pm_time (d : Dev) (u : Dev.PmUnit) (ev : Nat) (vc : Option Nat) (n : Nat) : (d.pm u ev vc n).time = d.time := by
  obtain ⟨m, h⟩ := Dev.pm_csr d u ev vc n; rw [h]
@[simp] theorem Dev.pm_core (d : Dev) (u : Dev.PmUnit) (ev : Nat) (vc : Option Nat) (n : Nat) : (d.pm u ev vc n).core = d.core := by
  obtain ⟨m, h⟩ := Dev.pm_csr d u ev vc n; rw [h]
@[simp] theorem Dev.pm_tab (d : Dev) (u : Dev.PmUnit) (ev : Nat) (vc : Option Nat) (n : Nat) : (d.pm u ev vc n).tab = d.tab := by
  obtain ⟨m, h⟩ := Dev.pm_csr d u ev vc n; rw [h]
@[simp] theorem Dev.pm_ce (d : Dev) (u : Dev.PmUnit) (ev : Nat) (vc : Option Nat) (n : Nat) : (d.pm u ev vc n).ce = d.ce := by
  obtain ⟨m, h⟩ := Dev.pm_csr d u ev vc n; rw [h]
@[simp] theorem Dev.pm_vat (d : Dev) (u : Dev.PmUnit) (ev : Nat) (vc : Option Nat) (n : Nat) : (d.pm u ev vc n).vat = d.vat := by
  obtain ⟨m, h⟩ := Dev.pm_csr d u ev vc n; rw [h]
@[simp] theorem Dev.pm_link (d : Dev) (u : Dev.PmUnit) (ev : Nat) (vc : Option Nat) (n : Nat) : (d.pm u ev vc n).link = d.link := by
  obtain ⟨m, h⟩ := Dev.pm_csr d u ev vc n; rw [h]
@[simp] theorem Dev.pm_optic (d : Dev) (u : Dev.PmUnit) (ev : Nat) (vc : Option Nat) (n : Nat) : (d.pm u ev vc n).optic = d.optic := by
  obtain ⟨m, h⟩ := Dev.pm_csr d u ev vc n; rw [h]
@[simp] theorem Dev.pm_mgmt (d : Dev) (u : Dev.PmUnit) (ev : Nat) (vc : Option Nat) (n : Nat) : (d.pm u ev vc n).mgmt = d.mgmt := by
  obtain ⟨m, h⟩ := Dev.pm_csr d u ev vc n; rw [h]
@[simp] theorem Dev.pm_faults (d : Dev) (u : Dev.PmUnit) (ev : Nat) (vc : Option Nat) (n : Nat) : (d.pm u ev vc n).faults = d.faults := by
  obtain ⟨m, h⟩ := Dev.pm_csr d u ev vc n; rw [h]
@[simp] theorem Dev.pm_power (d : Dev) (u : Dev.PmUnit) (ev : Nat) (vc : Option Nat) (n : Nat) : (d.pm u ev vc n).power = d.power := by
  obtain ⟨m, h⟩ := Dev.pm_csr d u ev vc n; rw [h]
@[simp] theorem Dev.pm_tel (d : Dev) (u : Dev.PmUnit) (ev : Nat) (vc : Option Nat) (n : Nat) : (d.pm u ev vc n).tel = d.tel := by
  obtain ⟨m, h⟩ := Dev.pm_csr d u ev vc n; rw [h]
@[simp] theorem Dev.pm_ddr (d : Dev) (u : Dev.PmUnit) (ev : Nat) (vc : Option Nat) (n : Nat) : (d.pm u ev vc n).ddr = d.ddr := by
  obtain ⟨m, h⟩ := Dev.pm_csr d u ev vc n; rw [h]
@[simp] theorem Dev.pm_seen (d : Dev) (u : Dev.PmUnit) (ev : Nat) (vc : Option Nat) (n : Nat) : (d.pm u ev vc n).seen = d.seen := by
  obtain ⟨m, h⟩ := Dev.pm_csr d u ev vc n; rw [h]
@[simp] theorem Dev.pm_out (d : Dev) (u : Dev.PmUnit) (ev : Nat) (vc : Option Nat) (n : Nat) : (d.pm u ev vc n).out = d.out := by
  obtain ⟨m, h⟩ := Dev.pm_csr d u ev vc n; rw [h]
@[simp] theorem Dev.pm_free (d : Dev) (u : Dev.PmUnit) (ev : Nat) (vc : Option Nat) (n : Nat) : (d.pm u ev vc n).free = d.free := by
  obtain ⟨m, h⟩ := Dev.pm_csr d u ev vc n; rw [h]

/-! A counter set to zero. -/

@[simp] theorem Dev.clearCtr_time (d : Dev) (a : Nat) : (d.clearCtr a).time = d.time := rfl
@[simp] theorem Dev.clearCtr_core (d : Dev) (a : Nat) : (d.clearCtr a).core = d.core := rfl
@[simp] theorem Dev.clearCtr_tab (d : Dev) (a : Nat) : (d.clearCtr a).tab = d.tab := rfl
@[simp] theorem Dev.clearCtr_ce (d : Dev) (a : Nat) : (d.clearCtr a).ce = d.ce := rfl
@[simp] theorem Dev.clearCtr_vat (d : Dev) (a : Nat) : (d.clearCtr a).vat = d.vat := rfl
@[simp] theorem Dev.clearCtr_link (d : Dev) (a : Nat) : (d.clearCtr a).link = d.link := rfl
@[simp] theorem Dev.clearCtr_optic (d : Dev) (a : Nat) : (d.clearCtr a).optic = d.optic := rfl
@[simp] theorem Dev.clearCtr_mgmt (d : Dev) (a : Nat) : (d.clearCtr a).mgmt = d.mgmt := rfl
@[simp] theorem Dev.clearCtr_faults (d : Dev) (a : Nat) : (d.clearCtr a).faults = d.faults := rfl
@[simp] theorem Dev.clearCtr_power (d : Dev) (a : Nat) : (d.clearCtr a).power = d.power := rfl
@[simp] theorem Dev.clearCtr_tel (d : Dev) (a : Nat) : (d.clearCtr a).tel = d.tel := rfl
@[simp] theorem Dev.clearCtr_ddr (d : Dev) (a : Nat) : (d.clearCtr a).ddr = d.ddr := rfl
@[simp] theorem Dev.clearCtr_seen (d : Dev) (a : Nat) : (d.clearCtr a).seen = d.seen := rfl
@[simp] theorem Dev.clearCtr_out (d : Dev) (a : Nat) : (d.clearCtr a).out = d.out := rfl
@[simp] theorem Dev.clearCtr_free (d : Dev) (a : Nat) : (d.clearCtr a).free = d.free := rfl

/-! An output. -/

@[simp] theorem Dev.emit_csr (d : Dev) (x : Out) : (d.emit x).csr = d.csr := rfl
@[simp] theorem Dev.emit_time (d : Dev) (x : Out) : (d.emit x).time = d.time := rfl
@[simp] theorem Dev.emit_core (d : Dev) (x : Out) : (d.emit x).core = d.core := rfl
@[simp] theorem Dev.emit_tab (d : Dev) (x : Out) : (d.emit x).tab = d.tab := rfl
@[simp] theorem Dev.emit_ce (d : Dev) (x : Out) : (d.emit x).ce = d.ce := rfl
@[simp] theorem Dev.emit_vat (d : Dev) (x : Out) : (d.emit x).vat = d.vat := rfl
@[simp] theorem Dev.emit_link (d : Dev) (x : Out) : (d.emit x).link = d.link := rfl
@[simp] theorem Dev.emit_optic (d : Dev) (x : Out) : (d.emit x).optic = d.optic := rfl
@[simp] theorem Dev.emit_mgmt (d : Dev) (x : Out) : (d.emit x).mgmt = d.mgmt := rfl
@[simp] theorem Dev.emit_faults (d : Dev) (x : Out) : (d.emit x).faults = d.faults := rfl
@[simp] theorem Dev.emit_power (d : Dev) (x : Out) : (d.emit x).power = d.power := rfl
@[simp] theorem Dev.emit_tel (d : Dev) (x : Out) : (d.emit x).tel = d.tel := rfl
@[simp] theorem Dev.emit_ddr (d : Dev) (x : Out) : (d.emit x).ddr = d.ddr := rfl
@[simp] theorem Dev.emit_seen (d : Dev) (x : Out) : (d.emit x).seen = d.seen := rfl
@[simp] theorem Dev.emit_free (d : Dev) (x : Out) : (d.emit x).free = d.free := rfl

/-! The packets held. -/

@[simp] theorem Dev.setPkts_csr (d : Dev) (l : List Pkt) : (d.setPkts l).csr = d.csr := rfl
@[simp] theorem Dev.setPkts_time (d : Dev) (l : List Pkt) : (d.setPkts l).time = d.time := rfl
@[simp] theorem Dev.setPkts_tab (d : Dev) (l : List Pkt) : (d.setPkts l).tab = d.tab := rfl
@[simp] theorem Dev.setPkts_ce (d : Dev) (l : List Pkt) : (d.setPkts l).ce = d.ce := rfl
@[simp] theorem Dev.setPkts_vat (d : Dev) (l : List Pkt) : (d.setPkts l).vat = d.vat := rfl
@[simp] theorem Dev.setPkts_link (d : Dev) (l : List Pkt) : (d.setPkts l).link = d.link := rfl
@[simp] theorem Dev.setPkts_optic (d : Dev) (l : List Pkt) : (d.setPkts l).optic = d.optic := rfl
@[simp] theorem Dev.setPkts_mgmt (d : Dev) (l : List Pkt) : (d.setPkts l).mgmt = d.mgmt := rfl
@[simp] theorem Dev.setPkts_faults (d : Dev) (l : List Pkt) : (d.setPkts l).faults = d.faults := rfl
@[simp] theorem Dev.setPkts_power (d : Dev) (l : List Pkt) : (d.setPkts l).power = d.power := rfl
@[simp] theorem Dev.setPkts_tel (d : Dev) (l : List Pkt) : (d.setPkts l).tel = d.tel := rfl
@[simp] theorem Dev.setPkts_ddr (d : Dev) (l : List Pkt) : (d.setPkts l).ddr = d.ddr := rfl
@[simp] theorem Dev.setPkts_seen (d : Dev) (l : List Pkt) : (d.setPkts l).seen = d.seen := rfl
@[simp] theorem Dev.setPkts_out (d : Dev) (l : List Pkt) : (d.setPkts l).out = d.out := rfl
@[simp] theorem Dev.setPkts_free (d : Dev) (l : List Pkt) : (d.setPkts l).free = d.free := rfl

/-! The state of transmission of a port code. -/

@[simp] theorem Dev.setTx_csr (d : Dev) (c : Nat) (t : PortTx) : (d.setTx c t).csr = d.csr := rfl
@[simp] theorem Dev.setTx_time (d : Dev) (c : Nat) (t : PortTx) : (d.setTx c t).time = d.time := rfl
@[simp] theorem Dev.setTx_tab (d : Dev) (c : Nat) (t : PortTx) : (d.setTx c t).tab = d.tab := rfl
@[simp] theorem Dev.setTx_ce (d : Dev) (c : Nat) (t : PortTx) : (d.setTx c t).ce = d.ce := rfl
@[simp] theorem Dev.setTx_vat (d : Dev) (c : Nat) (t : PortTx) : (d.setTx c t).vat = d.vat := rfl
@[simp] theorem Dev.setTx_link (d : Dev) (c : Nat) (t : PortTx) : (d.setTx c t).link = d.link := rfl
@[simp] theorem Dev.setTx_optic (d : Dev) (c : Nat) (t : PortTx) : (d.setTx c t).optic = d.optic := rfl
@[simp] theorem Dev.setTx_mgmt (d : Dev) (c : Nat) (t : PortTx) : (d.setTx c t).mgmt = d.mgmt := rfl
@[simp] theorem Dev.setTx_faults (d : Dev) (c : Nat) (t : PortTx) : (d.setTx c t).faults = d.faults := rfl
@[simp] theorem Dev.setTx_power (d : Dev) (c : Nat) (t : PortTx) : (d.setTx c t).power = d.power := rfl
@[simp] theorem Dev.setTx_tel (d : Dev) (c : Nat) (t : PortTx) : (d.setTx c t).tel = d.tel := rfl
@[simp] theorem Dev.setTx_ddr (d : Dev) (c : Nat) (t : PortTx) : (d.setTx c t).ddr = d.ddr := rfl
@[simp] theorem Dev.setTx_seen (d : Dev) (c : Nat) (t : PortTx) : (d.setTx c t).seen = d.seen := rfl
@[simp] theorem Dev.setTx_out (d : Dev) (c : Nat) (t : PortTx) : (d.setTx c t).out = d.out := rfl
@[simp] theorem Dev.setTx_free (d : Dev) (c : Nat) (t : PortTx) : (d.setTx c t).free = d.free := rfl

/-! The packet a port receives. -/

@[simp] theorem Dev.setRx_csr (d : Dev) (p : Nat) (r : Option Rx) : (d.setRx p r).csr = d.csr := rfl
@[simp] theorem Dev.setRx_time (d : Dev) (p : Nat) (r : Option Rx) : (d.setRx p r).time = d.time := rfl
@[simp] theorem Dev.setRx_tab (d : Dev) (p : Nat) (r : Option Rx) : (d.setRx p r).tab = d.tab := rfl
@[simp] theorem Dev.setRx_ce (d : Dev) (p : Nat) (r : Option Rx) : (d.setRx p r).ce = d.ce := rfl
@[simp] theorem Dev.setRx_vat (d : Dev) (p : Nat) (r : Option Rx) : (d.setRx p r).vat = d.vat := rfl
@[simp] theorem Dev.setRx_link (d : Dev) (p : Nat) (r : Option Rx) : (d.setRx p r).link = d.link := rfl
@[simp] theorem Dev.setRx_optic (d : Dev) (p : Nat) (r : Option Rx) : (d.setRx p r).optic = d.optic := rfl
@[simp] theorem Dev.setRx_mgmt (d : Dev) (p : Nat) (r : Option Rx) : (d.setRx p r).mgmt = d.mgmt := rfl
@[simp] theorem Dev.setRx_faults (d : Dev) (p : Nat) (r : Option Rx) : (d.setRx p r).faults = d.faults := rfl
@[simp] theorem Dev.setRx_power (d : Dev) (p : Nat) (r : Option Rx) : (d.setRx p r).power = d.power := rfl
@[simp] theorem Dev.setRx_tel (d : Dev) (p : Nat) (r : Option Rx) : (d.setRx p r).tel = d.tel := rfl
@[simp] theorem Dev.setRx_ddr (d : Dev) (p : Nat) (r : Option Rx) : (d.setRx p r).ddr = d.ddr := rfl
@[simp] theorem Dev.setRx_seen (d : Dev) (p : Nat) (r : Option Rx) : (d.setRx p r).seen = d.seen := rfl
@[simp] theorem Dev.setRx_out (d : Dev) (p : Nat) (r : Option Rx) : (d.setRx p r).out = d.out := rfl
@[simp] theorem Dev.setRx_free (d : Dev) (p : Nat) (r : Option Rx) : (d.setRx p r).free = d.free := rfl

/-! The vats. -/

@[simp] theorem Dev.setVat_csr (d : Dev) (v : Vats) : (d.setVat v).csr = d.csr := rfl
@[simp] theorem Dev.setVat_time (d : Dev) (v : Vats) : (d.setVat v).time = d.time := rfl
@[simp] theorem Dev.setVat_core (d : Dev) (v : Vats) : (d.setVat v).core = d.core := rfl
@[simp] theorem Dev.setVat_tab (d : Dev) (v : Vats) : (d.setVat v).tab = d.tab := rfl
@[simp] theorem Dev.setVat_ce (d : Dev) (v : Vats) : (d.setVat v).ce = d.ce := rfl
@[simp] theorem Dev.setVat_link (d : Dev) (v : Vats) : (d.setVat v).link = d.link := rfl
@[simp] theorem Dev.setVat_optic (d : Dev) (v : Vats) : (d.setVat v).optic = d.optic := rfl
@[simp] theorem Dev.setVat_mgmt (d : Dev) (v : Vats) : (d.setVat v).mgmt = d.mgmt := rfl
@[simp] theorem Dev.setVat_faults (d : Dev) (v : Vats) : (d.setVat v).faults = d.faults := rfl
@[simp] theorem Dev.setVat_power (d : Dev) (v : Vats) : (d.setVat v).power = d.power := rfl
@[simp] theorem Dev.setVat_tel (d : Dev) (v : Vats) : (d.setVat v).tel = d.tel := rfl
@[simp] theorem Dev.setVat_ddr (d : Dev) (v : Vats) : (d.setVat v).ddr = d.ddr := rfl
@[simp] theorem Dev.setVat_seen (d : Dev) (v : Vats) : (d.setVat v).seen = d.seen := rfl
@[simp] theorem Dev.setVat_out (d : Dev) (v : Vats) : (d.setVat v).out = d.out := rfl
@[simp] theorem Dev.setVat_free (d : Dev) (v : Vats) : (d.setVat v).free = d.free := rfl

/-! A launch slot. -/

@[simp] theorem Dev.putSlot_csr (d : Dev) (x : LSlot) : (d.putSlot x).csr = d.csr := rfl
@[simp] theorem Dev.putSlot_time (d : Dev) (x : LSlot) : (d.putSlot x).time = d.time := rfl
@[simp] theorem Dev.putSlot_core (d : Dev) (x : LSlot) : (d.putSlot x).core = d.core := rfl
@[simp] theorem Dev.putSlot_tab (d : Dev) (x : LSlot) : (d.putSlot x).tab = d.tab := rfl
@[simp] theorem Dev.putSlot_vat (d : Dev) (x : LSlot) : (d.putSlot x).vat = d.vat := rfl
@[simp] theorem Dev.putSlot_link (d : Dev) (x : LSlot) : (d.putSlot x).link = d.link := rfl
@[simp] theorem Dev.putSlot_optic (d : Dev) (x : LSlot) : (d.putSlot x).optic = d.optic := rfl
@[simp] theorem Dev.putSlot_mgmt (d : Dev) (x : LSlot) : (d.putSlot x).mgmt = d.mgmt := rfl
@[simp] theorem Dev.putSlot_faults (d : Dev) (x : LSlot) : (d.putSlot x).faults = d.faults := rfl
@[simp] theorem Dev.putSlot_power (d : Dev) (x : LSlot) : (d.putSlot x).power = d.power := rfl
@[simp] theorem Dev.putSlot_tel (d : Dev) (x : LSlot) : (d.putSlot x).tel = d.tel := rfl
@[simp] theorem Dev.putSlot_ddr (d : Dev) (x : LSlot) : (d.putSlot x).ddr = d.ddr := rfl
@[simp] theorem Dev.putSlot_seen (d : Dev) (x : LSlot) : (d.putSlot x).seen = d.seen := rfl
@[simp] theorem Dev.putSlot_out (d : Dev) (x : LSlot) : (d.putSlot x).out = d.out := rfl
@[simp] theorem Dev.putSlot_free (d : Dev) (x : LSlot) : (d.putSlot x).free = d.free := rfl

/-! A launch slot freed. -/

@[simp] theorem Dev.freeSlot_csr (d : Dev) (x : LSlot) : (d.freeSlot x).csr = d.csr := rfl
@[simp] theorem Dev.freeSlot_time (d : Dev) (x : LSlot) : (d.freeSlot x).time = d.time := rfl
@[simp] theorem Dev.freeSlot_core (d : Dev) (x : LSlot) : (d.freeSlot x).core = d.core := rfl
@[simp] theorem Dev.freeSlot_tab (d : Dev) (x : LSlot) : (d.freeSlot x).tab = d.tab := rfl
@[simp] theorem Dev.freeSlot_vat (d : Dev) (x : LSlot) : (d.freeSlot x).vat = d.vat := rfl
@[simp] theorem Dev.freeSlot_link (d : Dev) (x : LSlot) : (d.freeSlot x).link = d.link := rfl
@[simp] theorem Dev.freeSlot_optic (d : Dev) (x : LSlot) : (d.freeSlot x).optic = d.optic := rfl
@[simp] theorem Dev.freeSlot_mgmt (d : Dev) (x : LSlot) : (d.freeSlot x).mgmt = d.mgmt := rfl
@[simp] theorem Dev.freeSlot_faults (d : Dev) (x : LSlot) : (d.freeSlot x).faults = d.faults := rfl
@[simp] theorem Dev.freeSlot_power (d : Dev) (x : LSlot) : (d.freeSlot x).power = d.power := rfl
@[simp] theorem Dev.freeSlot_tel (d : Dev) (x : LSlot) : (d.freeSlot x).tel = d.tel := rfl
@[simp] theorem Dev.freeSlot_ddr (d : Dev) (x : LSlot) : (d.freeSlot x).ddr = d.ddr := rfl
@[simp] theorem Dev.freeSlot_seen (d : Dev) (x : LSlot) : (d.freeSlot x).seen = d.seen := rfl
@[simp] theorem Dev.freeSlot_out (d : Dev) (x : LSlot) : (d.freeSlot x).out = d.out := rfl
@[simp] theorem Dev.freeSlot_free (d : Dev) (x : LSlot) : (d.freeSlot x).free = d.free := rfl

/-! The link of a port code beside its registers. -/

@[simp] theorem Dev.setLk_csr (d : Dev) (c : Nat) (l : Lk) : (d.setLk c l).csr = d.csr := rfl
@[simp] theorem Dev.setLk_time (d : Dev) (c : Nat) (l : Lk) : (d.setLk c l).time = d.time := rfl
@[simp] theorem Dev.setLk_core (d : Dev) (c : Nat) (l : Lk) : (d.setLk c l).core = d.core := rfl
@[simp] theorem Dev.setLk_tab (d : Dev) (c : Nat) (l : Lk) : (d.setLk c l).tab = d.tab := rfl
@[simp] theorem Dev.setLk_ce (d : Dev) (c : Nat) (l : Lk) : (d.setLk c l).ce = d.ce := rfl
@[simp] theorem Dev.setLk_vat (d : Dev) (c : Nat) (l : Lk) : (d.setLk c l).vat = d.vat := rfl
@[simp] theorem Dev.setLk_optic (d : Dev) (c : Nat) (l : Lk) : (d.setLk c l).optic = d.optic := rfl
@[simp] theorem Dev.setLk_mgmt (d : Dev) (c : Nat) (l : Lk) : (d.setLk c l).mgmt = d.mgmt := rfl
@[simp] theorem Dev.setLk_faults (d : Dev) (c : Nat) (l : Lk) : (d.setLk c l).faults = d.faults := rfl
@[simp] theorem Dev.setLk_power (d : Dev) (c : Nat) (l : Lk) : (d.setLk c l).power = d.power := rfl
@[simp] theorem Dev.setLk_tel (d : Dev) (c : Nat) (l : Lk) : (d.setLk c l).tel = d.tel := rfl
@[simp] theorem Dev.setLk_ddr (d : Dev) (c : Nat) (l : Lk) : (d.setLk c l).ddr = d.ddr := rfl
@[simp] theorem Dev.setLk_seen (d : Dev) (c : Nat) (l : Lk) : (d.setLk c l).seen = d.seen := rfl
@[simp] theorem Dev.setLk_out (d : Dev) (c : Nat) (l : Lk) : (d.setLk c l).out = d.out := rfl
@[simp] theorem Dev.setLk_free (d : Dev) (c : Nat) (l : Lk) : (d.setLk c l).free = d.free := rfl

/-! An exact-match slot. -/

@[simp] theorem Dev.setEm_csr (d : Dev) (i : Nat) (e : List Byte) : (d.setEm i e).csr = d.csr := rfl
@[simp] theorem Dev.setEm_time (d : Dev) (i : Nat) (e : List Byte) : (d.setEm i e).time = d.time := rfl
@[simp] theorem Dev.setEm_core (d : Dev) (i : Nat) (e : List Byte) : (d.setEm i e).core = d.core := rfl
@[simp] theorem Dev.setEm_ce (d : Dev) (i : Nat) (e : List Byte) : (d.setEm i e).ce = d.ce := rfl
@[simp] theorem Dev.setEm_vat (d : Dev) (i : Nat) (e : List Byte) : (d.setEm i e).vat = d.vat := rfl
@[simp] theorem Dev.setEm_link (d : Dev) (i : Nat) (e : List Byte) : (d.setEm i e).link = d.link := rfl
@[simp] theorem Dev.setEm_optic (d : Dev) (i : Nat) (e : List Byte) : (d.setEm i e).optic = d.optic := rfl
@[simp] theorem Dev.setEm_mgmt (d : Dev) (i : Nat) (e : List Byte) : (d.setEm i e).mgmt = d.mgmt := rfl
@[simp] theorem Dev.setEm_faults (d : Dev) (i : Nat) (e : List Byte) : (d.setEm i e).faults = d.faults := rfl
@[simp] theorem Dev.setEm_power (d : Dev) (i : Nat) (e : List Byte) : (d.setEm i e).power = d.power := rfl
@[simp] theorem Dev.setEm_tel (d : Dev) (i : Nat) (e : List Byte) : (d.setEm i e).tel = d.tel := rfl
@[simp] theorem Dev.setEm_ddr (d : Dev) (i : Nat) (e : List Byte) : (d.setEm i e).ddr = d.ddr := rfl
@[simp] theorem Dev.setEm_seen (d : Dev) (i : Nat) (e : List Byte) : (d.setEm i e).seen = d.seen := rfl
@[simp] theorem Dev.setEm_out (d : Dev) (i : Nat) (e : List Byte) : (d.setEm i e).out = d.out := rfl
@[simp] theorem Dev.setEm_free (d : Dev) (i : Nat) (e : List Byte) : (d.setEm i e).free = d.free := rfl

/-! A session. -/

@[simp] theorem Dev.setSess_csr (d : Dev) (n : Nat) (x : Sess) : (d.setSess n x).csr = d.csr := rfl
@[simp] theorem Dev.setSess_time (d : Dev) (n : Nat) (x : Sess) : (d.setSess n x).time = d.time := rfl
@[simp] theorem Dev.setSess_core (d : Dev) (n : Nat) (x : Sess) : (d.setSess n x).core = d.core := rfl
@[simp] theorem Dev.setSess_tab (d : Dev) (n : Nat) (x : Sess) : (d.setSess n x).tab = d.tab := rfl
@[simp] theorem Dev.setSess_ce (d : Dev) (n : Nat) (x : Sess) : (d.setSess n x).ce = d.ce := rfl
@[simp] theorem Dev.setSess_vat (d : Dev) (n : Nat) (x : Sess) : (d.setSess n x).vat = d.vat := rfl
@[simp] theorem Dev.setSess_link (d : Dev) (n : Nat) (x : Sess) : (d.setSess n x).link = d.link := rfl
@[simp] theorem Dev.setSess_optic (d : Dev) (n : Nat) (x : Sess) : (d.setSess n x).optic = d.optic := rfl
@[simp] theorem Dev.setSess_faults (d : Dev) (n : Nat) (x : Sess) : (d.setSess n x).faults = d.faults := rfl
@[simp] theorem Dev.setSess_power (d : Dev) (n : Nat) (x : Sess) : (d.setSess n x).power = d.power := rfl
@[simp] theorem Dev.setSess_tel (d : Dev) (n : Nat) (x : Sess) : (d.setSess n x).tel = d.tel := rfl
@[simp] theorem Dev.setSess_ddr (d : Dev) (n : Nat) (x : Sess) : (d.setSess n x).ddr = d.ddr := rfl
@[simp] theorem Dev.setSess_seen (d : Dev) (n : Nat) (x : Sess) : (d.setSess n x).seen = d.seen := rfl
@[simp] theorem Dev.setSess_out (d : Dev) (n : Nat) (x : Sess) : (d.setSess n x).out = d.out := rfl
@[simp] theorem Dev.setSess_free (d : Dev) (n : Nat) (x : Sess) : (d.setSess n x).free = d.free := rfl

/-! An automatic action that waits. -/

@[simp] theorem Dev.pushTodo_csr (d : Dev) (a : Action) : (d.pushTodo a).csr = d.csr := rfl
@[simp] theorem Dev.pushTodo_time (d : Dev) (a : Action) : (d.pushTodo a).time = d.time := rfl
@[simp] theorem Dev.pushTodo_core (d : Dev) (a : Action) : (d.pushTodo a).core = d.core := rfl
@[simp] theorem Dev.pushTodo_tab (d : Dev) (a : Action) : (d.pushTodo a).tab = d.tab := rfl
@[simp] theorem Dev.pushTodo_ce (d : Dev) (a : Action) : (d.pushTodo a).ce = d.ce := rfl
@[simp] theorem Dev.pushTodo_vat (d : Dev) (a : Action) : (d.pushTodo a).vat = d.vat := rfl
@[simp] theorem Dev.pushTodo_link (d : Dev) (a : Action) : (d.pushTodo a).link = d.link := rfl
@[simp] theorem Dev.pushTodo_optic (d : Dev) (a : Action) : (d.pushTodo a).optic = d.optic := rfl
@[simp] theorem Dev.pushTodo_mgmt (d : Dev) (a : Action) : (d.pushTodo a).mgmt = d.mgmt := rfl
@[simp] theorem Dev.pushTodo_power (d : Dev) (a : Action) : (d.pushTodo a).power = d.power := rfl
@[simp] theorem Dev.pushTodo_tel (d : Dev) (a : Action) : (d.pushTodo a).tel = d.tel := rfl
@[simp] theorem Dev.pushTodo_ddr (d : Dev) (a : Action) : (d.pushTodo a).ddr = d.ddr := rfl
@[simp] theorem Dev.pushTodo_seen (d : Dev) (a : Action) : (d.pushTodo a).seen = d.seen := rfl
@[simp] theorem Dev.pushTodo_out (d : Dev) (a : Action) : (d.pushTodo a).out = d.out := rfl
@[simp] theorem Dev.pushTodo_free (d : Dev) (a : Action) : (d.pushTodo a).free = d.free := rfl

/-! A time pulse output. -/

@[simp] theorem Dev.setTpo_csr (d : Dev) (n : Nat) (t : Tpo) : (d.setTpo n t).csr = d.csr := rfl
@[simp] theorem Dev.setTpo_core (d : Dev) (n : Nat) (t : Tpo) : (d.setTpo n t).core = d.core := rfl
@[simp] theorem Dev.setTpo_tab (d : Dev) (n : Nat) (t : Tpo) : (d.setTpo n t).tab = d.tab := rfl
@[simp] theorem Dev.setTpo_ce (d : Dev) (n : Nat) (t : Tpo) : (d.setTpo n t).ce = d.ce := rfl
@[simp] theorem Dev.setTpo_vat (d : Dev) (n : Nat) (t : Tpo) : (d.setTpo n t).vat = d.vat := rfl
@[simp] theorem Dev.setTpo_link (d : Dev) (n : Nat) (t : Tpo) : (d.setTpo n t).link = d.link := rfl
@[simp] theorem Dev.setTpo_optic (d : Dev) (n : Nat) (t : Tpo) : (d.setTpo n t).optic = d.optic := rfl
@[simp] theorem Dev.setTpo_mgmt (d : Dev) (n : Nat) (t : Tpo) : (d.setTpo n t).mgmt = d.mgmt := rfl
@[simp] theorem Dev.setTpo_faults (d : Dev) (n : Nat) (t : Tpo) : (d.setTpo n t).faults = d.faults := rfl
@[simp] theorem Dev.setTpo_power (d : Dev) (n : Nat) (t : Tpo) : (d.setTpo n t).power = d.power := rfl
@[simp] theorem Dev.setTpo_tel (d : Dev) (n : Nat) (t : Tpo) : (d.setTpo n t).tel = d.tel := rfl
@[simp] theorem Dev.setTpo_ddr (d : Dev) (n : Nat) (t : Tpo) : (d.setTpo n t).ddr = d.ddr := rfl
@[simp] theorem Dev.setTpo_seen (d : Dev) (n : Nat) (t : Tpo) : (d.setTpo n t).seen = d.seen := rfl
@[simp] theorem Dev.setTpo_out (d : Dev) (n : Nat) (t : Tpo) : (d.setTpo n t).out = d.out := rfl
@[simp] theorem Dev.setTpo_free (d : Dev) (n : Nat) (t : Tpo) : (d.setTpo n t).free = d.free := rfl

/-! The beat in which the work of a boundary was done. -/

@[simp] theorem Dev.act1_csr (d : Dev) (k : Nat) : (d.act1 k).csr = d.csr := rfl
@[simp] theorem Dev.act1_core (d : Dev) (k : Nat) : (d.act1 k).core = d.core := rfl
@[simp] theorem Dev.act1_tab (d : Dev) (k : Nat) : (d.act1 k).tab = d.tab := rfl
@[simp] theorem Dev.act1_ce (d : Dev) (k : Nat) : (d.act1 k).ce = d.ce := rfl
@[simp] theorem Dev.act1_vat (d : Dev) (k : Nat) : (d.act1 k).vat = d.vat := rfl
@[simp] theorem Dev.act1_link (d : Dev) (k : Nat) : (d.act1 k).link = d.link := rfl
@[simp] theorem Dev.act1_optic (d : Dev) (k : Nat) : (d.act1 k).optic = d.optic := rfl
@[simp] theorem Dev.act1_mgmt (d : Dev) (k : Nat) : (d.act1 k).mgmt = d.mgmt := rfl
@[simp] theorem Dev.act1_faults (d : Dev) (k : Nat) : (d.act1 k).faults = d.faults := rfl
@[simp] theorem Dev.act1_power (d : Dev) (k : Nat) : (d.act1 k).power = d.power := rfl
@[simp] theorem Dev.act1_tel (d : Dev) (k : Nat) : (d.act1 k).tel = d.tel := rfl
@[simp] theorem Dev.act1_ddr (d : Dev) (k : Nat) : (d.act1 k).ddr = d.ddr := rfl
@[simp] theorem Dev.act1_seen (d : Dev) (k : Nat) : (d.act1 k).seen = d.seen := rfl
@[simp] theorem Dev.act1_out (d : Dev) (k : Nat) : (d.act1 k).out = d.out := rfl
@[simp] theorem Dev.act1_free (d : Dev) (k : Nat) : (d.act1 k).free = d.free := rfl

/-! The records of ring 0 or 1. -/

@[simp] theorem Dev.setRecs_csr (d : Dev) (r : Nat) (l : List (List Byte)) : (d.setRecs r l).csr = d.csr := rfl
@[simp] theorem Dev.setRecs_time (d : Dev) (r : Nat) (l : List (List Byte)) : (d.setRecs r l).time = d.time := rfl
@[simp] theorem Dev.setRecs_core (d : Dev) (r : Nat) (l : List (List Byte)) : (d.setRecs r l).core = d.core := rfl
@[simp] theorem Dev.setRecs_tab (d : Dev) (r : Nat) (l : List (List Byte)) : (d.setRecs r l).tab = d.tab := rfl
@[simp] theorem Dev.setRecs_ce (d : Dev) (r : Nat) (l : List (List Byte)) : (d.setRecs r l).ce = d.ce := rfl
@[simp] theorem Dev.setRecs_vat (d : Dev) (r : Nat) (l : List (List Byte)) : (d.setRecs r l).vat = d.vat := rfl
@[simp] theorem Dev.setRecs_link (d : Dev) (r : Nat) (l : List (List Byte)) : (d.setRecs r l).link = d.link := rfl
@[simp] theorem Dev.setRecs_optic (d : Dev) (r : Nat) (l : List (List Byte)) : (d.setRecs r l).optic = d.optic := rfl
@[simp] theorem Dev.setRecs_mgmt (d : Dev) (r : Nat) (l : List (List Byte)) : (d.setRecs r l).mgmt = d.mgmt := rfl
@[simp] theorem Dev.setRecs_faults (d : Dev) (r : Nat) (l : List (List Byte)) : (d.setRecs r l).faults = d.faults := rfl
@[simp] theorem Dev.setRecs_power (d : Dev) (r : Nat) (l : List (List Byte)) : (d.setRecs r l).power = d.power := rfl
@[simp] theorem Dev.setRecs_ddr (d : Dev) (r : Nat) (l : List (List Byte)) : (d.setRecs r l).ddr = d.ddr := rfl
@[simp] theorem Dev.setRecs_seen (d : Dev) (r : Nat) (l : List (List Byte)) : (d.setRecs r l).seen = d.seen := rfl
@[simp] theorem Dev.setRecs_out (d : Dev) (r : Nat) (l : List (List Byte)) : (d.setRecs r l).out = d.out := rfl
@[simp] theorem Dev.setRecs_free (d : Dev) (r : Nat) (l : List (List Byte)) : (d.setRecs r l).free = d.free := rfl

/-! A record that a ring misses. -/

@[simp] theorem Dev.ringGapCount_time (d : Dev) (r : Nat) : (d.ringGapCount r).time = d.time := rfl
@[simp] theorem Dev.ringGapCount_core (d : Dev) (r : Nat) : (d.ringGapCount r).core = d.core := rfl
@[simp] theorem Dev.ringGapCount_tab (d : Dev) (r : Nat) : (d.ringGapCount r).tab = d.tab := rfl
@[simp] theorem Dev.ringGapCount_ce (d : Dev) (r : Nat) : (d.ringGapCount r).ce = d.ce := rfl
@[simp] theorem Dev.ringGapCount_vat (d : Dev) (r : Nat) : (d.ringGapCount r).vat = d.vat := rfl
@[simp] theorem Dev.ringGapCount_link (d : Dev) (r : Nat) : (d.ringGapCount r).link = d.link := rfl
@[simp] theorem Dev.ringGapCount_optic (d : Dev) (r : Nat) : (d.ringGapCount r).optic = d.optic := rfl
@[simp] theorem Dev.ringGapCount_mgmt (d : Dev) (r : Nat) : (d.ringGapCount r).mgmt = d.mgmt := rfl
@[simp] theorem Dev.ringGapCount_faults (d : Dev) (r : Nat) : (d.ringGapCount r).faults = d.faults := rfl
@[simp] theorem Dev.ringGapCount_power (d : Dev) (r : Nat) : (d.ringGapCount r).power = d.power := rfl
@[simp] theorem Dev.ringGapCount_tel (d : Dev) (r : Nat) : (d.ringGapCount r).tel = d.tel := rfl
@[simp] theorem Dev.ringGapCount_ddr (d : Dev) (r : Nat) : (d.ringGapCount r).ddr = d.ddr := rfl
@[simp] theorem Dev.ringGapCount_seen (d : Dev) (r : Nat) : (d.ringGapCount r).seen = d.seen := rfl
@[simp] theorem Dev.ringGapCount_out (d : Dev) (r : Nat) : (d.ringGapCount r).out = d.out := rfl
@[simp] theorem Dev.ringGapCount_free (d : Dev) (r : Nat) : (d.ringGapCount r).free = d.free := rfl

/-! A part of LPDDR6 is noted as written. -/

@[simp] theorem Dev.wrote_csr (d : Dev) (l : List (Nat × Nat)) : (d.wrote l).csr = d.csr := rfl
@[simp] theorem Dev.wrote_time (d : Dev) (l : List (Nat × Nat)) : (d.wrote l).time = d.time := rfl
@[simp] theorem Dev.wrote_core (d : Dev) (l : List (Nat × Nat)) : (d.wrote l).core = d.core := rfl
@[simp] theorem Dev.wrote_tab (d : Dev) (l : List (Nat × Nat)) : (d.wrote l).tab = d.tab := rfl
@[simp] theorem Dev.wrote_ce (d : Dev) (l : List (Nat × Nat)) : (d.wrote l).ce = d.ce := rfl
@[simp] theorem Dev.wrote_vat (d : Dev) (l : List (Nat × Nat)) : (d.wrote l).vat = d.vat := rfl
@[simp] theorem Dev.wrote_link (d : Dev) (l : List (Nat × Nat)) : (d.wrote l).link = d.link := rfl
@[simp] theorem Dev.wrote_optic (d : Dev) (l : List (Nat × Nat)) : (d.wrote l).optic = d.optic := rfl
@[simp] theorem Dev.wrote_mgmt (d : Dev) (l : List (Nat × Nat)) : (d.wrote l).mgmt = d.mgmt := rfl
@[simp] theorem Dev.wrote_faults (d : Dev) (l : List (Nat × Nat)) : (d.wrote l).faults = d.faults := rfl
@[simp] theorem Dev.wrote_power (d : Dev) (l : List (Nat × Nat)) : (d.wrote l).power = d.power := rfl
@[simp] theorem Dev.wrote_tel (d : Dev) (l : List (Nat × Nat)) : (d.wrote l).tel = d.tel := rfl
@[simp] theorem Dev.wrote_ddr (d : Dev) (l : List (Nat × Nat)) : (d.wrote l).ddr = d.ddr := rfl
@[simp] theorem Dev.wrote_out (d : Dev) (l : List (Nat × Nat)) : (d.wrote l).out = d.out := rfl
@[simp] theorem Dev.wrote_free (d : Dev) (l : List (Nat × Nat)) : (d.wrote l).free = d.free := rfl

/-! A refill that waits spares an entry written meanwhile. -/

@[simp] theorem Dev.unrestore_csr (d : Dev) (p table bank index : Nat) : (d.unrestore p table bank index).csr = d.csr := rfl
@[simp] theorem Dev.unrestore_time (d : Dev) (p table bank index : Nat) : (d.unrestore p table bank index).time = d.time := rfl
@[simp] theorem Dev.unrestore_core (d : Dev) (p table bank index : Nat) : (d.unrestore p table bank index).core = d.core := rfl
@[simp] theorem Dev.unrestore_tab (d : Dev) (p table bank index : Nat) : (d.unrestore p table bank index).tab = d.tab := rfl
@[simp] theorem Dev.unrestore_ce (d : Dev) (p table bank index : Nat) : (d.unrestore p table bank index).ce = d.ce := rfl
@[simp] theorem Dev.unrestore_vat (d : Dev) (p table bank index : Nat) : (d.unrestore p table bank index).vat = d.vat := rfl
@[simp] theorem Dev.unrestore_link (d : Dev) (p table bank index : Nat) : (d.unrestore p table bank index).link = d.link := rfl
@[simp] theorem Dev.unrestore_optic (d : Dev) (p table bank index : Nat) : (d.unrestore p table bank index).optic = d.optic := rfl
@[simp] theorem Dev.unrestore_mgmt (d : Dev) (p table bank index : Nat) : (d.unrestore p table bank index).mgmt = d.mgmt := rfl
@[simp] theorem Dev.unrestore_faults (d : Dev) (p table bank index : Nat) : (d.unrestore p table bank index).faults = d.faults := rfl
@[simp] theorem Dev.unrestore_power (d : Dev) (p table bank index : Nat) : (d.unrestore p table bank index).power = d.power := rfl
@[simp] theorem Dev.unrestore_tel (d : Dev) (p table bank index : Nat) : (d.unrestore p table bank index).tel = d.tel := rfl
@[simp] theorem Dev.unrestore_seen (d : Dev) (p table bank index : Nat) : (d.unrestore p table bank index).seen = d.seen := rfl
@[simp] theorem Dev.unrestore_out (d : Dev) (p table bank index : Nat) : (d.unrestore p table bank index).out = d.out := rfl
@[simp] theorem Dev.unrestore_free (d : Dev) (p table bank index : Nat) : (d.unrestore p table bank index).free = d.free := rfl

/-! A write of LPDDR6 makes its bursts good. -/

@[simp] theorem Dev.ddrWrite_time (d : Dev) (a n : Nat) : (d.ddrWrite a n).time = d.time := by
  simp [Dev.ddrWrite]
@[simp] theorem Dev.ddrWrite_core (d : Dev) (a n : Nat) : (d.ddrWrite a n).core = d.core := by
  simp [Dev.ddrWrite]
@[simp] theorem Dev.ddrWrite_tab (d : Dev) (a n : Nat) : (d.ddrWrite a n).tab = d.tab := by
  simp [Dev.ddrWrite]
@[simp] theorem Dev.ddrWrite_ce (d : Dev) (a n : Nat) : (d.ddrWrite a n).ce = d.ce := by
  simp [Dev.ddrWrite]
@[simp] theorem Dev.ddrWrite_vat (d : Dev) (a n : Nat) : (d.ddrWrite a n).vat = d.vat := by
  simp [Dev.ddrWrite]
@[simp] theorem Dev.ddrWrite_link (d : Dev) (a n : Nat) : (d.ddrWrite a n).link = d.link := by
  simp [Dev.ddrWrite]
@[simp] theorem Dev.ddrWrite_optic (d : Dev) (a n : Nat) : (d.ddrWrite a n).optic = d.optic := by
  simp [Dev.ddrWrite]
@[simp] theorem Dev.ddrWrite_mgmt (d : Dev) (a n : Nat) : (d.ddrWrite a n).mgmt = d.mgmt := by
  simp [Dev.ddrWrite]
@[simp] theorem Dev.ddrWrite_faults (d : Dev) (a n : Nat) : (d.ddrWrite a n).faults = d.faults := by
  simp [Dev.ddrWrite]
@[simp] theorem Dev.ddrWrite_power (d : Dev) (a n : Nat) : (d.ddrWrite a n).power = d.power := by
  simp [Dev.ddrWrite]
@[simp] theorem Dev.ddrWrite_tel (d : Dev) (a n : Nat) : (d.ddrWrite a n).tel = d.tel := by
  simp [Dev.ddrWrite]
@[simp] theorem Dev.ddrWrite_out (d : Dev) (a n : Nat) : (d.ddrWrite a n).out = d.out := by
  simp [Dev.ddrWrite]
@[simp] theorem Dev.ddrWrite_free (d : Dev) (a n : Nat) : (d.ddrWrite a n).free = d.free := by
  simp [Dev.ddrWrite]

/-! The overflow store. -/

@[simp] theorem Dev.setOvf_time (d : Dev) (l : List (List Byte)) (b i : Nat) : (d.setOvf l b i).time = d.time := by
  simp [Dev.setOvf]
@[simp] theorem Dev.setOvf_core (d : Dev) (l : List (List Byte)) (b i : Nat) : (d.setOvf l b i).core = d.core := by
  simp [Dev.setOvf]
@[simp] theorem Dev.setOvf_ce (d : Dev) (l : List (List Byte)) (b i : Nat) : (d.setOvf l b i).ce = d.ce := by
  simp [Dev.setOvf]
@[simp] theorem Dev.setOvf_vat (d : Dev) (l : List (List Byte)) (b i : Nat) : (d.setOvf l b i).vat = d.vat := by
  simp [Dev.setOvf]
@[simp] theorem Dev.setOvf_link (d : Dev) (l : List (List Byte)) (b i : Nat) : (d.setOvf l b i).link = d.link := by
  simp [Dev.setOvf]
@[simp] theorem Dev.setOvf_optic (d : Dev) (l : List (List Byte)) (b i : Nat) : (d.setOvf l b i).optic = d.optic := by
  simp [Dev.setOvf]
@[simp] theorem Dev.setOvf_mgmt (d : Dev) (l : List (List Byte)) (b i : Nat) : (d.setOvf l b i).mgmt = d.mgmt := by
  simp [Dev.setOvf]
@[simp] theorem Dev.setOvf_faults (d : Dev) (l : List (List Byte)) (b i : Nat) : (d.setOvf l b i).faults = d.faults := by
  simp [Dev.setOvf]
@[simp] theorem Dev.setOvf_power (d : Dev) (l : List (List Byte)) (b i : Nat) : (d.setOvf l b i).power = d.power := by
  simp [Dev.setOvf]
@[simp] theorem Dev.setOvf_tel (d : Dev) (l : List (List Byte)) (b i : Nat) : (d.setOvf l b i).tel = d.tel := by
  simp [Dev.setOvf]
@[simp] theorem Dev.setOvf_out (d : Dev) (l : List (List Byte)) (b i : Nat) : (d.setOvf l b i).out = d.out := by
  simp [Dev.setOvf]
@[simp] theorem Dev.setOvf_free (d : Dev) (l : List (List Byte)) (b i : Nat) : (d.setOvf l b i).free = d.free := by
  simp [Dev.setOvf]

/-! The errors that the accesses of a command meet. -/

@[simp] theorem Dev.seeing_csr (d : Dev) (l : List (Nat × List Nat)) : (d.seeing l).csr = d.csr := rfl
@[simp] theorem Dev.seeing_time (d : Dev) (l : List (Nat × List Nat)) : (d.seeing l).time = d.time := rfl
@[simp] theorem Dev.seeing_core (d : Dev) (l : List (Nat × List Nat)) : (d.seeing l).core = d.core := rfl
@[simp] theorem Dev.seeing_tab (d : Dev) (l : List (Nat × List Nat)) : (d.seeing l).tab = d.tab := rfl
@[simp] theorem Dev.seeing_ce (d : Dev) (l : List (Nat × List Nat)) : (d.seeing l).ce = d.ce := rfl
@[simp] theorem Dev.seeing_vat (d : Dev) (l : List (Nat × List Nat)) : (d.seeing l).vat = d.vat := rfl
@[simp] theorem Dev.seeing_link (d : Dev) (l : List (Nat × List Nat)) : (d.seeing l).link = d.link := rfl
@[simp] theorem Dev.seeing_optic (d : Dev) (l : List (Nat × List Nat)) : (d.seeing l).optic = d.optic := rfl
@[simp] theorem Dev.seeing_mgmt (d : Dev) (l : List (Nat × List Nat)) : (d.seeing l).mgmt = d.mgmt := rfl
@[simp] theorem Dev.seeing_faults (d : Dev) (l : List (Nat × List Nat)) : (d.seeing l).faults = d.faults := rfl
@[simp] theorem Dev.seeing_power (d : Dev) (l : List (Nat × List Nat)) : (d.seeing l).power = d.power := rfl
@[simp] theorem Dev.seeing_tel (d : Dev) (l : List (Nat × List Nat)) : (d.seeing l).tel = d.tel := rfl
@[simp] theorem Dev.seeing_ddr (d : Dev) (l : List (Nat × List Nat)) : (d.seeing l).ddr = d.ddr := rfl
@[simp] theorem Dev.seeing_out (d : Dev) (l : List (Nat × List Nat)) : (d.seeing l).out = d.out := rfl
@[simp] theorem Dev.seeing_free (d : Dev) (l : List (Nat × List Nat)) : (d.seeing l).free = d.free := rfl

/-! The error that the descriptor reads of a command meet. -/

@[simp] theorem Dev.meeting_csr (d : Dev) (e : Option DescErr) : (d.meeting e).csr = d.csr := rfl
@[simp] theorem Dev.meeting_time (d : Dev) (e : Option DescErr) : (d.meeting e).time = d.time := rfl
@[simp] theorem Dev.meeting_core (d : Dev) (e : Option DescErr) : (d.meeting e).core = d.core := rfl
@[simp] theorem Dev.meeting_tab (d : Dev) (e : Option DescErr) : (d.meeting e).tab = d.tab := rfl
@[simp] theorem Dev.meeting_ce (d : Dev) (e : Option DescErr) : (d.meeting e).ce = d.ce := rfl
@[simp] theorem Dev.meeting_vat (d : Dev) (e : Option DescErr) : (d.meeting e).vat = d.vat := rfl
@[simp] theorem Dev.meeting_link (d : Dev) (e : Option DescErr) : (d.meeting e).link = d.link := rfl
@[simp] theorem Dev.meeting_optic (d : Dev) (e : Option DescErr) : (d.meeting e).optic = d.optic := rfl
@[simp] theorem Dev.meeting_mgmt (d : Dev) (e : Option DescErr) : (d.meeting e).mgmt = d.mgmt := rfl
@[simp] theorem Dev.meeting_faults (d : Dev) (e : Option DescErr) : (d.meeting e).faults = d.faults := rfl
@[simp] theorem Dev.meeting_power (d : Dev) (e : Option DescErr) : (d.meeting e).power = d.power := rfl
@[simp] theorem Dev.meeting_tel (d : Dev) (e : Option DescErr) : (d.meeting e).tel = d.tel := rfl
@[simp] theorem Dev.meeting_ddr (d : Dev) (e : Option DescErr) : (d.meeting e).ddr = d.ddr := rfl
@[simp] theorem Dev.meeting_out (d : Dev) (e : Option DescErr) : (d.meeting e).out = d.out := rfl
@[simp] theorem Dev.meeting_free (d : Dev) (e : Option DescErr) : (d.meeting e).free = d.free := rfl

/-! The base of fabric time kept. -/

@[simp] theorem Dev.keepBase_csr (d : Dev) : (d.keepBase).csr = d.csr := rfl
@[simp] theorem Dev.keepBase_core (d : Dev) : (d.keepBase).core = d.core := rfl
@[simp] theorem Dev.keepBase_tab (d : Dev) : (d.keepBase).tab = d.tab := rfl
@[simp] theorem Dev.keepBase_ce (d : Dev) : (d.keepBase).ce = d.ce := rfl
@[simp] theorem Dev.keepBase_vat (d : Dev) : (d.keepBase).vat = d.vat := rfl
@[simp] theorem Dev.keepBase_link (d : Dev) : (d.keepBase).link = d.link := rfl
@[simp] theorem Dev.keepBase_optic (d : Dev) : (d.keepBase).optic = d.optic := rfl
@[simp] theorem Dev.keepBase_mgmt (d : Dev) : (d.keepBase).mgmt = d.mgmt := rfl
@[simp] theorem Dev.keepBase_faults (d : Dev) : (d.keepBase).faults = d.faults := rfl
@[simp] theorem Dev.keepBase_power (d : Dev) : (d.keepBase).power = d.power := rfl
@[simp] theorem Dev.keepBase_tel (d : Dev) : (d.keepBase).tel = d.tel := rfl
@[simp] theorem Dev.keepBase_ddr (d : Dev) : (d.keepBase).ddr = d.ddr := rfl
@[simp] theorem Dev.keepBase_seen (d : Dev) : (d.keepBase).seen = d.seen := rfl
@[simp] theorem Dev.keepBase_out (d : Dev) : (d.keepBase).out = d.out := rfl
@[simp] theorem Dev.keepBase_free (d : Dev) : (d.keepBase).free = d.free := rfl

/-! The calibration visit. -/

@[simp] theorem Dev.setCal_csr (d : Dev) (v : Option Cal) : (d.setCal v).csr = d.csr := rfl
@[simp] theorem Dev.setCal_time (d : Dev) (v : Option Cal) : (d.setCal v).time = d.time := rfl
@[simp] theorem Dev.setCal_core (d : Dev) (v : Option Cal) : (d.setCal v).core = d.core := rfl
@[simp] theorem Dev.setCal_tab (d : Dev) (v : Option Cal) : (d.setCal v).tab = d.tab := rfl
@[simp] theorem Dev.setCal_ce (d : Dev) (v : Option Cal) : (d.setCal v).ce = d.ce := rfl
@[simp] theorem Dev.setCal_vat (d : Dev) (v : Option Cal) : (d.setCal v).vat = d.vat := rfl
@[simp] theorem Dev.setCal_link (d : Dev) (v : Option Cal) : (d.setCal v).link = d.link := rfl
@[simp] theorem Dev.setCal_mgmt (d : Dev) (v : Option Cal) : (d.setCal v).mgmt = d.mgmt := rfl
@[simp] theorem Dev.setCal_faults (d : Dev) (v : Option Cal) : (d.setCal v).faults = d.faults := rfl
@[simp] theorem Dev.setCal_power (d : Dev) (v : Option Cal) : (d.setCal v).power = d.power := rfl
@[simp] theorem Dev.setCal_tel (d : Dev) (v : Option Cal) : (d.setCal v).tel = d.tel := rfl
@[simp] theorem Dev.setCal_ddr (d : Dev) (v : Option Cal) : (d.setCal v).ddr = d.ddr := rfl
@[simp] theorem Dev.setCal_seen (d : Dev) (v : Option Cal) : (d.setCal v).seen = d.seen := rfl
@[simp] theorem Dev.setCal_out (d : Dev) (v : Option Cal) : (d.setCal v).out = d.out := rfl
@[simp] theorem Dev.setCal_free (d : Dev) (v : Option Cal) : (d.setCal v).free = d.free := rfl

end Sys2Proof.Machine
end

