-- ==== Sys2Proof/Laws/Ops.lean ====
section
/-! SUPPORT. What the operations over registers, fields and counters do: a read after a write, and that a write leaves the rest alone. -/
namespace Sys2Proof.Machine

/-! Words. -/

@[simp] theorem Csr.word_setWord_same (c : Csr) (a : Nat) (w : Word) : (c.setWord a w).word a = w := by
  unfold Csr.setWord Csr.word
  by_cases h : w = resetWord a
  · simp [h, Sparse.find_del_same]
  · simp [h, Sparse.find_ins_same]

theorem Csr.word_setWord_other (c : Csr) (a b : Nat) (w : Word) (h : b ≠ a) : (c.setWord a w).word b = c.word b := by
  unfold Csr.setWord Csr.word
  by_cases e : w = resetWord a
  · simp [e, Sparse.find_del_other _ _ _ h]
  · simp [e, Sparse.find_ins_other _ _ _ _ h]

@[simp] theorem Csr.setWord_ctrs (c : Csr) (a : Nat) (w : Word) : (c.setWord a w).ctrs = c.ctrs := rfl
@[simp] theorem Csr.setWord_rwb (c : Csr) (a : Nat) (w : Word) : (c.setWord a w).rwb = c.rwb := rfl
@[simp] theorem Csr.setWord_snap (c : Csr) (a : Nat) (w : Word) : (c.setWord a w).snap = c.snap := rfl
@[simp] theorem Csr.setWord_latch (c : Csr) (a : Nat) (w : Word) : (c.setWord a w).latch = c.latch := rfl

/-! Fields of a word. -/

/-- The value of a field within a word. -/
theorem fput_toNat (w : Word) (f : FR) (v : Nat) (h : f.lo ≤ f.hi) (k : f.hi < 32) : (fput w f v).toNat = putBits w.toNat f.hi f.lo v := by
  unfold fput
  rw [BitVec.toNat_ofNat]
  exact Nat.mod_eq_of_lt (putBits_lt _ _ _ _ 32 w.isLt h k)

/-- A field reads as what was put into it. -/
theorem fget_fput (w : Word) (f : FR) (v : Nat) (h : f.lo ≤ f.hi) (k : f.hi < 32) : fget (fput w f v) f = v % 2 ^ (f.hi + 1 - f.lo) := by
  unfold fget
  rw [fput_toNat w f v h k, bits_putBits]

/-- Another field of the word is left as it was. -/
theorem fget_fput_other (w : Word) (f g : FR) (v : Nat) (h : f.lo ≤ f.hi) (k : f.hi < 32) (o : g.hi < f.lo ∨ f.hi < g.lo) :
    fget (fput w f v) g = fget w g := by
  unfold fget
  rw [fput_toNat w f v h k]
  rcases o with o | o
  · exact bits_putBits_below _ _ _ _ _ _ o
  · exact bits_putBits_above _ _ _ _ _ _ o h

namespace Dev

@[simp] theorem reg_setReg_same (d : Dev) (a : Nat) (w : Word) : (d.setReg a w).reg a = w := Csr.word_setWord_same ..
theorem reg_setReg_other (d : Dev) (a b : Nat) (w : Word) (h : b ≠ a) : (d.setReg a w).reg b = d.reg b := Csr.word_setWord_other _ _ _ _ h
@[simp] theorem reg_setNum_same (d : Dev) (a n : Nat) : (d.setNum a n).reg a = BitVec.ofNat 32 n := reg_setReg_same ..
theorem reg_setNum_other (d : Dev) (a b n : Nat) (h : b ≠ a) : (d.setNum a n).reg b = d.reg b := reg_setReg_other _ _ _ _ h
@[simp] theorem reg_setFld_same (d : Dev) (a : Nat) (f : FR) (v : Nat) : (d.setFld a f v).reg a = fput (d.reg a) f v := reg_setReg_same ..
theorem reg_setFld_other (d : Dev) (a b : Nat) (f : FR) (v : Nat) (h : b ≠ a) : (d.setFld a f v).reg b = d.reg b := reg_setReg_other _ _ _ _ h

/-- A field reads as what was put into it. -/
theorem fld_setFld_same (d : Dev) (a : Nat) (f : FR) (v : Nat) (h : f.lo ≤ f.hi) (k : f.hi < 32) :
    (d.setFld a f v).fld a f = v % 2 ^ (f.hi + 1 - f.lo) := by
  unfold fld
  rw [reg_setFld_same, fget_fput _ _ _ h k]

/-- Another field of the register is left as it was. -/
theorem fld_setFld_other (d : Dev) (a : Nat) (f g : FR) (v : Nat) (h : f.lo ≤ f.hi) (k : f.hi < 32) (o : g.hi < f.lo ∨ f.hi < g.lo) :
    (d.setFld a f v).fld a g = d.fld a g := by
  unfold fld
  rw [reg_setFld_same, fget_fput_other _ _ _ _ h k o]

/-- Fields of other registers are left as they were. -/
theorem fld_setFld_elsewhere (d : Dev) (a b : Nat) (f g : FR) (v : Nat) (h : b ≠ a) : (d.setFld a f v).fld b g = d.fld b g := by
  unfold fld
  rw [reg_setFld_other _ _ _ _ _ h]

/-! Counters. -/

@[simp] theorem reg_incBy (d : Dev) (a n b : Nat) : (d.incBy a n).reg b = d.reg b := by
  unfold incBy; split <;> rfl
@[simp] theorem reg_inc (d : Dev) (a b : Nat) : (d.inc a).reg b = d.reg b := reg_incBy ..

/-- A counter after an addition, modulo 2^64 (spec/02_fabric_protocol.md R94). -/
theorem ctr_incBy_same (d : Dev) (a n : Nat) (h : d.ctr a < 2 ^ 64) (u : d.pwState ≠ 2) : (d.incBy a n).ctr a = (d.ctr a + n) % 2 ^ 64 := by
  unfold incBy
  split
  · next c =>
    rcases c with c | c
    · subst c; rw [Nat.add_zero, Nat.mod_eq_of_lt h]
    · exact absurd c u
  · exact Sparse.get_put_same ..

/-- In Umber the counters of every block are retained and do not count (spec/16_power_umber.md R557). -/
theorem incBy_umber (d : Dev) (a n : Nat) (u : d.pwState = 2) : d.incBy a n = d := by
  unfold incBy; simp [u]

/-- Other counters are left as they were. -/
theorem ctr_incBy_other (d : Dev) (a b n : Nat) (h : b ≠ a) : (d.incBy a n).ctr b = d.ctr b := by
  unfold incBy
  split
  · rfl
  · exact Sparse.get_put_other _ _ _ _ _ h

@[simp] theorem ctr_clearCtr_same (d : Dev) (a : Nat) : (d.clearCtr a).ctr a = 0 := by
  show Sparse.get 0 (Sparse.del d.csr.ctrs a) a = 0
  unfold Sparse.get
  rw [Sparse.find_del_same]; rfl

theorem ctr_clearCtr_other (d : Dev) (a b : Nat) (h : b ≠ a) : (d.clearCtr a).ctr b = d.ctr b := by
  show Sparse.get 0 (Sparse.del d.csr.ctrs a) b = _
  unfold Sparse.get
  rw [Sparse.find_del_other _ _ _ h]; rfl

@[simp] theorem ctr_setReg (d : Dev) (a b : Nat) (w : Word) : (d.setReg a w).ctr b = d.ctr b := rfl
@[simp] theorem ctr_setNum (d : Dev) (a b n : Nat) : (d.setNum a n).ctr b = d.ctr b := rfl
@[simp] theorem ctr_setFld (d : Dev) (a b : Nat) (f : FR) (v : Nat) : (d.setFld a f v).ctr b = d.ctr b := rfl

/-! Time and sessions. -/

@[simp] theorem lc_setReg (d : Dev) (a : Nat) (w : Word) : (d.setReg a w).lc = d.lc := rfl
@[simp] theorem lc_setNum (d : Dev) (a n : Nat) : (d.setNum a n).lc = d.lc := rfl
@[simp] theorem lc_setFld (d : Dev) (a : Nat) (f : FR) (v : Nat) : (d.setFld a f v).lc = d.lc := rfl
@[simp] theorem sessAt_setReg (d : Dev) (a : Nat) (w : Word) (n : Nat) : (d.setReg a w).sessAt n = d.sessAt n := rfl
@[simp] theorem sessAt_setNum (d : Dev) (a k n : Nat) : (d.setNum a k).sessAt n = d.sessAt n := rfl
@[simp] theorem sessAt_setFld (d : Dev) (a : Nat) (f : FR) (v n : Nat) : (d.setFld a f v).sessAt n = d.sessAt n := rfl

theorem sessAt_setSess_same (d : Dev) (n : Nat) (s : Sess) (h : n < d.mgmt.sess.length) : (d.setSess n s).sessAt n = s := by
  simp [sessAt, setSess, List.getD, h]

theorem sessAt_setSess_other (d : Dev) (n m : Nat) (s : Sess) (h : m ≠ n) : (d.setSess n s).sessAt m = d.sessAt m := by
  simp [sessAt, setSess, List.getD, h.symm]

/-- What becomes of a command by its SEQ: its reply goes out again, it counts as dropped, it is discarded, or it is taken. -/
theorem windowed_cases (d k : Dev) (n seq : Nat) :
    (∃ x ∈ (d.sessAt n).cache, x.1 = seq ∧ d.windowed n seq k = d.sendUcp (d.sessAt n).ep n x.2) ∨ d.windowed n seq k = d ∨
      d.windowed n seq k = d.inc R.UCP_WINDOW_DROP ∨ d.windowed n seq k = k := by
  dsimp only [windowed]
  split
  · split
    · rename_i x hx
      exact .inl ⟨x, List.mem_of_find?_eq_some hx, by simpa using List.find?_some hx, rfl⟩
    · exact .inr (.inl rfl)
  · split_ifs
    all_goals first | exact .inr (.inl rfl) | exact .inr (.inr (.inl rfl)) | exact .inr (.inr (.inr rfl))

/-! Granule pointers (R190). -/

/-- A context that returns its own run by an aligned pointer passes every check. -/
theorem granCheck_own (v f r : Nat) (hv : v < 1600) (hf : f < 64) (hr : 0 < r) (ha : f % r = 0) : granCheck (v, f, r) v f r = 0 := by
  simp [granCheck, Nat.not_le.mpr hv, Nat.not_le.mpr hf, Nat.ne_of_gt hr, ha]

end Dev
end Sys2Proof.Machine
end

