-- ==== Sys2Proof/Laws/Lift.lean ====
section
/-! SUPPORT. What the ways of a command's effect into the state can answer, said once. -/
namespace Sys2Proof.Machine

/-- An effect while the device is not held in reset. -/
theorem State.effect_run (s : State) (f : Dev → Fuses → Dev) (h : s.dev.inReset = false) :
    s.effect f = { s with dev := (f s.dev s.fuse).settle s.fuse } := by
  unfold State.effect; simp [h]

/-- While a full reset lasts nothing has an effect. -/
theorem State.effect_reset (s : State) (f : Dev → Fuses → Dev) (h : s.dev.inReset = true) : s.effect f = s := by
  unfold State.effect; simp [h]

/-- A command without a time of its own always answers a next state. -/
theorem act_eq (s : State) (f : Dev → Fuses → Dev) : act s f = .next (s.effect f) := rfl

/-- Boundaries that put nothing into effect are no trap. -/
theorem Dev.trapFrom_nil (d : Dev) (before : List (Nat × Nat × Nat)) (l : List (List (Nat × Nat × Nat))) (h : ∀ x ∈ l, x = []) : d.trapFrom before l = false := by
  induction l generalizing before with
  | nil => rfl
  | cons x r ih =>
    rw [Dev.trapFrom, h x (by simp), Dev.badCommit, ih _ fun y hy => h y (by simp [hy])]
    rfl

/-- Nothing is in the way of time that goes on to any count while nothing waits for a boundary. -/
theorem Dev.mrdTrap_calm (d : Dev) (now : Nat) (h : d.calm = true) : d.mrdTrap now = false := by
  simp only [Dev.calm, Bool.and_eq_true, decide_eq_true_eq, List.all_eq_true] at h
  have e (n : Nat) : d.groupAhead n = [] := by
    unfold Dev.groupAhead
    rw [List.find?_eq_none.mpr fun g hg => by simp [h.2 g hg]]
  have g : ((List.range 4).any fun g => d.mrdState g = 2 && d.dueBy now (d.beatsAhead (d.mrdTarget g)) && d.groupBarred g) = false :=
    List.any_eq_false.mpr fun g hg => by simp [h.2 g hg]
  rw [Dev.mrdTrap, g, Bool.or_false]
  refine d.trapFrom_nil [] _ fun x hx => ?_
  dsimp only [Dev.commits] at hx
  split at hx
  · simp only [List.mem_cons, List.mem_map, e, Dev.pendingWrites, h.1, List.map_nil, List.append_nil] at hx
    rcases hx with rfl | ⟨_, _, rfl⟩ <;> rfl
  · cases hx

/-- What time that goes on in front of a command answers: nothing of its own in reset or where no boundary on the way is unpredictable. -/
theorem passing_reset (now : Nat) (s : State) (k : Res) (h : s.dev.inReset = true) : passing now s k = k := by
  unfold passing predictable; simp [h]

theorem passing_eq (now : Nat) (s : State) (k : Res) (h : s.dev.mrdTrap now = false) : passing now s k = k := by
  unfold passing predictable; simp [h]

theorem passing_trap (now : Nat) (s : State) (k : Res) (r : s.dev.inReset = false) (h : s.dev.mrdTrap now = true) : passing now s k = .fault .unpredictable := by
  unfold passing predictable; simp [r, h]

theorem need_true (s : State) (k : Res) : need true s k = k := rfl
theorem need_false (s : State) (k : Res) : need false s k = .next s := rfl

/-- A command that names elements leaves the state as it is where one does not exist. -/
theorem need_next {ok : Bool} {s : State} {k : Res} {t : State} (h : need ok s k = .next t) : (ok = true ∧ k = .next t) ∨ (ok = false ∧ t = s) := by
  unfold need at h
  cases ok
  · cases h; exact .inr ⟨rfl, rfl⟩
  · exact .inl ⟨rfl, h⟩

/-- In reset nothing is unpredictable. -/
theorem predictable_reset (s : State) (bad : Dev → Fuses → Bool) (k : Res) (h : s.dev.inReset = true) : predictable s bad k = k := by
  unfold predictable; simp [h]

theorem predictable_good (s : State) (bad : Dev → Fuses → Bool) (k : Res) (h : bad s.dev s.fuse = false) : predictable s bad k = k := by
  unfold predictable; simp [h]

theorem predictable_next {s : State} {bad : Dev → Fuses → Bool} {k : Res} {t : State} (h : predictable s bad k = .next t) : k = .next t := by
  unfold predictable at h; split at h
  · cases h
  · exact h

/-- What a command that can blow fuses answers: the queue stays; in reset nothing happens; otherwise the effect's fuses and device. -/
theorem actFuse_next {s t : State} {f : Dev → Fuses → Dev × Fuses} (h : actFuse s f = .next t) :
    (s.dev.inReset = true ∧ t = s) ∨
      (s.dev.inReset = false ∧ t = { s with fuse := (f s.dev s.fuse).2, dev := (f s.dev s.fuse).1.settle (f s.dev s.fuse).2 }) := by
  unfold actFuse at h
  cases r : s.dev.inReset <;> simp only [r, if_true, Bool.false_eq_true, if_false] at h <;> cases h
  · exact .inr ⟨rfl, rfl⟩
  · exact .inl ⟨rfl, rfl⟩

/-! The same in the form of the statements: one lemma for each way, to be composed as a command's definition composes them. -/

theorem act_next (s : State) (f : Dev → Fuses → Dev) (h : s.dev.inReset = false) : act s f = .next (s.after (f s.dev s.fuse)) := by
  rw [act_eq, State.effect_run s f h]; rfl

theorem timed_next (now : Nat) (s : State) (f : Dev → Fuses → Dev) (h : s.dev.inReset = false) (m : s.dev.mrdTrap now = false) :
    timed now s f = .next (s.after (f (s.dev.advance now) s.fuse)) := by
  unfold timed; rw [passing_eq now s _ m]; exact act_next s _ h

/-- In reset a command that has a time does nothing. -/
theorem timed_reset (now : Nat) (s : State) (f : Dev → Fuses → Dev) (h : s.dev.inReset = true) : timed now s f = .next s := by
  unfold timed; rw [passing_reset now s _ h, act_eq, State.effect_reset s _ h]

/-- Where a boundary on the way is unpredictable it stops. -/
theorem timed_trap (now : Nat) (s : State) (f : Dev → Fuses → Dev) (h : s.dev.inReset = false) (m : s.dev.mrdTrap now = true) :
    timed now s f = .fault .unpredictable := passing_trap now s _ h m

theorem always_next (now : Nat) (s : State) (f : Dev → Fuses → Dev) (h : s.dev.inReset = true ∨ s.dev.mrdTrap now = false) :
    always now s f = .next (s.after (f (s.dev.runOn now) s.fuse)) := by
  unfold always
  rcases h with r | m
  · exact passing_reset now s _ r
  · exact passing_eq now s _ m

theorem actFuse_run (s : State) (f : Dev → Fuses → Dev × Fuses) (h : s.dev.inReset = false) :
    actFuse s f = .next { s with fuse := (f s.dev s.fuse).2, dev := (f s.dev s.fuse).1.settle (f s.dev s.fuse).2 } := by
  unfold actFuse; simp [h]

theorem need_eq {ok : Bool} {s : State} {k r : Res} (h : ok = true) (e : k = r) : need ok s k = r := by rw [h, need_true, e]

theorem predictable_eq {s : State} {bad : Dev → Fuses → Bool} {k r : Res} (h : bad s.dev s.fuse = false) (e : k = r) : predictable s bad k = r := by
  rw [predictable_good s bad k h, e]

/-- A command that is not one of a fuse keeps the fuses and the queue. -/
theorem act_fuse {s t : State} {f : Dev → Fuses → Dev} (h : act s f = .next t) : t.fuse = s.fuse ∧ t.pending = s.pending := by
  rw [act_eq] at h; cases h; simp

@[simp] theorem State.after_fuse (s : State) (d : Dev) : (s.after d).fuse = s.fuse := rfl
@[simp] theorem State.after_pending (s : State) (d : Dev) : (s.after d).pending = s.pending := rfl
@[simp] theorem State.after_dev (s : State) (d : Dev) : (s.after d).dev = d.settle s.fuse := rfl

end Sys2Proof.Machine
end

