-- ==== Sys2Proof/Laws/Commands.lean ====
section
/-! SUPPORT. What the operations shared by whole families of commands can do: beginning an operation of the UCP (`Dev.runCmd`), issuing an instruction of a vat's
sequencer (`Dev.issue`), replies, and time that passes. -/
namespace Sys2Proof.Machine
namespace Dev

/-! `runCmd`: a command that may not begin does nothing; one that is refused replies so; any other is carried out. -/

theorem runCmd_waits (d : Dev) (u : Fuses) (n seq op : Nat) (b : List Byte) (f : Dev → Dev) (h : d.mayBegin n seq op b = false) :
    d.runCmd u n seq op b f = d := by
  unfold runCmd; simp [h]

theorem runCmd_refused (d : Dev) (u : Fuses) (n seq op st det : Nat) (b : List Byte) (f : Dev → Dev) (h : d.mayBegin n seq op b = true)
    (g : d.gate u n op b = some (st, det)) : d.runCmd u n seq op b f = (d.begin' n seq op b).reply n seq op st det [] := by
  unfold runCmd; simp [h, g]

theorem runCmd_runs (d : Dev) (u : Fuses) (n seq op : Nat) (b : List Byte) (f : Dev → Dev) (h : d.cmdRuns u n seq op b = true) :
    d.runCmd u n seq op b f = f (d.begin' n seq op b) := by
  unfold cmdRuns at h
  rw [Bool.and_eq_true, Option.isNone_iff_eq_none] at h
  unfold runCmd; simp [h.1, h.2]

theorem gate_privilege (d : Dev) (u : Fuses) (n op p : Nat) (b : List Byte) (h : opPriv op b = some p) (l : (d.sessAt n).priv < p) :
    d.gate u n op b = some (3, 2) := by
  unfold gate; simp [h, l]

theorem cmdRuns_refused (d : Dev) (u : Fuses) (n seq op : Nat) (b : List Byte) {r : Nat × Nat} (g : d.gate u n op b = some r) :
    d.cmdRuns u n seq op b = false := by
  unfold cmdRuns; simp [g]

/-! `issue`: nothing without a running handler; a fault for a word that cannot be read or is no instruction; otherwise the instruction's own effect. -/

theorem issue_idle (d : Dev) (lv opc : Nat) (ecc : Bool) (act : Dev → Run → Ctx → Nat → SeqRes) (h : d.runOf lv = none) :
    d.issue lv opc ecc act = d := by
  unfold issue; simp [h]

theorem issue_runs (d : Dev) (lv opc : Nat) (act : Dev → Run → Ctx → Nat → SeqRes) {r : Run} {c : Ctx} (hr : d.runOf lv = some r)
    (hc : d.ctxAt lv r.slot = some c) (hb : r.cyc < d.budgetOf c) (hl : iLegal (d.imemAt r.pc) = true) (ho : iOp (d.imemAt r.pc) = opc) :
    d.issue lv opc false act = (match act d r c (d.imemAt r.pc) with
      | .go d r => d.putRun r
      | .done d => d
      | .bad cause => d.recipeFault r c cause) := by
  unfold issue
  cases h : act d r c (d.imemAt r.pc) <;> simp [hr, hc, Nat.not_le.mpr hb, hl, ho, h]

theorem issue_unreadable (d : Dev) (lv opc : Nat) (act : Dev → Run → Ctx → Nat → SeqRes) {r : Run} {c : Ctx} (hr : d.runOf lv = some r)
    (hc : d.ctxAt lv r.slot = some c) (hb : r.cyc < d.budgetOf c) : d.issue lv opc true act = d.recipeFault r c 7 := by
  unfold issue
  simp [hr, hc, Nat.not_le.mpr hb]

theorem issue_illegal (d : Dev) (lv opc : Nat) (act : Dev → Run → Ctx → Nat → SeqRes) {r : Run} {c : Ctx} (hr : d.runOf lv = some r)
    (hc : d.ctxAt lv r.slot = some c) (hb : r.cyc < d.budgetOf c) (hl : iLegal (d.imemAt r.pc) = false) :
    d.issue lv opc false act = d.recipeFault r c 1 := by
  unfold issue
  simp [hr, hc, Nat.not_le.mpr hb, hl]

/-! Replies go to open sessions alone. -/

theorem reply_closed (d : Dev) (n seq op st det : Nat) (b : List Byte) (h : (d.sessAt n).state ≠ 2) : d.reply n seq op st det b = d := by
  unfold reply; simp [h]

/-! Counting changes no register, and leaves everything beside the counters alone. -/

theorem incBy_csr (d : Dev) (a n : Nat) : ∃ m, d.incBy a n = { d with csr := { d.csr with ctrs := m } } := by
  unfold incBy
  split
  · exact ⟨d.csr.ctrs, rfl⟩
  · exact ⟨_, rfl⟩

end Dev
end Sys2Proof.Machine
end

