-- ==== Sys2Proof/Tests/Slice0.lean ====
section
/-! SUPPORT. Tests of the model: a smoke test of WellFormed, values that the worked examples of spec/ give, single steps, and for every statement with hypotheses a state and
operands that meet them. -/
namespace Sys2Proof.Tests
open Machine Machine.Dev

set_option maxRecDepth 20000
set_option Elab.async false

/-! States. -/

/-- A device out of reset, in Umber, as a boot leaves it. -/
def asleep : Dev := { power := { resetLow := false, pwrGood := true } }

/-- A device whose gated blocks run. -/
def dev : Dev := asleep.setPw 0

def run : State := { dev := dev }

/-- The same after the power-on self-test. -/
def tested : Dev := { dev with power := { dev.power with first := false } }

/-- The same with some registers set. -/
def withRegs (l : List (Nat × Nat)) : State := { dev := l.foldl (fun d x => d.setNum x.1 x.2) dev }

/-- A device whose gated blocks run, with one register set. -/
def awake (a v : Nat) : State := { dev := (dev.setPw 0).setNum a v }

/-- A device held in reset. -/
def held : State := { dev := { dev with power := { resetLow := true } } }

/-- A device with an open session in slot 0 of a privilege, owned. -/
def session (priv : Nat) (m : Mgmt) : State :=
  { fuse := { owned := true }, dev := { dev with mgmt := { m with ready := true, sess := [{ state := 2, priv := priv, next := 7 }] } } }

/-- A handler of logical vat 1,535 running at instruction address 0x800, where `w` stands. -/
def handler (w : Nat) : State :=
  let c : Ctx := { lv := 1535, slot := 63, stream := 1, chunk := 2, group := 0, part := 0, recipe := 0x80 }
  let r : Run := { lv := 1535, slot := 63, kind := .init, arr := 4, pc := 0x800, g := List.replicate 16 0, cyc := 0, startLc := 0, entryNs := 0,
                   code := 0, h := {}, pay := [], count := 0 }
  { dev := { dev with vat := { ctxs := [c], runs := [r], imem := [(0x800, w)],
                               rcps := [⟨0x80, false, 0x800, 0x800, 0x800, 8, 0, 0, 0, 100⟩] } } }

def runRegs : Run := { lv := 1535, slot := 63, kind := .init, arr := 4, pc := 0x800, g := List.replicate 16 0, cyc := 0, startLc := 0, entryNs := 0,
                       code := 0, h := {}, pay := [], count := 0 }

/-! Values that spec/ gives. -/

/-- Headroom of a port (spec/04_switch_core.md, the table under R157). -/
theorem test_headroom : headroomOf 120 2 = 277 ∧ headroomOf 120 60 = 549 ∧ headroomOf 120 150 = 971 ∧ 2 * headroomOf 60 100 = 770 := by decide +kernel

/-- Register addresses (spec/14_control_protocol.md, under R499). -/
theorem test_addresses : R.QCTRL_XS 16 = 0x02009000 ∧ R.FW_EPOCH 9 = 0x19001000 := by decide

/-- ADDI G5, G5, 1 (spec/09_vat_programming.md R322). -/
theorem test_addiWord : let w := 0x2055000000000001; iOp w = 0x20 ∧ iRd w = 5 ∧ iRa w = 5 ∧ iRb w = 0 ∧ iImm w = 1 ∧ iLegal w = true := by decide +kernel

/-- The beat boundary of spec/00_scope.md R21: fabric time 1 s + 1,536 ns is the boundary of beat 488,282. -/
theorem test_beatUnits : 488282 * beatUnits = 1000001536 * 65536 := by decide +kernel

/-- The header of the worked example of spec/02_fabric_protocol.md. -/
def exampleHdr : Hdr :=
  { version := 1, vc := 1, epoch := 2, x := true, part := 0x02A, hop := 1, dest := 0x3F801, plen := 2048, src := 0x01234, kind := 0x12, stream := 0x05A01,
    chunk := 305, anchor := 0x3EC, ofmt := 2, rank := 77 }

theorem test_headerWords : (hdrOut exampleHdr).take 30 =
    [0x13, 0x01, 0x02, 0xA1, 0xFE, 0x00, 0x48, 0x00, 0x04, 0x8D, 0x00, 0x12, 0x16, 0x80, 0x40, 0x00, 0x00, 0x01, 0x31, 0x00,
     0, 0, 0, 0, 0, 0, 0, 0, 0, 0] ∧
    (hdrOut exampleHdr).drop 32 = [0, 0, 0, 0, 0x00, 0x03, 0xEC, 0x10, 0x00, 0x13, 0x40, 0x00, 0, 0, 0, 0] := by decide +kernel

/-- Largest finite values and overflow (spec/08_vat_arithmetic.md, the table of R263). -/
theorem test_largest : roundFloat 3 false 65504 0 = (0x7BFF, false) ∧ roundFloat 4 true 448 0 = (0xFE, false) ∧ roundFloat 5 false 57344 0 = (0x7B, false) ∧
    roundFloat 3 false 65520 0 = (0x7C00, true) := by decide +kernel

/-- The worked example of spec/08_vat_arithmetic.md: five bf16 members in two orders. -/
def sumCtx : Ctx :=
  { lv := 0, slot := 0, stream := 0x101, chunk := 0, group := 0, part := 0, recipe := 1, inKind := 0x12, elems := 2, outFmt := 2, anchor := -2 }

def member (a b c d : Byte) : Hdr × List Byte := ({ kind := 0x12, anchor := 0x3FE }, [a, b, c, d])

def members : List (Hdr × List Byte) :=
  [member 0x4B 0x80 0x3E 0xC0, member 0x3F 0x80 0x3E 0x00, member 0x3F 0x80 0xBE 0x80, member 0x3F 0x80 0x3E 0x9A, member 0xCB 0x80 0x3F 0x80]

theorem test_sumEitherOrder : finalOut (addAll sumCtx members) = ([0x40, 0x40, 0x3F, 0xC0], 0) ∧
    finalOut (addAll sumCtx [members[4], members[1], members[0], members[2], members[3]]) = ([0x40, 0x40, 0x3F, 0xC0], 0) := by decide +kernel

/-- The same under FASTFLOAT depends on the order (R302). -/
theorem test_fastFloat : let c := { sumCtx with recipe := 0x0D }
    (finalOut (addAll c members)).1 = [0x00, 0x00, 0x3F, 0xC6] ∧
    (finalOut (addAll c [members[4], members[1], members[0], members[2], members[3]])).1 = [0x40, 0x40, 0x3F, 0xC6] := by decide +kernel

/-! Single steps. -/

/-- A table without bits spells no command. -/
theorem test_noWords : decodeTableWord 32 5 = none ∧ run.withFetchWord 32 5 = run := by decide +kernel

theorem test_frontCommand : step { run with pending := [.feature 3 1023 2] } = exec (.feature 3 1023 2) run := rfl

/-- EN of YZ_CTRL written to one starts training with LIGHT (spec/11_optical_links.md R389). -/
theorem test_enableTrains : (match exec (.linkEnable 5 100) run with | .next t => t.dev.linkState 200 | _ => 9) = 1 := by decide +kernel

/-- In Umber the link block is out of reach (spec/16_power_umber.md R558). -/
theorem test_outOfReach : (match exec (.linkEnable 5 100) { dev := asleep } with | .next t => t == { dev := asleep } | _ => false) = true := by decide +kernel

/-- A write to an RW word takes effect at once; one to an RWB field at the boundary (spec/00_scope.md R15, R17). -/
theorem test_registerWrite : (match exec (.registerWrite (R.TW_DATA 3 35) 0x12345678) run with | .next t => t.dev.reg (R.TW_DATA 3 35) | _ => 0) = 0x12345678 := by
  decide +kernel

/-- An address that is no word's is not written (spec/14_control_protocol.md R498), and a port that does not exist does nothing. -/
theorem test_notAWord : (match exec (.registerWrite 2 5) run with | .next t => t == run | _ => false) = true ∧
    (match exec (.feature 3 1024 2) run with | .next t => t == run | _ => false) = true := by
  decide +kernel

/-- A reserved bit written with one is unpredictable (R13). -/
theorem test_reservedBit : (match exec (.registerWrite (R.TW_INDEX 0) 0xFFFFFFFF) run with | .fault .unpredictable => true | _ => false) = true := by decide +kernel

/-- Fabric time in a device that was never set: 10 counts are 8 ns (spec/13_time.md R438). -/
theorem test_idleCounts : (match step run with | .next t => t.dev.lc | _ => 9) = 1 ∧ fabAt dev 10 = 8 * 65536 := by decide +kernel

/-- OUT in mode FP32 into int32: an integer in range as it is, others to the nearest, the even one of two (spec/09_vat_programming.md R327). -/
theorem test_fp32Integer : fp32Into 9 0 0x40400000 = (3, false) ∧ fp32Into 9 0 0xC0200000 = (2 ^ 32 - 2, false) := by decide +kernel

/-- Counters stand still in Umber (spec/18_telemetry.md R602). -/
theorem test_umberCounts : (asleep.inc R.UCP_BAD_FRAME).ctr R.UCP_BAD_FRAME = 0 ∧ (dev.inc R.UCP_BAD_FRAME).ctr R.UCP_BAD_FRAME = 1 := by decide +kernel

/-- The selector copy with the higher sequence number is used, and slot A, not in trial, where neither is good (spec/17_boot_security.md R577). -/
theorem test_selector :
    ({ mgmt := { sel := [{ slot := 1, trial := true, seq := 5 }, { slot := 0, seq := 4 }] } } : Dev).selected = { slot := 1, trial := true, seq := 5 } ∧
    ({ mgmt := { sel := [{ slot := 1, trial := true, good := false }, { slot := 1, good := false }] } } : Dev).selected = { slot := 0, trial := false, good := false } := by
  decide +kernel

/-- PORT_A and PORT_B are RW: a write changes them while EN is one too (spec/00_scope.md R15). -/
theorem test_pairPorts : (match exec (.registerWrite (R.IND_PAIR 3) (2 ^ 31 + 7 * 2 ^ 9 + 6)) { dev := dev.setFld (R.IND_PAIR 3) F.IND_PAIR_EN 1 } with
    | .next t => (t.dev.fld (R.IND_PAIR 3) F.IND_PAIR_PORT_A, t.dev.fld (R.IND_PAIR 3) F.IND_PAIR_PORT_B) | _ => (0, 0)) = (6, 7) := by decide +kernel

/-! WellFormed: commands at the bounds of their operands, and for each check one just beyond them. -/

theorem test_wellFormed_clock :
  ([.quiesceRequest 0 (.port 511), .quiesceRequest 0 (.pl 15), .quiesceRequest 0 (.vb 15), .quiesceRequest 0 (.xs 16),
    .quiesceRequest 0 .lake, .quiesceRequest 0 (.oe 31), .quiesceRequest 0 .tu, .quiesceRequest 0 (.ch 63), .quiesceRequest 0 .mp,
    .quiesceRelease 0 .mp, .quiesceDrained 0 .mp, .forcedQuiesce 0 .mp, .mrdStage 0 0x01004000 0xFFFFFFFF, .mrdStage 0 0x010120F8 0,
    .mrdClear 0 3 0, .mrdCancel 0 3 0] : List Instr).all (·.wellFormed) = true ∧
  ([.mrdArm 0 3 0 true, .retireNow 0 15, .prevBankRetire 0 15] : List Instr).all (·.wellFormed) = true := by decide +kernel

theorem test_illFormed_clock :
  ([.quiesceRequest 0 (.port 512), .quiesceRequest 0 (.pl 16), .quiesceRequest 0 (.vb 16), .quiesceRequest 0 (.xs 17),
    .quiesceRequest 0 (.oe 32), .quiesceRequest 0 (.ch 64), .quiesceRelease 0 (.xs 17), .quiesceDrained 0 (.ch 64),
    .forcedQuiesce 0 (.vb 16), .mrdStage 0 0x01004002 0, .mrdStage 0 0x01004004 0, .mrdStage 0 0x01014000 0, .mrdStage 0 0x0100410C 0,
    .mrdClear 0 4 0, .mrdCancel 0 4 0, .mrdArm 0 4 0 true] : List Instr).any (·.wellFormed) = false ∧
  ([.retireNow 0 16, .prevBankRetire 0 16] : List Instr).any (·.wellFormed) = false := by decide +kernel

theorem test_wellFormed_packet :
  ([.packetHeaderArrival 0 1023 [] true none, .payloadEnd 0 1023 [] [] true, .emLearnApply 0 15 [],
    .emAgeOut 0 4095 [1, 2, 3, 4, 5, 6] [], .crossbarSlot 0 [15] [{ slice := 16, unit := 31, cell := 11, bits := 2 }],
    .sliceHardFault 0 16, .egressChoose 0 1023, .launchTimeReached 0 1023 7, .transmitComplete 0 1023 none, .gclGo 0 1023 0 0,
    .gclCancel 0 1023 0 0, .gateIntervalExpiry 0 1023] : List Instr).all (·.wellFormed) = true := by decide +kernel

theorem test_illFormed_packet :
  ([.packetHeaderArrival 0 1024 [] true none, .payloadEnd 0 1024 [] [] true, .emLearnApply 0 16 [],
    .emAgeOut 0 4096 [1, 2, 3, 4, 5, 6] [], .emAgeOut 0 0 [1] [], .crossbarSlot 0 [16] [],
    .crossbarSlot 0 [] [{ slice := 17, unit := 31, cell := 0, bits := 2 }],
    .crossbarSlot 0 [] [{ slice := 16, unit := 32, cell := 0, bits := 2 }],
    .crossbarSlot 0 [] [{ slice := 16, unit := 31, cell := 12, bits := 2 }], .sliceHardFault 0 17, .egressChoose 0 1024,
    .launchTimeReached 0 1024 7, .launchTimeReached 0 1023 8, .transmitComplete 0 1024 none, .gclGo 0 1024 0 0, .gclCancel 0 1024 0 0] : List Instr).any (·.wellFormed) = false ∧
  ([.gateIntervalExpiry 0 1024] : List Instr).any (·.wellFormed) = false := by decide +kernel

theorem test_wellFormed_collective :
  ([.resultAdmit 0 15 none, .contributionAccept 0 15 none, .vatContribution 0 1535 none, .handlerStep 0 1535,
    .handlerFinal 0 1535 63 none, .arrayOpComplete 0 1535 3 none none, .chunkTimeout 0 1535 63 none none,
    .recordEntryExpire 0 1535 0 0, .launchAckAccept 0 15 none, .launchTimeout 0 15 0 0 none, .launchSlotFree 0 15 0 0,
    .ceAbortGo 0 4095, .twRead 0 15 0 0, .twWrite 0 15 0 0, .twInvalidate 0 15 0 0, .twBankCopy 0 15 0 0] : List Instr).all (·.wellFormed) = true ∧
  ([.twEmInsert 0 15, .twEmDelete 0 15, .twEmFind 0 15, .twEmFlush 0 15, .tableWindowComplete 0 15 true []] : List Instr).all (·.wellFormed) = true := by decide +kernel

theorem test_illFormed_collective :
  ([.resultAdmit 0 16 none, .contributionAccept 0 16 none, .vatContribution 0 1536 none, .handlerStep 0 1536,
    .handlerFinal 0 1536 63 none, .handlerFinal 0 1535 64 none, .arrayOpComplete 0 1536 3 none none,
    .arrayOpComplete 0 1535 4 none none, .chunkTimeout 0 1536 63 none none, .chunkTimeout 0 1535 64 none none,
    .recordEntryExpire 0 1536 0 0, .launchAckAccept 0 16 none, .launchTimeout 0 16 0 0 none, .launchSlotFree 0 16 0 0,
    .ceAbortGo 0 4096, .twRead 0 16 0 0] : List Instr).any (·.wellFormed) = false ∧
  ([.twWrite 0 16 0 0, .twInvalidate 0 16 0 0, .twBankCopy 0 16 0 0, .twEmInsert 0 16, .twEmDelete 0 16, .twEmFind 0 16,
    .twEmFlush 0 16, .tableWindowComplete 0 16 true []] : List Instr).any (·.wellFormed) = false := by decide +kernel

theorem test_wellFormed_sequencer :
  ([.seqNop 1535 true none, .seqDone 1535 true none, .seqSetf 1535 true none, .seqLi 1535 true none, .seqLui 1535 true none,
    .seqAdd 1535 true none, .seqSub 1535 true none, .seqAnd 1535 true none, .seqOr 1535 true none, .seqXor 1535 true none,
    .seqShl 1535 true none, .seqShr 1535 true none, .seqSar 1535 true none, .seqMul 1535 true none, .seqMax 1535 true none,
    .seqMin 1535 true none] : List Instr).all (·.wellFormed) = true ∧
  ([.seqAddi 1535 true none, .seqSubi 1535 true none, .seqAndi 1535 true none, .seqOri 1535 true none, .seqXori 1535 true none,
    .seqShli 1535 true none, .seqShri 1535 true none, .seqSari 1535 true none, .seqMuli 1535 true none, .seqMaxi 1535 true none,
    .seqMini 1535 true none, .seqGets 1535 true none, .seqLdw 1535 true none, .seqStw 1535 true none, .seqBra 1535 true none,
    .seqBeq 1535 true none] : List Instr).all (·.wellFormed) = true ∧
  ([.seqBne 1535 true none, .seqBlt 1535 true none, .seqBge 1535 true none, .seqAop 1535 true none, .seqWait 1535 true none,
    .seqOut 1535 true none, .seqSend 1535 true none, .seqRecv 1535 true none, .recipeBudgetExpire 0 1535 none,
    .messageDeliver 0 1535 1535, .messageExpire 0 1535] : List Instr).all (·.wellFormed) = true := by decide +kernel

theorem test_illFormed_sequencer :
  ([.seqNop 1536 true none, .seqDone 1536 true none, .seqSetf 1536 true none, .seqLi 1536 true none, .seqLui 1536 true none,
    .seqAdd 1536 true none, .seqSub 1536 true none, .seqAnd 1536 true none, .seqOr 1536 true none, .seqXor 1536 true none,
    .seqShl 1536 true none, .seqShr 1536 true none, .seqSar 1536 true none, .seqMul 1536 true none, .seqMax 1536 true none,
    .seqMin 1536 true none] : List Instr).any (·.wellFormed) = false ∧
  ([.seqAddi 1536 true none, .seqSubi 1536 true none, .seqAndi 1536 true none, .seqOri 1536 true none, .seqXori 1536 true none,
    .seqShli 1536 true none, .seqShri 1536 true none, .seqSari 1536 true none, .seqMuli 1536 true none, .seqMaxi 1536 true none,
    .seqMini 1536 true none, .seqGets 1536 true none, .seqLdw 1536 true none, .seqStw 1536 true none, .seqBra 1536 true none,
    .seqBeq 1536 true none] : List Instr).any (·.wellFormed) = false ∧
  ([.seqBne 1536 true none, .seqBlt 1536 true none, .seqBge 1536 true none, .seqAop 1536 true none, .seqWait 1536 true none,
    .seqOut 1536 true none, .seqSend 1536 true none, .seqRecv 1536 true none, .recipeBudgetExpire 0 1536 none,
    .messageDeliver 0 1536 1535, .messageDeliver 0 1535 1536, .messageExpire 0 1536] : List Instr).any (·.wellFormed) = false := by decide +kernel

theorem test_wellFormed_link :
  ([.rowReceive 0 1023 [] [], .lcsSend 0 1023 [] [], .lcsReceive 0 1023 0 0, .lcsTimeoutXoff 0 1023, .lcsTimeoutDown 0 1023,
    .train 0 1023 0 0 true 0 0, .echoReq 0 1023 0, .echoResp 0 1023 0 0, .feature 0 1023 0, .move 0 1023 0 0 0 0,
    .moveAck 0 1023 0 0 0, .restore 0 1023 0 0 0 0, .restoreAck 0 1023 0 0 0, .narrow 0 1023 0 0 0 0, .narrowAck 0 1023 0 0 0,
    .refuse 0 1023 0 0 0] : List Instr).all (·.wellFormed) = true ∧
  ([.laneRequest 0 1023 1 0 0 0 0, .laneRequest 0 1023 3 0 0 0 0, .laneRequest 0 1023 5 0 0 0 0, .down 0 1023,
    .laneEffectRow 0 1023 true, .laneAckTimeout 0 1023, .laneLost 0 511 8 true 3, .holdoffExpire 0 1023, .linkEnable 0 511,
    .linkDisable 0 511, .lightExit 0 1023, .trainingCodeword 0 1023 8 [], .trainingTimeout 0 1023, .indigoEnable 0 255 511 511,
    .indigoDisable 0 255, .indigoActive 0 255] : List Instr).all (·.wellFormed) = true ∧
  ([.indigoCodewordPass 0 255 true 8 [] [] []] : List Instr).all (·.wellFormed) = true := by decide +kernel

theorem test_illFormed_link :
  ([.rowReceive 0 1024 [] [], .lcsSend 0 1024 [] [], .lcsReceive 0 1024 0 0, .lcsTimeoutXoff 0 1024, .lcsTimeoutDown 0 1024,
    .train 0 1024 0 0 true 0 0, .echoReq 0 1024 0, .echoResp 0 1024 0 0, .feature 0 1024 0, .move 0 1024 0 0 0 0,
    .moveAck 0 1024 0 0 0, .restore 0 1024 0 0 0 0, .restoreAck 0 1024 0 0 0, .narrow 0 1024 0 0 0 0, .narrowAck 0 1024 0 0 0,
    .refuse 0 1024 0 0 0] : List Instr).any (·.wellFormed) = false ∧
  ([.laneRequest 0 1023 2 0 0 0 0, .laneRequest 0 1024 1 0 0 0 0, .down 0 1024, .laneEffectRow 0 1024 true, .laneAckTimeout 0 1024,
    .laneLost 0 512 8 true 3, .laneLost 0 511 9 true 3, .laneLost 0 511 8 true 4, .holdoffExpire 0 1024, .linkEnable 0 512,
    .linkDisable 0 512, .lightExit 0 1024, .trainingCodeword 0 1024 8 [], .trainingCodeword 0 1023 9 [], .trainingTimeout 0 1024,
    .indigoEnable 0 256 511 511] : List Instr).any (·.wellFormed) = false ∧
  ([.indigoEnable 0 255 512 511, .indigoEnable 0 255 511 512, .indigoDisable 0 256, .indigoActive 0 256,
    .indigoCodewordPass 0 256 true 8 [] [] [], .indigoCodewordPass 0 255 true 9 [] [] []] : List Instr).any (·.wellFormed) = false := by decide +kernel

theorem test_wellFormed_optical :
  ([.lightArrival 0 511 8, .identityRead 0 511 8 true [], .identityTimeout 0 511 8 true, .relockAttemptEnd 0 511 8 true [],
    .marginEval 0 [] [(15, 0)], .calVisitStart 0 511 8, .slotEnable 0 15 true, .moduleInserted 0 15, .moduleRemoved 0 15,
    .laserReady 0 15 []] : List Instr).all (·.wellFormed) = true := by decide +kernel

theorem test_illFormed_optical :
  ([.lightArrival 0 512 8, .lightArrival 0 511 9, .identityRead 0 512 8 true [], .identityRead 0 511 9 true [],
    .identityTimeout 0 512 8 true, .identityTimeout 0 511 9 true, .relockAttemptEnd 0 512 8 true [], .relockAttemptEnd 0 511 9 true [],
    .marginEval 0 [] [(16, 0)], .marginEval 0 [⟨512, 0, 0, 0⟩] [], .marginEval 0 [⟨0, 9, 0, 0⟩] [], .calVisitStart 0 512 8,
    .calVisitStart 0 511 9, .slotEnable 0 16 true, .moduleInserted 0 16, .moduleRemoved 0 16] : List Instr).any (·.wellFormed) = false ∧
  ([.laserReady 0 16 []] : List Instr).any (·.wellFormed) = false := by decide +kernel

theorem test_wellFormed_time :
  ([.time 0 1023 0 0 true 0 0 0, .timeAnnounceReceive 0 1023 [], .tpoGo 0 3 0 0, .tpoCtrlCancel 0 3 0 0, .tpoPulse 0 3,
    .tpoPulseEnd 0 3] : List Instr).all (·.wellFormed) = true := by decide +kernel

theorem test_illFormed_time :
  ([.time 0 1024 0 0 true 0 0 0, .timeAnnounceReceive 0 1024 [], .tpoGo 0 4 0 0, .tpoCtrlCancel 0 4 0 0, .tpoPulse 0 4,
    .tpoPulseEnd 0 4] : List Instr).any (·.wellFormed) = false := by decide +kernel

theorem test_wellFormed_control :
  ([.neighborSolicitation 0 [1, 2, 3, 4, 5, 6] [], .echoRequest 0 [1, 2, 3, 4, 5, 6] [], .hello 0 { kind := 2 } [],
    .finish 0 { kind := 2 } [], .helloTimeout 0 7, .command 0 { kind := 2 } [], .eventAck 0 { kind := 2 } [], .eventResend 0 7,
    .sessionIdleTimeout 0 7, .deviceInfo 7 0 [], .sessionClose 7 0 [], .sessionFlush 7 0 [], .sessionHistory 7 0 [],
    .eventSubscribe 7 0 [], .nopCommand 7 0 [], .csrRead 7 0 [] []] : List Instr).all (·.wellFormed) = true ∧
  ([.csrWrite 7 0 [], .csrRmw 7 0 [] [], .csrPoll 7 0 [] [], .csrPollTimeout 0 7 [], .tblRead 7 0 [], .tblWrite 7 0 [],
    .tblInvalidate 7 0 [], .bankCopy 7 0 [], .emInsert 7 0 [], .emDelete 7 0 [], .emFind 7 0 [], .emFlush 7 0 [], .tblWriteAll 7 0 [],
    .ceRead 7 0 [], .ceWrite 7 0 [], .ceInvalidate 7 0 []] : List Instr).all (·.wellFormed) = true ∧
  ([.partitionAbort 7 0 [], .ceStatus 7 0 [], .portStatus 7 0 [], .portEnable 7 0 [], .portQuiesce 7 0 [], .indigoSet 7 0 [],
    .laneStatus 7 0 [], .slotCtrl 7 0 [], .timeStatus 7 0 [], .tpoArm 7 0 [], .tpoCancel 7 0 [], .portHold 7 0 [0xFFFFFFFF],
    .laserService 7 0 [0xFFFFFFFF], .oeSelftest 7 0 [0xFFFFFFFF], .vatRetire 7 0 [0xFFFFFFFF], .sliceSwap 7 0 [0xFFFFFFFF]] : List Instr).all (·.wellFormed) = true ∧
  ([.ddrRetire 7 0 [0xFFFFFFFF], .bankSelftest 7 0 [0xFFFFFFFF], .maintStop 7 0 [], .maintStatus 7 0 [], .errRead 7 0 [],
    .errAck 7 0 [], .fwStatus 7 0 [], .imgBegin 7 0 [], .imgData 7 0 [], .firmwareImageCommit 7 0, .recipeLoad 7 0,
    .fwActivate 7 0 [] [], .getCerts 7 0 [], .attest 7 0 [], .credRead 7 0 [], .credWrite 7 0 []] : List Instr).all (·.wellFormed) = true ∧
  ([.svnCommitFirmware 7 0, .svnCommitRecipe 7 0, .ctrSnapshot 7 0 [], .telemSubscribe 7 0 [], .flightRead 7 0 [] [],
    .powerStatus 7 0 [], .thermalStatus 7 0 [], .umberEnter 7 0 []] : List Instr).all (·.wellFormed) = true := by decide +kernel

theorem test_illFormed_control :
  ([.neighborSolicitation 0 [1] [], .echoRequest 0 [1] [], .hello 0 { kind := 3 } [], .finish 0 { kind := 3 } [], .helloTimeout 0 8,
    .command 0 { kind := 3 } [], .eventAck 0 { kind := 3 } [], .eventResend 0 8, .sessionIdleTimeout 0 8, .deviceInfo 8 0 [],
    .sessionClose 8 0 [], .sessionFlush 8 0 [], .sessionHistory 8 0 [], .eventSubscribe 8 0 [], .nopCommand 8 0 [], .csrRead 8 0 [] []] : List Instr).any (·.wellFormed) = false ∧
  ([.csrWrite 8 0 [], .csrRmw 8 0 [] [], .csrPoll 8 0 [] [], .csrPollTimeout 0 8 [], .tblRead 8 0 [], .tblWrite 8 0 [],
    .tblInvalidate 8 0 [], .bankCopy 8 0 [], .emInsert 8 0 [], .emDelete 8 0 [], .emFind 8 0 [], .emFlush 8 0 [], .tblWriteAll 8 0 [],
    .ceRead 8 0 [], .ceWrite 8 0 [], .ceInvalidate 8 0 []] : List Instr).any (·.wellFormed) = false ∧
  ([.partitionAbort 8 0 [], .ceStatus 8 0 [], .portStatus 8 0 [], .portEnable 8 0 [], .portQuiesce 8 0 [], .indigoSet 8 0 [],
    .laneStatus 8 0 [], .slotCtrl 8 0 [], .timeStatus 8 0 [], .tpoArm 8 0 [], .tpoCancel 8 0 [], .portHold 7 0 [0x100000000],
    .portHold 8 0 [], .portHold 7 0 (List.replicate 65536 0), .laserService 7 0 [0x100000000], .laserService 8 0 []] : List Instr).any (·.wellFormed) = false ∧
  ([.oeSelftest 7 0 [0x100000000], .oeSelftest 8 0 [], .vatRetire 7 0 [0x100000000], .vatRetire 8 0 [], .sliceSwap 7 0 [0x100000000],
    .sliceSwap 8 0 [], .ddrRetire 7 0 [0x100000000], .ddrRetire 8 0 [], .bankSelftest 7 0 [0x100000000], .bankSelftest 8 0 [],
    .maintStop 8 0 [], .maintStatus 8 0 [], .errRead 8 0 [], .errAck 8 0 [], .fwStatus 8 0 [], .imgBegin 8 0 []] : List Instr).any (·.wellFormed) = false ∧
  ([.imgData 8 0 [], .firmwareImageCommit 8 0, .recipeLoad 8 0, .fwActivate 8 0 [] [], .getCerts 8 0 [], .attest 8 0 [],
    .credRead 8 0 [], .credWrite 8 0 [], .svnCommitFirmware 8 0, .svnCommitRecipe 8 0, .ctrSnapshot 8 0 [], .telemSubscribe 8 0 [],
    .flightRead 8 0 [] [], .powerStatus 8 0 [], .thermalStatus 8 0 [], .umberEnter 8 0 []] : List Instr).any (·.wellFormed) = false := by decide +kernel

theorem test_wellFormed_fault :
  ([.erAck 0 63, .vatHardFault 0 1599 0 none, .vatDrainEnd 0 1599 none, .vatSpareTestEnd 0 1599 true, .segmentMoveComplete 0 63 true,
    .pmClear 0 .ddr, .patrolScrub 0 63 0 (List.replicate 36 255) true, .railLeavesTolerance 0 7] : List Instr).all (·.wellFormed) = true := by decide +kernel

theorem test_illFormed_fault :
  ([.erAck 0 64, .vatHardFault 0 1600 0 none, .vatDrainEnd 0 1600 none, .vatSpareTestEnd 0 1600 true, .segmentMoveComplete 0 64 true,
    .pmClear 0 (.pl 16), .pmClear 0 (.vb 16), .patrolScrub 0 64 0 (List.replicate 36 255) true,
    .patrolScrub 0 63 0 (List.replicate 35 255) true, .patrolScrub 0 63 0 (List.replicate 36 256) true, .railLeavesTolerance 0 8] : List Instr).any (·.wellFormed) = false := by decide +kernel

theorem test_wellFormed_power :
  ([.wakeComplete 0 [63], .bistDone 0 [] [(1599, 0)] [(16, 0)] [], .thermalWarn 0 95 0, .thermalTrip 0 95 0, .railWarn 0 7 0,
    .undervoltageReset 0 7 0, .coreFault 0 4 []] : List Instr).all (·.wellFormed) = true := by decide +kernel

theorem test_illFormed_power :
  ([.wakeComplete 0 [64], .bistDone 0 [] [(1600, 0)] [] [], .bistDone 0 [] [] [(17, 0)] [], .thermalWarn 0 96 0, .thermalTrip 0 96 0,
    .railWarn 0 8 0, .undervoltageReset 0 8 0, .coreFault 0 5 []] : List Instr).any (·.wellFormed) = false := by decide +kernel

/-! The hypotheses of the statements can be met. -/

/-- A device whose next boundary falls on the next count, with a group armed for it that sets a pool share beyond the pool, or nothing armed. -/
def trapped : State :=
  { dev := { (((dev.setMrdState 3 2).setNum (R.MRD_TARGET_LO 3) 1).setNum (R.MRD_CTRL 3) (1 * 65536)).setNum (R.MRD_ITEM_ADDR 3 0) R.TU_LIMITS |>.setNum
      (R.MRD_ITEM_MASK 3 0) 0xFF00 with time := { dev.time with lc := 2559 } } }

theorem witness_EmptyQueueLetsOneCountPass : run.pending = [] ∧ run.dev.inReset = false ∧ held.dev.inReset = true ∧ run.dev.mrdTrap (run.dev.lc + 1) = false ∧
    trapped.pending = [] ∧ trapped.dev.inReset = false ∧ trapped.dev.mrdTrap (trapped.dev.lc + 1) = true := by decide +kernel

theorem witness_CommandsStopOnlyByName : (Instr.feature 0 1024 2).wellFormed = false ∧ run.dev.unpredictable none (R.TW_INDEX 0) (2 ^ 32 - 1) 0xFFFFFFFF = true := by
  decide +kernel

theorem witness_NothingHappensInFullReset : held.dev.inReset = true ∧ (∀ now, Instr.feature 0 1023 2 ≠ .powerOnReset now) ∧
    (∀ now p, Instr.feature 0 1023 2 ≠ .fullReset now p) ∧ (∀ now, Instr.feature 0 1023 2 ≠ .resetRelease now) ∧ (∀ now, Instr.feature 0 1023 2 ≠ .refclkLost now) ∧
    (∀ now, Instr.feature 0 1023 2 ≠ .refclkRestored now) ∧ (∀ now i t, Instr.feature 0 1023 2 ≠ .thermalTrip now i t) ∧
    (∀ now r mv, Instr.feature 0 1023 2 ≠ .undervoltageReset now r mv) :=
  ⟨by decide +kernel, fun _ h => (nomatch h), fun _ _ h => (nomatch h), fun _ h => (nomatch h), fun _ h => (nomatch h), fun _ h => (nomatch h), fun _ _ _ h => (nomatch h),
    fun _ _ _ h => (nomatch h)⟩

theorem witness_QuietDeviceUpdatesFlowControlOnly : asleep.quiet = true ∧ asleep.running = false ∧ (awake 0 0).dev.quiet = true ∧ (awake 0 0).dev.running = true := by
  decide +kernel

theorem witness_OnlyFuseCommandsBlowFuses : (match exec (.feature 0 1023 2) run with | .next _ => true | _ => false) = true ∧ (∀ now, Instr.feature 0 1023 2 ≠ .fuseProgramDone now) ∧
    (∀ n seq, Instr.feature 0 1023 2 ≠ .svnCommitFirmware n seq) ∧ (∀ n seq, Instr.feature 0 1023 2 ≠ .svnCommitRecipe n seq) :=
  ⟨by decide +kernel, fun _ h => (nomatch h), fun _ _ h => (nomatch h), fun _ _ h => (nomatch h)⟩

/-- A device in which the revocation of a firmware key runs. -/
def revoking : Dev := { dev with mgmt := { dev.mgmt with fuseBusy := some (3, 3, []) } }

theorem witness_FusesStayLegal : ({ dev := revoking } : State).fuse.legal = true ∧
    (match step { pending := [.fuseProgramDone 9], dev := revoking } with | .next t => t.fuse.fRev | _ => 0) = 8 := by decide +kernel

/-- A device in which the owner's key is being programmed. -/
def owning : Dev := { dev with mgmt := { dev.mgmt with fuseBusy := some (1, 0, [7]) } }

theorem witness_FusesAreNeverCleared : State.reset.fuseFresh = true ∧ ({ dev := owning } : State).fuseFresh = true ∧
    (match step { pending := [.fuseProgramDone 9], dev := owning } with | .next t => t.fuse.owned && t.fuse.owner = [7] && t.fuseFresh | _ => false) = true ∧
    (let s : State := { pending := [.fuseProgramDone 9], fuse := { fRev := 1 }, dev := revoking }
     s.fuseFresh = true ∧ (match step s with | .next t => t.fuse.fRev | _ => 0) = 9) := by decide +kernel

theorem witness_SvnCommitRaisesTheMinimum :
    (let s := session 3 { image := List.replicate 256 0, slots := [List.replicate 8 0 ++ [64, 0, 0, 0], []] }
     s.dev.inReset = false ∧ s.dev.cmdRuns s.fuse 0 7 0x070A [1, 0, 0, 0] = true ∧ s.dev.slotSvn 0 = 64 ∧ s.dev.slotSvn 1 = 0) ∧
    (let s := session 3 {}
     let t : State := { s with dev := { s.dev with vat := { s.dev.vat with image := List.replicate 8 0 ++ [64, 0, 0, 0] } } }
     t.dev.inReset = false ∧ t.dev.cmdRuns t.fuse 0 7 0x070A [2, 0, 0, 0] = true ∧ t.dev.vat.image ≠ [] ∧ leNat (slice t.dev.vat.image 8 4) = 64) ∧
    (let s := session 3 {}
     s.dev.inReset = false ∧ s.dev.cmdRuns s.fuse 0 7 0x070A [2, 0, 0, 0] = true ∧ s.dev.vat.image = []) := by decide +kernel

theorem witness_FuseOperationRefusedOrBusy : run.dev.inReset = false ∧ run.dev.mrdTrap 9 = false ∧ (run.dev.advance 9).on R.SB_FUSECMD F.SB_FUSECMD_BUSY = false ∧
    (run.dev.advance 9).fuseRefused { owned := true } 1 15 = true ∧ (run.dev.advance 9).fuseRefused run.fuse 2 0 = true ∧
    (run.dev.advance 9).fuseRefused run.fuse 4 15 = false := by decide +kernel

theorem witness_FuseOperationBlowsItsFuse : [(1, 0), (2, 2), (2, 3), (3, 3), (4, 0)].all (fun (x : Nat × Nat) =>
    let s : State := { dev := { dev with mgmt := { dev.mgmt with fuseBusy := some (x.1, x.2, [7]) } } }
    !s.dev.inReset && !s.dev.mrdTrap 9 && (s.dev.advance 9).mgmt.fuseBusy = some (x.1, x.2, [7])) = true ∧ (run.dev.advance 9).mgmt.fuseBusy = none := by decide +kernel

theorem witness_XoffNeverSentForBestEffort : (awake (R.SC_XOFF 1023) 0x9F).dev.running = true ∧
    bit ((awake (R.SC_XOFF 1023) 0x9F).dev.fld (R.SC_XOFF 1023) F.SC_XOFF_XOFF_SENT) 5 = false ∧
    (match step (awake (R.SC_XOFF 1023) 0x9F) with | .next t => t.dev.running | _ => false) = true := by decide +kernel

theorem witness_HeaderReadsBackAsSent : exampleHdr.fits = true ∧ ({ vc := 7, dest := 2 ^ 18 - 1, chunk := 2 ^ 24 - 1 } : Hdr).fits = true := by decide +kernel

theorem witness_LinkControlSymbolReadsBack : lcsOk (lcsWord 15 255 4095 255) = true ∧ 15 < 16 ∧ 255 < 256 ∧ 4095 < 4096 := by decide +kernel

theorem witness_DescramblingUndoesScrambling : ∀ v ∈ [0, 1023], v < 1024 := by decide

theorem witness_BadHeaderCrcIsDiscardedAndCounted : run.dev.inReset = false ∧ run.dev.mrdTrap 9 = false ∧ hdrCrcOk (List.replicate 32 5) = false ∧ ((run.dev.advance 9).lk 1023).skip = false ∧
    (run.dev.advance 9).ctr (R.PL_HDR_CRC 15) < 2 ^ 64 := by decide +kernel

theorem witness_RoundingKeepsRepresentableValues : isNaN 1 0x7F800000 = false ∧ isNaN 2 0xFF7F = false ∧ isNaN 3 0x8001 = false ∧ isNaN 4 0xFE = false ∧
    isNaN 5 0xFC = false := by decide +kernel

theorem witness_TallyConversionFollowsItsSteps : toTally 1 (.fin true 0 5) = (0, false) ∧ toTally 1 (.fin true 3 2) = (-6, false) ∧
    toTally 1 (.fin false 3 0) = (2, false) ∧ toTally 0 (.fin false (2 ^ 31 - 1) 0) = (2 ^ 31 - 1, true) := by decide +kernel

theorem witness_TalliesAddExactly : sumCtx.recipe = 1 ∧ sumCtx.acc = [] ∧ members.length ≤ 2 ^ 18 ∧ 1 < sumCtx.elems ∧
    (addAll sumCtx members).acc.getD 1 0 = 6 := by decide +kernel

theorem witness_ContributionOrderDoesNotMatter : 1 ≤ sumCtx.recipe ∧ sumCtx.recipe ≤ 12 ∧ sumCtx.acc = [] ∧ [members[0], members[1]].Perm [members[1], members[0]] :=
  ⟨by decide, by decide, rfl, List.Perm.swap ..⟩

/-- For every opcode a handler at a word of it. -/
theorem witness_RegisterInstructionsSetTheirRegister :
    ([0x08, 0x09] ++ (List.range 11).map (0x10 + ·) ++ (List.range 11).map (0x20 + ·) ++ [0x30]).all (fun (o : Nat) =>
      let s := handler (o * 2 ^ 56 + 15 * 2 ^ 52)
      !s.dev.inReset && s.dev.runOf 1535 = some runRegs && (s.dev.ctxAt 1535 63).any (fun c => runRegs.cyc < s.dev.budgetOf c) &&
        iLegal (s.dev.imemAt 0x800) && iOp (s.dev.imemAt 0x800) = o) = true := by decide +kernel

theorem witness_BranchesAndMemoryInstructions :
    [0x00, 0x38, 0x39, 0x3A, 0x3B, 0x3C, 0x31, 0x32].all (fun (o : Nat) =>
      let s := handler (o * 2 ^ 56 + 511)
      !s.dev.inReset && s.dev.runOf 1535 = some runRegs && (s.dev.ctxAt 1535 63).any (fun c => runRegs.cyc < s.dev.budgetOf c) &&
        iLegal (s.dev.imemAt 0x800) && iOp (s.dev.imemAt 0x800) = o) = true := by decide +kernel

theorem witness_IllegalWordsFault : let s := handler (0x03 * 2 ^ 56)
    s.dev.inReset = false ∧ s.dev.runOf 1535 = some runRegs ∧ (s.dev.ctxAt 1535 63).any (fun c => runRegs.cyc < s.dev.budgetOf c) = true ∧
      iLegal (s.dev.imemAt 0x800) = false := by decide +kernel

theorem witness_FabricTimeFollowsItsRate : -(2 ^ 48) < dev.time.rate ∧ 0 ≤ dev.time.baseT ∧ dev.time.baseLc ≤ 10 := by decide +kernel

theorem witness_LowerPrivilegeIsDenied : let s := session 1 {}
    s.dev.inReset = false ∧ (Instr.umberEnter 0 7 []).wellFormed = true ∧ (Instr.umberEnter 0 7 []).ucp = some (0, 7, 0x0902, []) ∧
      s.dev.mayBegin 0 7 0x0902 [] = true ∧ opPriv 0x0902 [] = some 2 ∧ (s.dev.sessAt 0).priv < 2 := by decide +kernel

theorem witness_ManagementLinkDownClosesItsSessions : run.dev.inReset = false ∧ run.dev.mrdTrap 9 = false ∧ (run.dev.advance 9).mgmt.sess.length = 8 ∧
    (let d := ({ withRegs [(R.QCTRL_MP, 0)] with dev := { (withRegs [(R.QCTRL_MP, 0)]).dev with mgmt := { image := [1] } } } : State).dev.advance 9
     d.qreq .mp = false ∧ d.mgmt.stopped = false ∧ d.mgmt.image ≠ [] ∧ d.on R.MP_CTRL F.MP_CTRL_MODE = false) := by decide +kernel

theorem witness_QuiesceRequestStartsTheDrain : run.dev.inReset = false ∧ run.dev.mrdTrap 9 = false ∧ run.dev.reaches (QUnit.port 511).ctrl = true ∧ asleep.reaches (QUnit.port 511).ctrl = false ∧ asleep.reaches QUnit.tu.ctrl = true ∧ (QUnit.port 511).ok = true ∧ (∀ x, QUnit.port 511 ≠ .xs x) ∧ QUnit.port 511 ≠ .mp ∧
    (run.dev.advance 9).qreq (.port 511) = true ∧ ((withRegs [(R.QCTRL_PORT 511, 0)]).dev.advance 9).qreq (.port 511) = false :=
  ⟨by decide +kernel, by decide +kernel, by decide +kernel, by decide +kernel, by decide +kernel, by decide, fun _ h => (nomatch h), fun h => (nomatch h), by decide +kernel, by decide +kernel⟩

theorem witness_DrainedUnitAcknowledges : run.dev.inReset = false ∧ run.dev.mrdTrap 9 = false ∧
    ([.port 511, .ch 63, .pl 15] : List QUnit).all (fun q => q.ok && ((dev.setQ q true true false).advance 9).draining q &&
      ((dev.setQ q true true false).advance 9).drained q && !(dev.advance 9).draining q) = true := by decide +kernel

theorem witness_CrossbarSlicesAndTheirQuiescence : asleep.inReset = false ∧ asleep.pwState = 2 ∧ asleep.mrdTrap 9 = false ∧ run.dev.inReset = false ∧ run.dev.pwState ≠ 2 ∧ run.dev.mrdTrap 9 = false ∧ (Instr.crossbarSlot 9 [15] []).wellFormed = true ∧
    (run.dev.advance 9).qreq (.xs 0) = true ∧
    tested.badRelease (.xs 16) = false ∧ (dev.advance 9).fld R.SC_SLICE F.SC_SLICE_SPARE = 16 := by decide +kernel

/-- A device with an armed Mordant group. -/
def armed : State := { dev := dev.setMrdState 3 2 }

theorem witness_ArmedGroupKeepsItsItems : armed.dev.inReset = false ∧ armed.dev.pwState ≠ 2 ∧ armed.dev.mrdTrap 9 = false ∧ armed.dev.mrdState 3 = 2 ∧ (armed.dev.advance 9).mrdState 3 = 2 ∧
    mrdAt (R.MRD_ITEM_VALUE 3 511) = some (3, 0x20F4) ∧ isItem 0x20F4 = true ∧ R.MRD_ITEM_VALUE 3 511 % 4 = 0 ∧
    (armed.dev.advance 9).unpredictable none (R.MRD_ITEM_VALUE 3 511) (2 ^ 32 - 1) 5 = false ∧
    bit (0x3FF0005 % 2 ^ 32) 1 = false ∧ (armed.dev.advance 9).unpredictable none (R.MRD_CTRL 3) (2 ^ 32 - 1) 0x3FF0005 = false ∧
    armed.dev.unpredictable none (R.MRD_TARGET_HI 3) (2 ^ 32 - 1) 5 = false ∧ armed.dev.unpredictable none (R.MRD_TARGET_LO 3) (2 ^ 32 - 1) 5 = false := by
  decide +kernel

theorem witness_ArmChecksTheGroup : run.dev.inReset = false ∧ (dev.setMrdState 0 3).pwState ≠ 2 ∧ run.dev.mrdTrap 9 = false ∧ ((dev.setMrdState 3 1).advance 9).mrdState 3 = 1 ∧ ((dev.setMrdState 0 3).advance 9).mrdState 0 = 3 := by
  decide +kernel

theorem witness_CancelReturnsTheGroupToStaged : armed.dev.inReset = false ∧ armed.dev.pwState ≠ 2 ∧ armed.dev.mrdTrap 9 = false ∧ (armed.dev.advance 9).mrdState 3 = 2 ∧
    (armed.dev.advance 9).beatsAhead 1 = 1 ∧ (armed.dev.advance 9).beatsAhead 2 = 2 := by decide +kernel

theorem witness_PreviousBankRetires : dev.pwState ≠ 2 ∧ (let d := (dev.setFld (R.FW_EPOCH 15) F.FW_EPOCH_PREV_HELD 1).advance 9
    d.prevHeld 15 = true ∧ d.beatNo = d.retireBeat 15) ∧
    (let e : Dev := { dev.setFld (R.FW_EPOCH 15) F.FW_EPOCH_PREV_HELD 1 with tab := { retireReq := [(15, 0)] }, time := { dev.time with beat := 1 } }
     let d := e.advance 9
     e.mrdTrap 9 = false ∧ d.prevHeld 15 = true ∧ (d.tab.retireReq.any fun x => x.1 = 15 && x.2 < d.time.beat) = true) ∧
    (dev.advance 9).prevHeld 15 = false ∧
    (let d := ((dev.setFld (R.FW_EPOCH 15) F.FW_EPOCH_PREV_HELD 1).setNum (R.FW_RETIRE_LO 15) 5).advance 9
     (d.tab.retireReq.any fun x => x.1 = 15 && x.2 < d.time.beat) = false ∧ d.beatNo ≠ d.retireBeat 15) := by decide +kernel

theorem witness_BusyWindowIgnoresWrites : [(R.TW_INDEX 15, 1), (R.TW_CMD 15, 0x101), (R.TW_DATA 15 0, 5), (R.TW_DATA 15 35, 5)].all (fun (x : Nat × Nat) =>
    let d := dev.setFld (R.TW_STAT 15) F.TW_STAT_BUSY 1
    !d.inReset && d.pwState ≠ 2 && !d.mrdTrap 9 && (d.advance 9).on (R.TW_STAT 15) F.TW_STAT_BUSY && !d.unpredictable none x.1 (2 ^ 32 - 1) x.2 && d.on (R.TW_STAT 15) F.TW_STAT_BUSY) = true := by decide +kernel

theorem witness_LosslessPacketsAreAlwaysAdmitted : lossless 1 = true ∧ lossless 7 = true ∧ lossless 5 = false ∧ lossless 6 = false := by decide +kernel

theorem witness_GateListGo : run.dev.inReset = false ∧ run.dev.pwState ≠ 2 ∧ (run.dev.advance 9).gclBad 1023 1 1 = true ∧ run.dev.mrdTrap 9 = false ∧ (run.dev.advance 9).gclBad 1023 0 1 = false ∧
    (run.dev.advance 9).gclBad 0 0 4096 = false := by decide +kernel

theorem witness_FeatureLevelIsTheLower :
    [false, true].all (fun b =>
      let d := (dev.setState 1023 4).updLk 1023 fun l => { l with featSent := b }
      !d.inReset && !d.mrdTrap 9 && decide ((d.advance 9).linkState 1023 = 4) && ((d.advance 9).lk 1023).featSent == b) = true := by decide +kernel

theorem witness_BadLinkControlSymbolIsIgnored : (dev.setState 1023 5).inReset = false ∧ (dev.setState 1023 5).mrdTrap 9 = false ∧ lcsOk 1 = false ∧
    rowsOn (((dev.setState 1023 5).advance 9).linkState 1023) = true := by decide +kernel

theorem witness_LaserEnableFollowsItsModule : run.dev.inReset = false ∧ run.dev.pwState ≠ 2 ∧ (asleep.advance 9).pwState = 2 ∧ run.dev.mrdTrap 9 = false ∧ (run.dev.advance 9).power.lmEn.length = 16 ∧
    ((dev.setFld (R.OH_SLOT_STAT 15) F.OH_SLOT_STAT_PRESENT 1).advance 9).on (R.OH_SLOT_STAT 15) F.OH_SLOT_STAT_PRESENT = true ∧
    ((dev.setFld (R.OH_SLOT_CTRL 15) F.OH_SLOT_CTRL_EN 1).advance 9).on (R.OH_SLOT_CTRL 15) F.OH_SLOT_CTRL_EN = true ∧
    (dev.advance 9).on (R.OH_SLOT_CTRL 15) F.OH_SLOT_CTRL_EN = false := by decide +kernel

/-- A device in which an abort of partition 5 runs and `n` others wait. -/
def aborting (n : Nat) : Dev := { dev with faults := { abortRun := some (5, 2, 0), aborts := (List.range n).map fun i => (10 + i, 2, 0) } }

theorem witness_AbortIsRefusedOrBegins : (aborting 16).pwState ≠ 2 ∧ (let d := ((aborting 16).advance 9).setFld R.CE_ABORT F.CE_ABORT_PARTITION 4095
     d.abortKnown 4095 = false ∧ d.faults.abortRun.isSome = true ∧ 16 ≤ d.faults.aborts.length) ∧
    (let d := ((aborting 15).advance 9).setFld R.CE_ABORT F.CE_ABORT_PARTITION 4095
     d.abortKnown 4095 = false ∧ d.abortKnown 5 = true ∧ d.abortKnown 24 = true ∧ d.faults.aborts.length = 15) ∧
    (let d := (dev.advance 9).setFld R.CE_ABORT F.CE_ABORT_PARTITION 4095
     d.abortKnown 4095 = false ∧ d.faults.abortRun.isSome = false) := by decide +kernel

theorem witness_PulseOutputGo : run.dev.inReset = false ∧ run.dev.mrdTrap 9 = false ∧ ((withRegs [(R.TPO_PERIOD_NS 3, 16)]).dev.advance 9).reg (R.TPO_PERIOD_NS 3) = 16 ∧
    (withRegs [(R.TPO_PERIOD_NS 3, 16)]).dev.inReset = false := by decide +kernel

theorem witness_HealthScoresDecay : run.dev.mrdTrap 9 = false ∧ (dev.advance 9).actedIn 2 = false ∧ ((dev.act1 2).advance 9).actedIn 2 = true ∧ (dev.advance 9).beatNo % 2 ^ 24 = 0 ∧
    (let d : Dev := { dev with time := { dev.time with beat := 1 } }
     (d.advance 9).beatNo % 2 ^ 24 = 1) := by decide +kernel

theorem witness_HealthReleaseClearsTheElement : run.dev.inReset = false ∧ run.dev.mrdTrap 9 = false ∧ (run.dev.advance 9).logicalOf 1599 = none ∧ (run.dev.advance 9).logicalOf 3 ≠ none := by decide +kernel

theorem witness_AcknowledgingARecord : (((dev.setNum (R.ER_REC 63 1) (2 ^ 23)).advance 9).recValid 63 && !((dev.setNum (R.ER_REC 63 1) (2 ^ 23)).advance 9).recAcked 63) = true ∧
    ((dev.advance 9).recValid 63 && !(dev.advance 9).recAcked 63) = false := by decide +kernel

theorem witness_WakeFollowsItsGrant : (let d := (asleep.setFld R.PW_STAT F.PW_STAT_REQ_PIN 1).advance 9
    d.pwState = 2 ∧ d.on R.PW_STAT F.PW_STAT_REQ_PIN = true) ∧
    ((asleep.setFld R.PW_STAT F.PW_STAT_REQ_PIN 0).advance 9).on R.PW_STAT F.PW_STAT_REQ_PIN = false ∧ ((awake 0 0).dev.advance 9).pwState = 0 := by
  decide +kernel

theorem witness_ResetsClearTheDevice : held.dev.inReset = true ∧ run.dev.inReset = false ∧ run.dev.mrdTrap 9 = false := by decide +kernel

/-- Error records: 0 and 1 are open, of one source; 2 is acknowledged; all 64 are valid where `full`. -/
def recorded (full : Bool) : Dev :=
  let d := (((dev.error 2 3 0x14 2 [5, 6]).setNum (R.ER_REC 1 1) (2 ^ 23)).setNum (R.ER_REC 2 1) (2 ^ 23 + 2 ^ 22)).setNum (R.ER_REC 2 3) 9
  if full then (List.range 61).foldl (fun (d : Dev) (i : Nat) => d.setNum (R.ER_REC (3 + i) 1) (2 ^ 23)) d else d

theorem witness_OccurrencesFoldMakeOrOverflow :
    (let d := recorded false
     d.recValid 0 = true ∧ d.recAcked 0 = false ∧ d.erw 0 0 = 2 * 2 ^ 24 + 3 * 256 + 0x14 ∧ d.recValid 2 = true ∧ d.recAcked 2 = true ∧ d.recValid 3 = false ∧
       (d.error 2 3 0x14 2 [8]).erw 0 2 = 2 ∧ (d.error 2 3 0x15 2 [8]).erw 3 9 = 8) ∧
    (let d := recorded true
     (List.range 64).all (fun m => d.recValid m && (m = 2 || !d.recAcked m)) = true ∧ (d.error 2 3 0x15 2 [8]).erw 2 9 = 8 ∧
       let e := d.setNum (R.ER_REC 2 1) (2 ^ 23)
       (List.range 64).all (fun m => e.recValid m && !e.recAcked m && decide (e.erw m 0 ≠ 2 * 2 ^ 24 + 3 * 256 + 0x15)) = true ∧
         (e.error 2 3 0x15 2 [8]).ctr R.ER_LOST = 1) := by decide +kernel

/-- A window of pipeline 15 in which a WRITE (2) or a READ (1) of an entry of its first table stands before its end. -/
def windowed (op : Nat) : Dev :=
  { dev.setFld (R.TW_STAT 15) F.TW_STAT_BUSY 1 with
    tab := { dev.tab with tw := Sparse.ins [] 15 { op := op, table := 1, bank := 1, index := (tblSize 1).1 - 1, data := List.replicate 144 5, result := 0 } } }

/-- The same with a WRITE of an exact-match entry to slot 7 whose key slot 3 holds by learning, or where `wr` says so by a WRITE. -/
def keyed (wr : Bool) : Dev :=
  let e := mkEm 1 (List.replicate 6 2) 5 0
  { windowed 2 with
    tab := { dev.tab with em := [(3, e)], emWr := if wr then [3] else [],
                          tw := Sparse.ins [] 15 { op := 2, table := 5, bank := 0, index := 7, data := e ++ List.replicate 128 0, result := 0 } } }

theorem witness_WrittenWordsAndEntriesReadBack : run.dev.inReset = false ∧ run.dev.pwState ≠ 2 ∧ run.dev.powered = true ∧ run.dev.mgmt.winQ = [] ∧
    [R.TW_DATA 15 35, R.CE_TW_DATA 79, R.TPO_START_SEC 3, R.TPO_START_NS 3, R.TPO_PERIOD_NS 3, R.TPO_WIDTH_NS 3].all (fun a =>
      !run.dev.unpredictable none a (2 ^ 32 - 1) 100 && Sparse.find run.dev.csr.latch a = none) = true ∧
    run.dev.on (R.TW_STAT 15) F.TW_STAT_BUSY = false ∧ run.dev.on R.CE_TW_STAT F.CE_TW_STAT_BUSY = false ∧
    [1, 2, 3, 4, 5].all (fun t => (run.dev.tblPut 15 t 1 ((tblSize t).1 - 1) (List.replicate (tblSize t).2 7)).tblGet 15 t 1 ((tblSize t).1 - 1) = List.replicate (tblSize t).2 7) = true ∧
    [1, 2].all (fun op => let d := (windowed op).advance 9
      !(windowed op).mrdTrap 9 && d.powered && d.mgmt.winQ = [] && (Sparse.find d.tab.tw 15).any (fun o => o.op = op && o.result = 0 && o.table = 1 && o.bank = 1) &&
        !d.twTwice 15 && (Sparse.find d.tab.tw 15).any fun o => !d.twWaits o) = true ∧
    (let d := (keyed false).advance 9
     !(keyed false).mrdTrap 9 && d.powered && !d.twTwice 15 && ((keyed true).advance 9).twTwice 15 &&
       (Sparse.find d.tab.tw 15).any fun o => !d.twWaits o && decide (o.table = 5) && emValid o.data && emIs (emPart o.data) (emMac o.data) (d.tblGet 0 5 0 3)) = true := by
  decide +kernel

theorem witness_ClearedMonitorsKeepTheirSnapshot : run.dev.inReset = false ∧ run.dev.pwState ≠ 2 ∧ pmUnits.contains (.vb 15) = true ∧
    (let d : Dev := { (awake 0 0).dev with tel := { pmClear := [(PmUnit.vb 15).base] } }
     d.running = true ∧ PmUnit.vb 15 ∈ pmUnits ∧ (PmUnit.vb 15).base ∈ d.tel.pmClear) := by decide +kernel

/-- Two direct writes that would reserve one partition twice wait for the boundary; two that reserve different ones are no controller error (R7, R17; spec/05_lake.md). -/
def reserving (p : Nat) : Dev :=
  { dev with csr := { dev.csr with rwb := [(R.LK_PART_A 0, 0x80000FFF, 0x80000007), (R.LK_PART_A 1, 0x80000FFF, BitVec.ofNat 32 (0x80000000 + p))] },
             time := { dev.time with lc := 2559 } }

theorem test_rwbJudgedTogether : (reserving 7).mrdTrap 2560 = true ∧ (reserving 8).mrdTrap 2560 = false ∧ (reserving 7).mrdTrap 2559 = false := by decide +kernel

/-- A group that sets MARK to `m` and EGR_LIMIT to 0x6000 in two items is judged as a whole: MARK may pass the limit that stood before (R7, R46; spec/05_lake.md). -/
def raising (m : Nat) : Dev :=
  [(R.MRD_CTRL 3, 2 * 65536), (R.MRD_ITEM_ADDR 3 0, R.LK_ETH 0), (R.MRD_ITEM_MASK 3 0, 0xFFFF), (R.MRD_ITEM_VALUE 3 0, m),
    (R.MRD_ITEM_ADDR 3 1, R.LK_ETH 0), (R.MRD_ITEM_MASK 3 1, 0xFFFF0000), (R.MRD_ITEM_VALUE 3 1, 0x60000000)].foldl (fun (d : Dev) x => d.setNum x.1 x.2) dev

theorem test_groupJudgedTogether : (raising 0x5000).mrdUnpredictable 3 = false ∧ (raising 0x6001).mrdUnpredictable 3 = true := by decide +kernel

/-- TU_SET_NS stands far ahead of fabric time, so that SET_NOW passes beat boundaries (R454); the writes waiting reserve PARTITION 7 twice. -/
def stepping : State := { dev := (reserving 7).setNum R.TU_SET_NS 100000 }

/-- The boundary that SET_NOW passes is judged when it is made: the count after it stops (R7, R454; log entry 90). -/
theorem test_steppedBoundaryIsJudged : (match exec (.setNow 9) stepping with
    | .next t => t.dev.time.beat = 0 && t.dev.mrdTrap 9 | _ => false) = true ∧ stepping.dev.mrdTrap 9 = false := by decide +kernel

/-- A burst that the pass in progress has read already. -/
def scrubbing : Dev :=
  let d := (dev.setNum (R.DD_CHSTAT 0) 0).setNum (R.QSTAT_CH 0) 0
  { d with ddr := { d.ddr with scrubbed := [(0, 64)] } }

/-- One pass of the patrol scrub reads a burst once (R626; log entry 90): nothing else keeps this channel from being read. -/
theorem test_scrubReadsOnceAPass (x : List Nat) : scrubbing.scrub 0 64 x false = scrubbing ∧
    scrubbing.chShut 0 = false ∧ scrubbing.chState 0 ≠ 3 := by
  refine ⟨?_, by decide +kernel, by decide +kernel⟩
  unfold Dev.scrub
  exact if_pos (by decide +kernel)

/-- PRESENT follows its pin in reset (R651; log entry 90). -/
theorem test_moduleSeatedInReset : (match exec (.moduleInserted 9 3) held with
    | .next t => t.dev.on (R.OH_SLOT_STAT 3) F.OH_SLOT_STAT_PRESENT | _ => false) = true := by decide +kernel

/-- A TIME_ANNOUNCE of two cells at P001, whose main pool takes none: one cell of headroom is exhausted by it, which spec/05_lake.md calls unpredictable (R7, R178), and two hold it. -/
def announceHdr : List Byte := hdrOut { vc := 7, dest := 5, kind := 0x43, plen := 400 }
def reserved (n : Nat) : Dev := (dev.setNum (R.LK_ITH 7) 0).setHr 1 n

theorem test_headroomExhausted : (reserved 1).overdraws ((reserved 1).headerArrival 3 announceHdr false) = true ∧
    (reserved 2).overdraws ((reserved 2).headerArrival 3 announceHdr false) = false ∧ ((reserved 2).headerArrival 3 announceHdr false).hrUse 3 = 2 := by
  decide +kernel

/-- FP_IDENT of a quiesced pipeline may be changed alone only while no pipeline and no vat bank is in operation (R93). -/
def idle16 : Dev := (List.range 16).foldl (fun (d : Dev) i => (d.setQ (.pl i) true false true).setQ (.vb i) true false true) dev

theorem test_identSplit : idle16.unpredictable none (R.FP_IDENT 3) (2 ^ 32 - 1) 0x80000005 = false ∧
    (idle16.setQ (.pl 2) false false false).unpredictable none (R.FP_IDENT 3) (2 ^ 32 - 1) 0x80000005 = true := by decide +kernel

/-- A context of granules 0 to 7 of vat 5 returns half of its run, and not what it does not hold (R190). -/
theorem test_granuleOwnership : granCheck (5, 0, 8) 5 4 4 = 0 ∧ granCheck (5, 8, 4) 5 0 4 = 3 ∧ granCheck (5, 0, 8) 5 2 4 = 2 := by decide

/-- A SESSION_FLUSH beyond the window is discarded and counted (R483), and one in it is answered (R487). -/
theorem test_flushInTheWindow : ((session 1 {}).dev.opFlush (session 1 {}).fuse 0 71 []).ctr R.UCP_WINDOW_DROP = 1 ∧
    ((session 1 {}).dev.windowed 0 70 dev).ctr R.UCP_WINDOW_DROP = 0 := by decide +kernel

/-- The worked example of spec/19_lpddr6.md: while segment (10, 0) is copied out of CH10, a write goes to CH10 and to segment 15 of CH00 (R534). -/
theorem test_writesGoToBoth : (((List.range 64).foldl (fun (d : Dev) c => (d.setNum (R.DD_CHSTAT c) 0x7FFF).setNum (R.QSTAT_CH c) 0) dev).ddrRetire 10 1).ddrPlaced
    0x100004A40 = [(10, 0), (0, 15)] ∧ burstAddr 15 (0x100004A40 / 32) = 0xF4000140 := by decide +kernel

/-! Completion: the lists above are well formed; here the conditions under which a command is predictable. -/

theorem witness_ClockAndTimeCommandsComplete : run.dev.inReset = false ∧ run.dev.reaches (R.MRD_CTRL 3) = true ∧ run.dev.reaches (R.TW_DATA 3 35) = true ∧ run.dev.reaches (R.FW_EPOCH 15) = true ∧ run.dev.mrdTrap 9 = false ∧ (run.dev.advance 9).mrdDue = none ∧
    run.dev.unpredictable none (R.TW_DATA 3 35) (2 ^ 32 - 1) 0xFFFFFFFF = false ∧ run.dev.mrdTrap (run.dev.boundaryBy 9) = false ∧
    (run.dev.advance 9).badRelease (.port 3) = true ∧ (tested.advance 9).badRelease (.port 3) = false := by decide +kernel

theorem witness_PacketCommandsComplete : run.dev.inReset = false ∧ run.dev.reaches (R.GCL_CTRL 15 63) = true ∧ run.dev.mrdTrap 9 = false ∧ (run.dev.advance 9).gclBad 1023 0 1 = false ∧
    (Instr.gclGo 9 1023 0 1).wellFormed = true ∧ (let d := run.dev.advance 9
      (Instr.packetHeaderArrival 9 3 announceHdr false none).wellFormed = true ∧
        (hdrCrcOk announceHdr && d.overdraws (d.headerArrival 3 announceHdr false)) = false ∧ d.overdraws (d.fenceGo 5) = false ∧ d.overdraws (d.stallGo 5) = false) := by
  decide +kernel

theorem witness_ControlProtocolCommandsComplete : run.dev.inReset = false ∧
    [0x0102, 0x0103, 0x0402, 0x0403, 0x0404, 0x0406].all (fun op => !run.dev.cmdUnpredictable run.fuse 7 0 op []) = true := by decide +kernel

theorem witness_FaultAndTelemetryCommandsComplete : run.dev.inReset = false ∧ run.dev.reaches (PmUnit.vb 15).base = true ∧ run.dev.mrdTrap 9 = false ∧ (Instr.hsRelease 9 2 1599).wellFormed = true ∧
    run.dev.unpredictable none R.HS_RELEASE (2 ^ 32 - 1) (2 * 2 ^ 24 + 1599) = false :=
  ⟨by decide +kernel, by decide +kernel, by decide +kernel⟩

theorem witness_PowerAndBootCommandsComplete : run.dev.inReset = false ∧ run.dev.on R.SB_FUSECMD F.SB_FUSECMD_BUSY = false := by decide +kernel

/-- A stream entry for a group with one 32-bit integer element, a group entry with one contribution per port, and a contribution or LAUNCH_ACK
that stands before a front end or a vat. -/
def collective (w0 vc : Nat) (out : Nat) (st : Stage) : Dev :=
  { dev with ce := { dev.ce with stream := [(7, leBytes 0x80000005 4 ++ leBytes 0x01010001 4 ++ leBytes 0x10000000 4 ++ leBytes 0 4)],
                                 group := [(5, leBytes w0 4 ++ List.replicate 316 0)] },
             core := { dev.core with pkts := [{ id := 1, unit := 0, port := 1023, h := { vc := vc, stream := 7 }, ended := true,
                                                copies := [{ out := out, stage := st }] }] } }

/-- The well-formed commands are those of test_wellFormed_collective. -/
theorem witness_CollectiveCommandsComplete : run.dev.inReset = false ∧ run.dev.reaches R.CE_TW_CMD = true ∧ run.dev.reaches (R.TW_CMD 15) = true ∧
    (let d := collective 0x80100000 2 1039 .fe; d.inReset = false ∧ (d.feHead 15 false).isSome = true ∧ d.contribBad 15 none = false ∧
      (collective 0x80000000 2 1039 .fe).contribBad 15 none = true) ∧
    (let d := collective 0xC0100000 7 1039 .fe; (d.feHead 15 true).isSome = true ∧ d.ackBad 15 none = false ∧
      (collective 0xC0000000 7 1039 .fe).ackBad 15 none = true) ∧
    (let d := collective 0x80100000 2 1039 .vat; (d.vatHead (chunkVat 7 0)).isSome = true ∧ d.vatBad (chunkVat 7 0) none = false ∧
      (collective 0x80000000 2 1039 .vat).vatBad (chunkVat 7 0) none = true) := by decide +kernel

/-- The well-formed commands are those of test_wellFormed_link and test_wellFormed_optical. -/
theorem witness_LinkAndOpticalCommandsComplete : run.dev.inReset = false ∧ run.dev.reaches (R.YZ_CTRL 511) = true ∧ run.dev.reaches (R.IND_PAIR 255) = true ∧
    run.dev.reaches (R.OH_SLOT_CTRL 15) = true ∧ (run.dev.advance 9).overdraws ((run.dev.advance 9).rowReceive 1023 [] []) = false := by decide +kernel

/-- The well-formed commands are those of test_wellFormed_sequencer. -/
theorem witness_SequencerInstructionsComplete : run.dev.inReset = false := by decide +kernel

end Sys2Proof.Tests
end

section
/-! PROOFS. The form of every command (how its effect comes into the state), and the scope statements that rest on it. -/
namespace Sys2Proof

/-- How a command's effect can come into the state: on a device that runs, fuses kept (`plain`); on a device held in reset too (`pin`); with fuses blown (`fuse`). -/
inductive Instr.Kind where
  | plain
  | pin
  | fuse

/-- The pins, supplies and clocks of reset (log entry 46), the commands that blow fuses (spec/17_boot_security.md R590, R591), and all the others. -/
def Instr.kind : Instr → Instr.Kind
  | .powerOnReset _ | .fullReset _ _ | .resetRelease _ | .refclkLost _ | .refclkRestored _ | .thermalTrip _ _ _ | .undervoltageReset _ _ _
  | .moduleInserted _ _ | .moduleRemoved _ _ => .pin
  | .fuseProgramDone _ | .svnCommitFirmware _ _ | .svnCommitRecipe _ _ => .fuse
  | _ => .plain

end Sys2Proof

namespace Sys2Proof.Machine

/-- The results that the ways of Machine/Lift.lean compose: an effect by one of three ways, behind any number of conditions. -/
inductive Way (s : State) : Instr.Kind → Res → Prop
  | act (f : Dev → Fuses → Dev) : Way s .plain (act s f)
  | always (now : Nat) (f : Dev → Fuses → Dev) : Way s .pin (always now s f)
  | actFuse (f : Dev → Fuses → Dev × Fuses) : Way s .fuse (actFuse s f)
  | need (ok : Bool) {kd : Instr.Kind} {k : Res} (w : Way s kd k) : Way s kd (need ok s k)
  | predictable (bad : Dev → Fuses → Bool) {kd : Instr.Kind} {k : Res} (w : Way s kd k) : Way s kd (predictable s bad k)

namespace Way

theorem passing {s : State} {kd : Instr.Kind} {k : Res} (now : Nat) (w : Way s kd k) : Way s kd (passing now s k) := w.predictable _

theorem timed (s : State) (now : Nat) (f : Dev → Fuses → Dev) : Way s .plain (timed now s f) := (Way.act _).passing now

/-- Whatever the way, a next state keeps the queue, and the only stop is the unpredictable one (R7). -/
theorem next_or_unpredictable {s : State} {kd : Instr.Kind} {r : Res} (w : Way s kd r) :
    (∃ t, r = .next t ∧ t.pending = s.pending) ∨ r = .fault .unpredictable := by
  induction w with
  | act f => exact .inl ⟨_, act_eq s f, s.effect_pending f⟩
  | always now f =>
    by_cases h : s.dev.inReset = true ∨ s.dev.mrdTrap now = false
    · exact .inl ⟨_, always_next now s f h, rfl⟩
    · obtain ⟨hrun, htrap⟩ := not_or.mp h
      exact .inr (passing_trap now s _ (Bool.eq_false_of_not_eq_true hrun) (Bool.eq_true_of_not_eq_false htrap))
  | actFuse f =>
    cases h : s.dev.inReset with
    | true => exact .inl ⟨s, by simp [Machine.actFuse, h], rfl⟩
    | false => exact .inl ⟨_, actFuse_run s f h, rfl⟩
  | need ok _ ih =>
    cases ok with
    | true => exact ih
    | false => exact .inl ⟨s, need_false s _, rfl⟩
  | predictable bad _ ih =>
    unfold Machine.predictable
    split
    · exact .inr rfl
    · exact ih

end Way

/-- Every command first asks that the elements it names exist (log entry 10), and then takes the way of its kind. -/
theorem exec_way (c : Instr) (s : State) : ∃ k, exec c s = need c.wellFormed s k ∧ Way s c.kind k := by
  cases c with
  | beatBoundary | emOverflowLookupDone | ageLimit | originatedAdmit | gclHandover | partitionAbortRun | ceWindowComplete | calDwellEnd | sourceLost
  | parentSwitch | timeAnnounceSend | setNow | setAtPps | ppsEdge | sync | followUp | delayReq | delayResp | announce | ptpMessageSend
  | mgmtPortLinkChange | mgmtFrameReceive | umberEntryComplete | wakeReqWrite | grantInstant | rampStep | powerOver | bootRetry | firmwareReady
  | watchdogExpire | trialConfirm | mgmtReset | datapathReset | datapathResetDone | sliceSwapSwitchover | wireSpareSwitch | deferredRowRepair
  | selftestComplete | healthDecay | telemetryReport | ringDump | flightFreeze | zqCalibration | imgCommitComplete | announceReceiptTimeout =>
    unfold exec
    exact ⟨_, (need_true ..).symm, .timed ..⟩
  | ceTwRead | ceTwWrite | ceTwInvalidate =>
    unfold exec
    exact ⟨_, (need_true ..).symm, .need _ (.timed ..)⟩
  | mordantGroupApply | fenceRelease | fenceStallRelease | programOwner | programRkey | revokeFkey | revokeRkey | hsRelease =>
    unfold exec
    exact ⟨_, (need_true ..).symm, .predictable _ (.timed ..)⟩
  | registerWrite =>
    unfold exec
    exact ⟨_, (need_true ..).symm, .need _ (.predictable _ (.act _))⟩
  | refclkLost | refclkRestored | powerOnReset | fullReset | resetRelease =>
    unfold exec
    exact ⟨_, (need_true ..).symm, .always ..⟩
  | fuseProgramDone =>
    unfold exec
    exact ⟨_, (need_true ..).symm, .passing _ (.actFuse _)⟩
  | quiesceDrained | forcedQuiesce | prevBankRetire | payloadEnd | emLearnApply | crossbarSlot | sliceHardFault | egressChoose | launchTimeReached
  | transmitComplete | gateIntervalExpiry | handlerStep | handlerFinal | arrayOpComplete | chunkTimeout | recordEntryExpire | launchTimeout
  | launchSlotFree | recipeBudgetExpire | messageDeliver | messageExpire | lcsSend | lcsReceive | lcsTimeoutXoff | lcsTimeoutDown | train | echoReq
  | echoResp | feature | time | move | moveAck | restore | restoreAck | narrow | narrowAck | refuse | laneRequest | down | laneEffectRow
  | laneAckTimeout | laneLost | holdoffExpire | lightArrival | lightExit | trainingCodeword | trainingTimeout | indigoActive | indigoCodewordPass
  | identityRead | identityTimeout | relockAttemptEnd | marginEval | calVisitStart | laserReady | timeAnnounceReceive | tpoGo | tpoCtrlCancel
  | tpoPulse | tpoPulseEnd | neighborSolicitation | echoRequest | hello | finish | helloTimeout | command | eventAck | eventResend
  | sessionIdleTimeout | csrPollTimeout | erAck | wakeComplete | bistDone | thermalWarn | railWarn | coreFault | vatHardFault | vatDrainEnd
  | vatSpareTestEnd | segmentMoveComplete | patrolScrub | railLeavesTolerance =>
    unfold exec
    exact ⟨_, rfl, .timed ..⟩
  | quiesceRequest | mrdClear | mrdCancel | mrdArm | retireNow | gclCancel | ceAbortGo | twRead | twWrite | twInvalidate | twBankCopy | twEmInsert
  | twEmDelete | twEmFind | twEmFlush | linkEnable | linkDisable | indigoEnable | indigoDisable | slotEnable | pmClear =>
    unfold exec
    exact ⟨_, rfl, .need _ (.timed ..)⟩
  | rowReceive | packetHeaderArrival | emAgeOut | resultAdmit | contributionAccept | vatContribution | launchAckAccept | tableWindowComplete =>
    unfold exec
    exact ⟨_, rfl, .predictable _ (.timed ..)⟩
  | quiesceRelease | mrdStage | gclGo =>
    unfold exec
    exact ⟨_, rfl, .need _ (.predictable _ (.timed ..))⟩
  | seqNop | seqDone | seqSetf | seqLi | seqLui | seqAdd | seqSub | seqAnd | seqOr | seqXor | seqShl | seqShr | seqSar | seqMul | seqMax | seqMin
  | seqAddi | seqSubi | seqAndi | seqOri | seqXori | seqShli | seqShri | seqSari | seqMuli | seqMaxi | seqMini | seqGets | seqLdw | seqStw | seqBra
  | seqBeq | seqBne | seqBlt | seqBge | seqAop | seqWait | seqOut | seqSend | seqRecv | deviceInfo | sessionClose | sessionFlush | sessionHistory
  | eventSubscribe | nopCommand | csrRead | csrPoll | tblRead | tblWrite | tblInvalidate | bankCopy | emInsert | emDelete | emFind | emFlush
  | tblWriteAll | ceRead | ceWrite | ceInvalidate | partitionAbort | ceStatus | portStatus | laneStatus | timeStatus | tpoArm | tpoCancel | portHold
  | laserService | oeSelftest | vatRetire | sliceSwap | ddrRetire | bankSelftest | maintStop | maintStatus | errRead | errAck | fwStatus | imgBegin
  | imgData | firmwareImageCommit | recipeLoad | fwActivate | getCerts | attest | credRead | credWrite | ctrSnapshot | telemSubscribe | flightRead
  | powerStatus | thermalStatus | umberEnter =>
    unfold exec
    exact ⟨_, rfl, .act _⟩
  | csrWrite | csrRmw | portEnable | portQuiesce | indigoSet | slotCtrl =>
    unfold exec
    exact ⟨_, rfl, .predictable _ (.act _)⟩
  | moduleInserted | moduleRemoved | thermalTrip | undervoltageReset =>
    unfold exec
    exact ⟨_, rfl, .always ..⟩
  | svnCommitFirmware | svnCommitRecipe =>
    unfold exec
    exact ⟨_, rfl, .actFuse _⟩

end Sys2Proof.Machine

open Sys2Proof Sys2Proof.Machine

/-- Settles O3, from the form of every command. -/
theorem commandsStopOnlyByName : Obligations.CommandsStopOnlyByName := by
  intro c s
  obtain ⟨k, e, w⟩ := exec_way c s
  rw [e]
  refine ⟨fun h => ?_, (w.need c.wellFormed).next_or_unpredictable⟩
  rw [h, need_false]

/-- Settles O2: an empty queue is one local count of idling, a timed command without an effect of its own. -/
theorem emptyQueueLetsOneCountPass : Obligations.EmptyQueueLetsOneCountPass := by
  intro s q
  have hstep : step s = timed (s.dev.lc + 1) s fun d _ => d := by
    unfold step
    rw [q]
    rfl
  rw [hstep]
  exact ⟨timed_next _ s _, timed_trap _ s _, timed_reset _ s _⟩

end

section
/-! PROOFS. The release of a quarantined element. -/
namespace Sys2Proof.Machine.Dev

/-- HS_RELEASE of a port: its health register, which holds QUARANTINED, WITHHELD and the score, reads zero. -/
theorem hsRelease_port (d : Dev) {n : Nat} (h : n < 512) : d.hsRelease 1 n = d.setNum (R.HS_PORT n) 0 := by
  simp [hsRelease, h]

/-- HS_RELEASE of a vat: its health register reads zero, and it is no longer among the retired vats. -/
theorem hsRelease_vat (d : Dev) {n : Nat} (h : n < 1600) :
    d.hsRelease 2 n = { (d.setNum (R.HS_VAT n) 0) with faults := { d.faults with retired := d.faults.retired.filter (· ≠ n) } } := by
  simp [hsRelease, h]

end Sys2Proof.Machine.Dev

namespace Sys2Proof.Machine

/-- HS_RELEASE whose operands lie within KIND and NUMBER, which the model takes modulo their widths (log entry 10). -/
theorem exec_hsRelease (s : State) (now : Nat) {kind n : Nat} (hk : kind < 256) (hn : n < 2048) :
    exec (.hsRelease now kind n) s = predictable s (fun d _ => kind = 2 && ((d.advance now).logicalOf n).isSome)
      (timed now s fun d _ => d.hsRelease kind n) := by
  dsimp only [exec, execHsRelease]
  rw [Nat.mod_eq_of_lt hk, Nat.mod_eq_of_lt hn]

/-- Outside reset a command stops where its results are unpredictable. -/
theorem predictable_bad (s : State) (bad : Dev → Fuses → Bool) (k : Res) (r : s.dev.inReset = false) (h : bad s.dev s.fuse = true) :
    predictable s bad k = .fault .unpredictable := by
  unfold predictable; simp [r, h]

end Sys2Proof.Machine

open Sys2Proof Sys2Proof.Machine

/-- Settles O46: the port, the mapped vat, the vat that is not mapped. -/
theorem healthReleaseClearsTheElement : Obligations.HealthReleaseClearsTheElement := by
  intro s now n r m d
  refine ⟨fun h => ?port, fun h mapped => ?mappedVat, fun h spare => ?vat⟩
  case port =>
    rw [exec_hsRelease s now (by decide) (by omega)]
    exact predictable_eq rfl (by rw [timed_next now s _ r m, Dev.hsRelease_port _ h])
  case mappedVat =>
    rw [exec_hsRelease s now (by decide) (by omega)]
    exact predictable_bad s _ _ r (Option.isSome_iff_ne_none.mpr mapped)
  case vat =>
    rw [exec_hsRelease s now (by decide) (by omega)]
    refine predictable_eq ?_ (by rw [timed_next now s _ r m, Dev.hsRelease_vat _ h])
    exact congrArg Option.isSome spare

end

section
/-! PROOFS. The commands of the beat, registers, quiescence, Mordant groups, epochs and fabric time complete. -/
open Sys2Proof Sys2Proof.Machine

/-- Settles O51: each command composed as its definition composes it, from its conditions and the way of its effect. -/
theorem clockAndTimeCommandsComplete : Obligations.ClockAndTimeCommandsComplete := by
  intro s
  dsimp only [exec]
  refine ⟨fun now m => ?refclkLost, fun now m => ?refclkRestored, fun r => ⟨?beatBoundary, ?registerWrite, ?quiesceRequest, ?quiesceRelease,
    ?quiesceDrained, ?forcedQuiesce, ?mrdStage, ?mrdClear, ?mrdCancel, ?mrdArm, ?mordantGroupApply, ?retireNow, ?prevBankRetire, ?time,
    ?sourceLost, ?parentSwitch, ?timeAnnounceSend, ?timeAnnounceReceive, ?setNow, ?setAtPps, ?ppsEdge, ?sync, ?followUp, ?delayReq, ?delayResp,
    ?announce, ?ptpMessageSend, ?tpoGo, ?tpoCtrlCancel, ?tpoPulse, ?tpoPulseEnd⟩⟩
  case refclkLost | refclkRestored => exact always_next now s _ m
  case beatBoundary | sourceLost | parentSwitch | timeAnnounceSend | setNow | setAtPps | ppsEdge | ptpMessageSend =>
    exact fun _ m => timed_next _ s _ r m
  case sync => exact fun _ _ _ _ _ _ _ m => timed_next _ s _ r m
  case followUp => exact fun _ _ _ _ _ _ m => timed_next _ s _ r m
  case delayReq => exact fun _ _ _ _ _ m => timed_next _ s _ r m
  case delayResp => exact fun _ _ _ _ _ _ _ m => timed_next _ s _ r m
  case announce => exact fun _ _ _ m => timed_next _ s _ r m
  case quiesceDrained | forcedQuiesce | prevBankRetire | tpoPulse | tpoPulseEnd => exact fun _ _ m wf => need_eq wf (timed_next _ s _ r m)
  case timeAnnounceReceive => exact fun _ _ _ m wf => need_eq wf (timed_next _ s _ r m)
  case tpoGo | tpoCtrlCancel => exact fun _ _ _ _ m wf => need_eq wf (timed_next _ s _ r m)
  case time => exact fun _ _ _ _ _ _ _ _ m wf => need_eq wf (timed_next _ s _ r m)
  case quiesceRequest | retireNow => exact fun _ _ m wf reach => need_eq wf (need_eq reach (timed_next _ s _ r m))
  case mrdClear | mrdCancel => exact fun _ _ _ m wf reach => need_eq wf (need_eq reach (timed_next _ s _ r m))
  case mrdArm => exact fun _ _ _ _ m wf reach => need_eq wf (need_eq reach (timed_next _ s _ r m))
  case registerWrite => exact fun _ _ reach good => need_eq reach (predictable_eq good (act_next s _ r))
  case mordantGroupApply => exact fun _ m good => predictable_eq good (timed_next _ s _ r m)
  case quiesceRelease => exact fun _ _ m wf reach good => need_eq wf (need_eq reach (predictable_eq good (timed_next _ s _ r m)))
  case mrdStage => exact fun _ _ _ m wf reach good => need_eq wf (need_eq reach (predictable_eq good (timed_next _ s _ r m)))

end

section
/-! PROOFS. Registers that an effect leaves alone, and the quiesce units. -/
namespace Sys2Proof.Machine

/-! A frame of registers (`Dev.RegsOnly`): what it allows and how frames follow one another. -/
namespace Dev.RegsOnly

theorem refl (l : List Nat) (d : Dev) : RegsOnly l d d := ⟨fun _ _ => rfl, rfl, rfl, rfl, rfl, rfl, rfl⟩

/-- A write of one of the listed words keeps to the list. -/
theorem setReg {l : List Nat} {d e : Dev} (h : RegsOnly l d e) {a : Nat} (w : Word) (ha : a ∈ l) : RegsOnly l d (e.setReg a w) := by
  obtain ⟨hreg, hctrs, hrwb, hsnap, hlatch, harm, hrest⟩ := h
  refine ⟨fun b hb => ?_, hctrs, hrwb, hsnap, hlatch, harm, hrest⟩
  rw [reg_setReg_other _ _ _ _ (ne_of_mem_of_not_mem ha hb).symm, hreg b hb]

theorem setFld {l : List Nat} {d e : Dev} (h : RegsOnly l d e) {a : Nat} (f : FR) (v : Nat) (ha : a ∈ l) : RegsOnly l d (e.setFld a f v) :=
  h.setReg _ ha

end Dev.RegsOnly

/-! The words of a unit. -/
namespace QUnit

theorem stat_ne_ctrl (q : QUnit) : q.stat ≠ q.ctrl := by unfold stat; omega

theorem stat_xs (x : Nat) : (QUnit.xs x).stat = R.QSTAT_XS x := by
  simp only [stat, ctrl, R.QCTRL_XS, R.QSTAT_XS]
  omega

/-- QCTRL of a slice stands in the switch core, which Umber gates off (spec/16_power_umber.md R558). -/
theorem umberBlock_ctrl_xs {x : Nat} (hx : x < 17) : umberBlock (QUnit.xs x).ctrl = false := by
  have hblock : (QUnit.xs x).ctrl / 0x1000000 = 2 := by
    simp only [ctrl, R.QCTRL_XS]
    omega
  simp [umberBlock, hblock]

end QUnit

namespace Dev

/-! QREQ, DRAINING and QACK: what they are read from, how they read after they are set, and where else the setting reaches. -/

theorem qreq_congr {d e : Dev} {q : QUnit} (h : e.reg q.ctrl = d.reg q.ctrl) : e.qreq q = d.qreq q := by rw [qreq, on, fld, h, qreq, on, fld]
theorem draining_congr {d e : Dev} {q : QUnit} (h : e.reg q.stat = d.reg q.stat) : e.draining q = d.draining q := by
  rw [draining, on, fld, h, draining, on, fld]
theorem qack_congr {d e : Dev} {q : QUnit} (h : e.reg q.stat = d.reg q.stat) : e.qack q = d.qack q := by rw [qack, on, fld, h, qack, on, fld]

theorem on_setFld_elsewhere (d : Dev) (a b : Nat) (f g : FR) (v : Nat) (h : b ≠ a) : (d.setFld a f v).on b g = d.on b g := by
  rw [on, fld_setFld_elsewhere _ _ _ _ _ _ h, on]

theorem on_setFld_other (d : Dev) (a : Nat) (f g : FR) (v : Nat) (h : f.lo ≤ f.hi) (k : f.hi < 32) (o : g.hi < f.lo ∨ f.hi < g.lo) :
    (d.setFld a f v).on a g = d.on a g := by
  rw [on, fld_setFld_other _ _ _ _ _ h k o, on]

/-- A bit reads as it was set. -/
theorem on_setFld_bit (d : Dev) (a k : Nat) (b : Bool) (h : k < 32) : (d.setFld a ⟨k, k⟩ (b2n b)).on a ⟨k, k⟩ = b := by
  rw [on, fld_setFld_same _ _ _ _ le_rfl h]
  cases b <;> simp [b2n]

@[simp] theorem qreq_setQ (d : Dev) (q : QUnit) (req dr ack : Bool) : (d.setQ q req dr ack).qreq q = req := by
  unfold qreq setQ
  rw [on_setFld_elsewhere _ _ _ _ _ _ q.stat_ne_ctrl.symm, on_setFld_elsewhere _ _ _ _ _ _ q.stat_ne_ctrl.symm]
  exact on_setFld_bit d _ 0 req (by decide)

@[simp] theorem draining_setQ (d : Dev) (q : QUnit) (req dr ack : Bool) : (d.setQ q req dr ack).draining q = dr := by
  unfold draining setQ
  rw [on_setFld_other _ _ _ _ _ (by decide) (by decide) (by decide)]
  exact on_setFld_bit _ _ 1 dr (by decide)

@[simp] theorem qack_setQ (d : Dev) (q : QUnit) (req dr ack : Bool) : (d.setQ q req dr ack).qack q = ack :=
  on_setFld_bit _ _ 0 ack (by decide)

theorem setQ_regsOnly (d : Dev) (q : QUnit) (req dr ack : Bool) : RegsOnly [q.ctrl, q.stat] d (d.setQ q req dr ack) :=
  (((RegsOnly.refl _ d).setFld _ _ (by simp)).setFld _ _ (by simp)).setFld _ _ (by simp)

theorem reg_setQ_other (d : Dev) (q : QUnit) (req dr ack : Bool) {a : Nat} (hc : a ≠ q.ctrl) (hs : a ≠ q.stat) :
    (d.setQ q req dr ack).reg a = d.reg a :=
  (d.setQ_regsOnly q req dr ack).1 a (by simp [hc, hs])

/-- The notes of the starts of drains replaced, as a request, a quiescence and a release do. -/
def setDrains (d : Dev) (m : List (Nat × Nat)) : Dev := { d with core := { d.core with drains := m } }

@[simp] theorem setQ_core (d : Dev) (q : QUnit) (req dr ack : Bool) : (d.setQ q req dr ack).core = d.core := rfl
@[simp] theorem setHr_pkts (d : Dev) (p n : Nat) : (d.setHr p n).core.pkts = d.core.pkts := rfl
@[simp] theorem setDrains_pkts (d : Dev) (m : List (Nat × Nat)) : (d.setDrains m).core.pkts = d.core.pkts := rfl
@[simp] theorem reg_setDrains (d : Dev) (m : List (Nat × Nat)) (a : Nat) : (d.setDrains m).reg a = d.reg a := rfl
@[simp] theorem qreq_setDrains (d : Dev) (m : List (Nat × Nat)) (q : QUnit) : (d.setDrains m).qreq q = d.qreq q := rfl
@[simp] theorem draining_setDrains (d : Dev) (m : List (Nat × Nat)) (q : QUnit) : (d.setDrains m).draining q = d.draining q := rfl
@[simp] theorem qack_setDrains (d : Dev) (m : List (Nat × Nat)) (q : QUnit) : (d.setDrains m).qack q = d.qack q := rfl
@[simp] theorem chState_setDrains (d : Dev) (m : List (Nat × Nat)) (c : Nat) : (d.setDrains m).chState c = d.chState c := rfl

/-- A frame holds as well with the notes of drains replaced on both sides. -/
theorem RegsOnly.setDrains {l : List Nat} {d e : Dev} (h : RegsOnly l d e) (m : List (Nat × Nat)) : RegsOnly l (d.setDrains m) (e.setDrains m) := by
  obtain ⟨hreg, hctrs, hrwb, hsnap, hlatch, harm, hrest⟩ := h
  exact ⟨hreg, hctrs, hrwb, hsnap, hlatch, harm, congrArg (·.setDrains m) hrest⟩

/-! The request (R39). -/

theorem quiesceRequest_requested (d : Dev) (q : QUnit) (h : d.qreq q = true) : d.quiesceRequest q = d := by
  unfold quiesceRequest
  rw [if_pos h]

/-- A write of one to QREQ of a slice is ignored (R42). -/
theorem quiesceRequest_xs (d : Dev) (x : Nat) : d.quiesceRequest (.xs x) = d := by
  unfold quiesceRequest
  split <;> rfl

theorem quiesceRequest_starts (d : Dev) (q : QUnit) (hxs : ∀ x, q ≠ .xs x) (hmp : q ≠ .mp) (h : d.qreq q = false) :
    d.quiesceRequest q = (d.setQ q true true false).setDrains (Sparse.ins d.core.drains q.ctrl d.lc) := by
  unfold quiesceRequest
  rw [if_neg (by simp [h])]
  cases q with
  | xs x => exact absurd rfl (hxs x)
  | mp => exact absurd rfl hmp
  | port | pl | vb | lake | oe | tu | ch => rfl

/-! The end of the drain (R39, R157). -/

theorem quiesceDrained_not (d : Dev) (q : QUnit) (h : (d.draining q && d.drained q) = false) : d.quiesceDrained q = d := by
  unfold quiesceDrained
  rw [if_neg (by simpa using h)]

theorem quiesceDrained_done (d : Dev) (q : QUnit) (h : (d.draining q && d.drained q) = true) : d.quiesceDrained q = d.setQuiesced q := by
  unfold quiesceDrained
  rw [if_pos (by simpa using h)]

theorem reg_setHr_other (d : Dev) (p n : Nat) {a : Nat} (h : a ≠ R.SC_PORT_FC p) : (d.setHr p n).reg a = d.reg a := reg_setFld_other _ _ _ _ _ h

theorem headroom_setHr (d : Dev) (p n : Nat) : (d.setHr p n).fld (R.SC_PORT_FC p) F.SC_PORT_FC_HEADROOM = n % 2 ^ 10 :=
  d.fld_setFld_same _ F.SC_PORT_FC_HEADROOM n (by decide) (by decide)

theorem hr_setHr (d : Dev) (p n : Nat) : Sparse.get 0 (d.setHr p n).core.hr p = n := Sparse.get_put_same 0 d.core.hr p n

theorem setQuiesced_port (d : Dev) (p : Nat) : d.setQuiesced (.port p) =
    ((d.setQ (.port p) true false true).setDrains (Sparse.del d.core.drains (QUnit.port p).ctrl)).setHr p 0 := rfl

theorem setQuiesced_ch (d : Dev) (c : Nat) : d.setQuiesced (.ch c) =
    let e := (d.setQ (.ch c) true false true).setDrains (Sparse.del d.core.drains (QUnit.ch c).ctrl)
    if e.chState c = 0 then e.setFld (R.DD_CHSTAT c) F.DD_CHSTAT_STATE 1 else e := rfl

theorem setQuiesced_plain (d : Dev) (q : QUnit) (hp : ∀ p, q ≠ .port p) (hc : ∀ c, q ≠ .ch c) :
    d.setQuiesced q = (d.setQ q true false true).setDrains (Sparse.del d.core.drains q.ctrl) := by
  cases q with
  | port p => exact absurd rfl (hp p)
  | ch c => exact absurd rfl (hc c)
  | pl | vb | xs | lake | oe | tu | mp => rfl

/-- Beside QCTRL and QSTAT quiescence writes the headroom word of a port and the state of a channel, and no other. -/
theorem reg_setQuiesced (d : Dev) (q : QUnit) {a : Nat} (hp : ∀ p, q = .port p → a ≠ R.SC_PORT_FC p) (hc : ∀ c, q = .ch c → a ≠ R.DD_CHSTAT c) :
    (d.setQuiesced q).reg a = (d.setQ q true false true).reg a := by
  cases q with
  | port p => rw [setQuiesced_port, reg_setHr_other _ _ _ (hp p rfl), reg_setDrains]
  | ch c =>
    rw [setQuiesced_ch]
    dsimp only
    split
    · rw [reg_setFld_other _ _ _ _ _ (hc c rfl), reg_setDrains]
    · rw [reg_setDrains]
  | pl | vb | xs | lake | oe | tu | mp => rw [setQuiesced_plain _ _ (by simp) (by simp), reg_setDrains]

theorem reg_setQuiesced_ctrl (d : Dev) (q : QUnit) : (d.setQuiesced q).reg q.ctrl = (d.setQ q true false true).reg q.ctrl := by
  apply reg_setQuiesced
  · rintro p rfl
    simp only [QUnit.ctrl, R.QCTRL_PORT, R.SC_PORT_FC]
    omega
  · rintro c rfl
    simp only [QUnit.ctrl, R.QCTRL_CH, R.DD_CHSTAT]
    omega

theorem reg_setQuiesced_stat (d : Dev) (q : QUnit) : (d.setQuiesced q).reg q.stat = (d.setQ q true false true).reg q.stat := by
  apply reg_setQuiesced
  · rintro p rfl
    simp only [QUnit.stat, QUnit.ctrl, R.QCTRL_PORT, R.SC_PORT_FC]
    omega
  · rintro c rfl
    simp only [QUnit.stat, QUnit.ctrl, R.QCTRL_CH, R.DD_CHSTAT]
    omega

theorem qreq_setQuiesced (d : Dev) (q : QUnit) : (d.setQuiesced q).qreq q = true := by
  rw [qreq_congr (d.reg_setQuiesced_ctrl q), qreq_setQ]

theorem draining_setQuiesced (d : Dev) (q : QUnit) : (d.setQuiesced q).draining q = false := by
  rw [draining_congr (d.reg_setQuiesced_stat q), draining_setQ]

theorem qack_setQuiesced (d : Dev) (q : QUnit) : (d.setQuiesced q).qack q = true := by
  rw [qack_congr (d.reg_setQuiesced_stat q), qack_setQ]

theorem pkts_setQuiesced (d : Dev) (q : QUnit) : (d.setQuiesced q).core.pkts = d.core.pkts := by
  cases q with
  | port p => rw [setQuiesced_port, setHr_pkts, setDrains_pkts, setQ_core]
  | ch c =>
    rw [setQuiesced_ch]
    dsimp only
    split
    · rw [setFld_core, setDrains_pkts, setQ_core]
    · rw [setDrains_pkts, setQ_core]
  | pl | vb | xs | lake | oe | tu | mp => rw [setQuiesced_plain _ _ (by simp) (by simp), setDrains_pkts, setQ_core]

/-- The headroom of a port that is quiesced returns to the pool (R157). -/
theorem headroom_setQuiesced (d : Dev) (p : Nat) : (d.setQuiesced (.port p)).fld (R.SC_PORT_FC p) F.SC_PORT_FC_HEADROOM = 0 ∧
    Sparse.get 0 (d.setQuiesced (.port p)).core.hr p = 0 := by
  rw [setQuiesced_port]
  exact ⟨headroom_setHr .., hr_setHr ..⟩

/-- A channel that is active enters self-refresh, and any other keeps its state. -/
theorem chState_setQuiesced (d : Dev) (c : Nat) : (d.setQuiesced (.ch c)).chState c = if d.chState c = 0 then 1 else d.chState c := by
  have hreg : (d.setQ (.ch c) true false true).reg (R.DD_CHSTAT c) = d.reg (R.DD_CHSTAT c) := by
    apply reg_setQ_other
    · simp only [QUnit.ctrl, R.QCTRL_CH, R.DD_CHSTAT]
      omega
    · simp only [QUnit.stat, QUnit.ctrl, R.QCTRL_CH, R.DD_CHSTAT]
      omega
  have hstate : (d.setQ (.ch c) true false true).chState c = d.chState c := by rw [chState, fld, hreg, chState, fld]
  rw [setQuiesced_ch]
  dsimp only
  rw [chState_setDrains, hstate]
  split
  · rw [chState, fld_setFld_same _ _ _ _ (by decide) (by decide)]
    rfl
  · rw [chState_setDrains, hstate]

/-! The release of a slice, and the cells that the crossbar carries (R42). -/

theorem quiesceRelease_spare (d : Dev) {x : Nat} (h : x = d.fld R.SC_SLICE F.SC_SLICE_SPARE) : d.quiesceRelease (.xs x) = d := by
  unfold quiesceRelease
  split
  · rfl
  · exact if_pos h

theorem quiesceRelease_xs (d : Dev) {x : Nat} (h : x ≠ d.fld R.SC_SLICE F.SC_SLICE_SPARE) (hq : d.qreq (.xs x) = true) :
    d.quiesceRelease (.xs x) = (d.setDrains (Sparse.del d.core.drains (R.QCTRL_XS x))).setQ (.xs x) false false false := by
  unfold quiesceRelease
  rw [if_neg (by simp [hq])]
  exact if_neg h

/-- QREQ in one slice that is not the spare one holds the whole crossbar. -/
theorem xbarOn_of_sliceRequested (d : Dev) {x : Nat} (hx : x < 17) (h : x ≠ d.fld R.SC_SLICE F.SC_SLICE_SPARE) (hq : d.qreq (.xs x) = true) :
    d.xbarOn = false := by
  have hactive : x ∈ d.activeSlices := by simp [activeSlices, hx, h]
  have hheld : (d.activeSlices.all fun s => !d.on (R.QCTRL_XS s) F.QREQ) = false :=
    List.all_eq_false.mpr ⟨x, hactive, by simpa [qreq, QUnit.ctrl] using hq⟩
  rw [xbarOn, hheld, Bool.and_false]

theorem slot_xbarOff (d : Dev) (full : List Nat) (errs : List PartErr) (h : d.xbarOn = false) :
    d.slot full errs = { d with core := { d.core with feFull := full } } := by
  unfold slot
  exact if_pos (ne_true_of_eq_false h)

end Dev

/-! The commands on a quiesce unit, where time may go on to their count. -/
section
variable (s : State) (now : Nat) (r : s.dev.inReset = false) (m : s.dev.mrdTrap now = false)
include r m

theorem exec_quiesceRequest {q : QUnit} (ok : q.ok = true) (reach : s.dev.reaches q.ctrl = true) :
    exec (.quiesceRequest now q) s = .next (s.after ((s.dev.advance now).quiesceRequest q)) :=
  need_eq ok (need_eq reach (timed_next now s _ r m))

theorem exec_quiesceRelease {q : QUnit} (ok : q.ok = true) (reach : s.dev.reaches q.ctrl = true) (good : (s.dev.advance now).badRelease q = false) :
    exec (.quiesceRelease now q) s = .next (s.after ((s.dev.advance now).quiesceRelease q)) :=
  need_eq ok (need_eq reach (predictable_eq good (timed_next now s _ r m)))

theorem exec_quiesceDrained {q : QUnit} (ok : q.ok = true) :
    exec (.quiesceDrained now q) s = .next (s.after ((s.dev.advance now).quiesceDrained q)) :=
  need_eq ok (timed_next now s _ r m)

theorem exec_crossbarSlot {full : List Nat} {errs : List Dev.PartErr} (wf : (Instr.crossbarSlot now full errs).wellFormed = true) :
    exec (.crossbarSlot now full errs) s = .next (s.after ((s.dev.advance now).slot full errs)) :=
  need_eq wf (timed_next now s _ r m)

end

/-- In Umber a write to QCTRL of a gated block leaves the state as it is (log entry 10). -/
theorem exec_quiesceRequest_unreached (s : State) (now : Nat) {q : QUnit} (ok : q.ok = true) (h : s.dev.reaches q.ctrl = false) :
    exec (.quiesceRequest now q) s = .next s :=
  need_eq ok (by rw [h, need_false])

theorem exec_quiesceRelease_unreached (s : State) (now : Nat) {q : QUnit} (ok : q.ok = true) (h : s.dev.reaches q.ctrl = false) :
    exec (.quiesceRelease now q) s = .next s :=
  need_eq ok (by rw [h, need_false])

/-- Outside Umber every block is within reach. -/
theorem Dev.reaches_awake (d : Dev) (a : Nat) (h : d.pwState ≠ 2) : d.reaches a = true := by simp [reaches, h]

/-- In Umber the slices of the crossbar are out of reach. -/
theorem Dev.reaches_xs_umber (d : Dev) {x : Nat} (hx : x < 17) (h : d.pwState = 2) : d.reaches (QUnit.xs x).ctrl = false := by
  simp [reaches, h, QUnit.umberBlock_ctrl_xs hx]

/-- All slices leave reset quiesced (R42). -/
theorem reset_xs_quiesced : ∀ x < 17, State.reset.dev.qreq (.xs x) = true ∧ State.reset.dev.qack (.xs x) = true := by decide

end Sys2Proof.Machine

open Sys2Proof Sys2Proof.Machine

/-- Settles O30: the unit out of reach, requested already, and not requested. -/
theorem quiesceRequestStartsTheDrain : Obligations.QuiesceRequestStartsTheDrain := by
  intro s now q r m ok hxs hmp d
  refine ⟨fun unreached => exec_quiesceRequest_unreached s now ok unreached, fun reach hreq => ?requested, fun reach hreq => ?starts⟩
  case requested => rw [exec_quiesceRequest s now r m ok reach, Dev.quiesceRequest_requested _ _ hreq]
  case starts =>
    refine ⟨_, by rw [exec_quiesceRequest s now r m ok reach, Dev.quiesceRequest_starts _ _ hxs hmp hreq], ?_, ?_, ?_,
      (d.setQ_regsOnly q true true false).setDrains _⟩
    · rw [Dev.qreq_setDrains, Dev.qreq_setQ]
    · rw [Dev.draining_setDrains, Dev.draining_setQ]
    · rw [Dev.qack_setDrains, Dev.qack_setQ]

/-- Settles O31: the drain that has not ended, and the quiescence of the unit. -/
theorem drainedUnitAcknowledges : Obligations.DrainedUnitAcknowledges := by
  intro s now q r m ok d
  rw [exec_quiesceDrained s now r m ok]
  refine ⟨fun h => by rw [Dev.quiesceDrained_not _ _ h], fun h => ?drained⟩
  refine ⟨_, by rw [Dev.quiesceDrained_done _ _ h], d.qreq_setQuiesced q, d.draining_setQuiesced q, d.qack_setQuiesced q, d.pkts_setQuiesced q, ?port, ?channel, ?frame⟩
  case port =>
    rintro p rfl
    exact d.headroom_setQuiesced p
  case channel =>
    rintro c rfl
    exact d.chState_setQuiesced c
  case frame =>
    intro a hctrl hstat hp hc
    rw [d.reg_setQuiesced q hp hc, d.reg_setQ_other q _ _ _ hctrl hstat]

/-- Settles O32: the slices at reset, in Umber, and outside it the request, the cell slot and the two releases. -/
theorem crossbarSlicesAndTheirQuiescence : Obligations.CrossbarSlicesAndTheirQuiescence := by
  refine ⟨by decide, fun x hx => ⟨reset_xs_quiesced x hx, fun s now r m => ?_⟩⟩
  have ok : (QUnit.xs x).ok = true := decide_eq_true hx
  refine ⟨fun umber => ?umber, fun awake => ?awake⟩
  case umber =>
    have unreached := s.dev.reaches_xs_umber hx umber
    exact ⟨exec_quiesceRequest_unreached s now ok unreached, exec_quiesceRelease_unreached s now ok unreached⟩
  case awake =>
    have reach := s.dev.reaches_awake (QUnit.xs x).ctrl awake
    refine ⟨?request, fun full errs wf active hreq => ?slot, fun good spare => ?spare, fun good active hreq => ?release⟩
    case request => rw [exec_quiesceRequest s now r m ok reach, Dev.quiesceRequest_xs]
    case slot => rw [exec_crossbarSlot s now r m wf, Dev.slot_xbarOff _ _ _ (Dev.xbarOn_of_sliceRequested _ hx active hreq)]
    case spare => rw [exec_quiesceRelease s now r m ok reach good, Dev.quiesceRelease_spare _ spare]
    case release =>
      refine ⟨_, by rw [exec_quiesceRelease s now r m ok reach good, Dev.quiesceRelease_xs _ active hreq], Dev.qreq_setQ .., Dev.qack_setQ .., ?_⟩
      rw [← QUnit.stat_xs]
      exact Dev.setQ_regsOnly _ (.xs x) false false false

end

section
/-! PROOFS. Mordant groups: the words of a group's window, writes of them, and the commands CLEAR, CANCEL and ARM. -/
namespace Sys2Proof.Machine

/-! A masked write of one whole field. -/

/-- The bits that a field's mask selects. -/
theorem land_fieldMask (n lo w : Nat) : Nat.land n ((2 ^ w - 1) * 2 ^ lo) = n / 2 ^ lo % 2 ^ w * 2 ^ lo := by
  apply Nat.eq_of_testBit_eq
  intro i
  change (n &&& (2 ^ w - 1) * 2 ^ lo).testBit i = _
  rw [Nat.testBit_and, Nat.testBit_mul_two_pow, Nat.testBit_mul_two_pow, Nat.testBit_two_pow_sub_one, Nat.testBit_mod_two_pow, Nat.testBit_div_two_pow]
  by_cases h : lo ≤ i
  · simp [h, Bool.and_comm]
  · simp [h]

/-- The bits that a field's mask leaves. -/
theorem xor_land_fieldMask (n lo w : Nat) :
    Nat.xor (Nat.land n ((2 ^ w - 1) * 2 ^ lo)) n = n / 2 ^ lo / 2 ^ w * 2 ^ w * 2 ^ lo + n % 2 ^ lo := by
  apply Nat.eq_of_testBit_eq
  intro i
  have hlow : n % 2 ^ lo < 2 ^ lo := Nat.mod_lt _ (Nat.two_pow_pos lo)
  change ((n &&& (2 ^ w - 1) * 2 ^ lo) ^^^ n).testBit i = _
  rw [Nat.testBit_xor, Nat.testBit_and, Nat.testBit_mul_two_pow, Nat.testBit_two_pow_sub_one, Nat.mul_comm _ (2 ^ lo),
    Nat.testBit_two_pow_mul_add _ hlow, Nat.testBit_mul_two_pow, Nat.testBit_mod_two_pow, Nat.testBit_div_two_pow, Nat.testBit_div_two_pow]
  by_cases h : lo ≤ i
  · by_cases k : w ≤ i - lo
    · simp [h, k, Nat.not_lt.mpr h, Nat.not_lt.mpr k]
    · simp [h, k, Nat.not_lt.mpr h, Nat.not_le.mp k]
  · simp [h, Nat.not_le.mp h]

/-- A write of a field's bits alone puts its value into the field. -/
theorem maskIn_field (n v lo w : Nat) (hw : 0 < w) : maskIn n ((2 ^ w - 1) * 2 ^ lo) (v * 2 ^ lo) = putBits n (lo + w - 1) lo v := by
  have hwidth : lo + w - 1 + 1 - lo = w := by omega
  rw [maskIn, xor_land_fieldMask, land_fieldMask, Nat.mul_div_cancel _ (Nat.two_pow_pos lo), putBits_eq, hwidth, Nat.add_mul]
  omega

/-! The window of a group (R43, R660). -/

theorem mrdAt_eq_some {a g o : Nat} : mrdAt a = some (g, o) ↔ g < 4 ∧ o < 0x4000 ∧ a = 0x01004000 + 0x4000 * g + o := by
  unfold mrdAt
  split
  · simp only [Option.some.injEq, Prod.mk.injEq]
    omega
  · simp only [reduceCtorEq, false_iff]
    omega

theorem mrdAt_ctrl {g : Nat} (hg : g < 4) : mrdAt (R.MRD_CTRL g) = some (g, 0) := mrdAt_eq_some.mpr ⟨hg, by decide, rfl⟩
theorem mrdAt_targetLo {g : Nat} (hg : g < 4) : mrdAt (R.MRD_TARGET_LO g) = some (g, 4) :=
  mrdAt_eq_some.mpr ⟨hg, by decide, by unfold R.MRD_TARGET_LO; omega⟩
theorem mrdAt_targetHi {g : Nat} (hg : g < 4) : mrdAt (R.MRD_TARGET_HI g) = some (g, 8) :=
  mrdAt_eq_some.mpr ⟨hg, by decide, by unfold R.MRD_TARGET_HI; omega⟩

section
variable {a g o : Nat} (h : mrdAt a = some (g, o))
include h

/-- The windows lie in the commit unit's block. -/
theorem block_of_mrdAt : a / 0x1000000 = 1 := by
  obtain ⟨hg, ho, rfl⟩ := mrdAt_eq_some.mp h
  omega

theorem offset_of_mrdAt : a % 0x1000000 = 0x4000 + 0x4000 * g + o := by
  obtain ⟨hg, ho, rfl⟩ := mrdAt_eq_some.mp h
  omega

theorem blockOf_of_mrdAt : blockOf a = some (famsCOMMIT, ctrsCOMMIT) := by simp [blockOf, block_of_mrdAt h]

theorem reservedBlock_of_mrdAt : reservedBlock a = false := by simp [reservedBlock, blockOf_of_mrdAt h]

theorem qunitAt_of_mrdAt : qunitAt a = none := by simp [qunitAt, block_of_mrdAt h]

theorem gclAt_of_mrdAt : Dev.gclAt a = none := by simp [Dev.gclAt, block_of_mrdAt h]

end

/-! Types of the fields in a group's window: none is RWB, and W1C are those of the status word alone. -/

theorem mem_of_findFam {off : Nat} {l : List RegFam} {f : RegFam} {i j : Nat} (h : findFam off l = some (f, i, j)) :
    f ∈ l ∧ famIndex f.base f.n1 f.s1 f.n2 f.s2 off = some (i, j) := by
  induction l with
  | nil => cases h
  | cons x l ih =>
    unfold findFam at h
    split at h
    · next hx =>
      cases h
      exact ⟨List.mem_cons_self, hx⟩
    · obtain ⟨hmem, hidx⟩ := ih h
      exact ⟨List.mem_cons_of_mem _ hmem, hidx⟩

/-- A mask of types that no field of the word has is empty. -/
theorem typeMask_eq_zero {a : Nat} {p : FTy → Bool} (h : ∀ f i j, regAt a = some (f, i, j) → ∀ x ∈ f.flds, p x.ty = false) : typeMask a p = 0 := by
  have hfields : (fieldsAt a).filter (fun x => p x.ty) = [] := by
    unfold fieldsAt
    split
    · next f i j hf => exact List.filter_eq_nil_iff.mpr fun x hx => by simp [h f i j hf x hx]
    · rfl
  rw [typeMask, hfields]
  rfl

section
variable {a g o : Nat} (h : mrdAt a = some (g, o))
include h

/-- A register in a group's window is one of the commit unit's families at the window's offset. -/
theorem regAt_of_mrdAt {f : RegFam} {i j : Nat} (hf : regAt a = some (f, i, j)) :
    f ∈ famsCOMMIT ∧ famIndex f.base f.n1 f.s1 f.n2 f.s2 (0x4000 + 0x4000 * g + o) = some (i, j) := by
  unfold regAt at hf
  rw [blockOf_of_mrdAt h] at hf
  dsimp only at hf
  rw [offset_of_mrdAt h] at hf
  exact mem_of_findFam hf

theorem typeMask_rwb_of_mrdAt : typeMask a (fun t => t = .rwb) = 0 := by
  refine typeMask_eq_zero fun f i j hf => ?_
  have hnone : ∀ f ∈ famsCOMMIT, ∀ x ∈ f.flds, decide (x.ty = .rwb) = false := by decide
  exact hnone f (regAt_of_mrdAt h hf).1

theorem typeMask_w1c_of_mrdAt (ho : o ≠ 0xC) : typeMask a (fun t => t = .w1c) = 0 := by
  refine typeMask_eq_zero fun f i j hf => ?_
  obtain ⟨hmem, hidx⟩ := regAt_of_mrdAt h hf
  have hstatus : ∀ f ∈ famsCOMMIT, (∀ x ∈ f.flds, decide (x.ty = .w1c) = false) ∨
      (f.base = 0x400C ∧ f.n1 = 1 ∧ f.s1 = 0x1000000 ∧ f.n2 = 4 ∧ f.s2 = 0x4000) := by decide
  obtain hnone | ⟨hbase, hn1, hs1, hn2, hs2⟩ := hstatus f hmem
  · exact hnone
  · obtain ⟨hg, hlt, -⟩ := mrdAt_eq_some.mp h
    rw [hbase, hn1, hs1, hn2, hs2] at hidx
    unfold famIndex at hidx
    split at hidx
    · cases hidx
    · dsimp only at hidx
      split at hidx
      · omega
      · cases hidx

end

namespace Dev

/-! Writes of a group's words. -/

theorem w1c_none (d : Dev) (a v : Nat) (h : typeMask a (fun t => t = .w1c) = 0) : d.w1c a v = d := by
  unfold w1c
  rw [h]
  exact if_pos (Nat.zero_and _)

theorem rwbPend_none (d : Dev) (a m v : Nat) (h : typeMask a (fun t => t = .rwb) = 0) : d.rwbPend a m v = d := by
  unfold rwbPend
  rw [h]
  exact if_pos (Nat.zero_and _)

section
variable (d : Dev) {a g o : Nat} (h : mrdAt a = some (g, o))
include h

/-- No word of a group's window acts on a write, but through `mrdWrite`. -/
theorem actOn_of_mrdAt (u : Fuses) (v w : Nat) : d.actOn u a v w = d := by
  obtain ⟨hg, ho, ha⟩ := mrdAt_eq_some.mp h
  have hblock := block_of_mrdAt h
  have hoff := offset_of_mrdAt h
  have hword {b : Nat} (hb : b < 0x01004000 ∨ 0x01014000 ≤ b) : a ≠ b := by omega
  unfold actOn
  simp only [hblock, hoff]
  rw [if_neg (by omega), if_neg (by omega), if_neg (hword (by decide)), if_neg (hword (by decide)), if_neg (hword (by decide)), if_neg (hword (by decide)),
    if_neg (hword (by decide)), if_neg (hword (by decide)), if_neg (hword (by decide)), if_neg (by omega)]

theorem putRw_of_mrdAt {mask : Nat} (hm : mask ≠ 0) (v : Nat) : d.putRw a mask v = d.mrdStage g o a (maskIn (d.reg a).toNat mask v) := by
  unfold putRw
  rw [if_neg hm, qunitAt_of_mrdAt h, h]

/-- No write changes the RW fields of an ARMED group (R43). -/
theorem putRw_armed (hs : d.mrdState g = 2) (mask v : Nat) : d.putRw a mask v = d := by
  by_cases hm : mask = 0
  · unfold putRw
    exact if_pos hm
  · rw [putRw_of_mrdAt d h hm, mrdStage, if_pos hs]

theorem csrWrite_of_mrdAt (u : Fuses) (m v : Nat) (h0 : o ≠ 0) (hC : o ≠ 0xC) :
    d.csrWrite u a m v = d.putRw a (Nat.land (typeMask a fun t => t = .rw || t = .rws) m) v := by
  obtain ⟨hg, ho, ha⟩ := mrdAt_eq_some.mp h
  have htpo : ¬(R.TPO_CTRL 0 ≤ a ∧ a < R.TPO_CTRL 4 ∧ (a - R.TPO_CTRL 0) % 0x20 = 0) := by
    simp only [R.TPO_CTRL]
    omega
  unfold csrWrite
  dsimp only
  rw [w1c_none _ _ _ (typeMask_w1c_of_mrdAt h hC), rwbPend_none _ _ _ _ (typeMask_rwb_of_mrdAt h), h, gclAt_of_mrdAt h]
  split
  · next heq =>
    cases heq
    exact absurd rfl h0
  · rw [if_neg htpo, actOn_of_mrdAt _ h]

/-- No write changes an item word or a target word of an ARMED group (R43). -/
theorem csrWrite_armed (u : Fuses) (m v : Nat) (h0 : o ≠ 0) (hC : o ≠ 0xC) (hs : d.mrdState g = 2) : d.csrWrite u a m v = d := by
  rw [csrWrite_of_mrdAt d h u m v h0 hC, putRw_armed d h hs]

end

theorem csrWrite_mrdCtrl (d : Dev) (u : Fuses) {g : Nat} (hg : g < 4) (m v : Nat) : ∃ count, d.csrWrite u (R.MRD_CTRL g) m v =
    d.mrdWrite g count (bit (Nat.land m v) 2) (bit (Nat.land m v) 1) (bit (Nat.land m v) 0) false := by
  have h := mrdAt_ctrl hg
  unfold csrWrite
  dsimp only
  rw [w1c_none _ _ _ (typeMask_w1c_of_mrdAt h (by decide)), rwbPend_none _ _ _ _ (typeMask_rwb_of_mrdAt h), h]
  exact ⟨_, rfl⟩

/-! A write of MRD_CTRL of an ARMED group (R43, R44, R47, R660). -/

section
variable (d : Dev) {g : Nat} (hg : g < 4) (hs : d.mrdState g = 2)
include hg hs

/-- COUNT, CLEAR and ARM are ignored. -/
theorem mrdWrite_armed (count : Nat) (clear arm ecc : Bool) : d.mrdWrite g count clear false arm ecc = d := by
  have hclear : d.mrdClear g = d := if_pos hs
  have harm : d.mrdArm g ecc = d := if_pos (.inr hs)
  simp [mrdWrite, putRw_armed d (mrdAt_ctrl hg) hs, hclear, harm]

theorem mrdWrite_cancel (count : Nat) : d.mrdWrite g count false true false false =
    if 2 ≤ d.beatsAhead (d.mrdTarget g) then d.setFld (R.MRD_STATUS g) F.MRD_STATUS_STATE 1 else d.setFld (R.MRD_STATUS g) F.MRD_STATUS_CANCEL_LATE 1 := by
  have hcancel : d.mrdWrite g count false true false false = d.mrdCancel g := by simp [mrdWrite, putRw_armed d (mrdAt_ctrl hg) hs]
  rw [hcancel, mrdCancel, if_neg (by simp [hs]), setMrdState]

end

/-! ARM of a group that is neither EMPTY nor ARMED: COUNT is written, then every check is made and sets its bit (R44). -/

/-- A bit of a register set where a condition holds. -/
def setWhen (d : Dev) (a : Nat) (b : Bool) (f : FR) : Dev := if b then d.setFld a f 1 else d

theorem fld_setWhen_elsewhere (d : Dev) (a c : Nat) (b : Bool) (f g : FR) (h : c ≠ a) : (d.setWhen a b f).fld c g = d.fld c g := by
  unfold setWhen
  split
  · exact fld_setFld_elsewhere _ _ _ _ _ _ h
  · rfl

theorem fld_setWhen_other (d : Dev) (a : Nat) (b : Bool) (f g : FR) (h : f.lo ≤ f.hi) (k : f.hi < 32) (o : g.hi < f.lo ∨ f.hi < g.lo) :
    (d.setWhen a b f).fld a g = d.fld a g := by
  unfold setWhen
  split
  · exact fld_setFld_other _ _ _ _ _ h k o
  · rfl

theorem on_setWhen_other (d : Dev) (a : Nat) (b : Bool) (f g : FR) (h : f.lo ≤ f.hi) (k : f.hi < 32) (o : g.hi < f.lo ∨ f.hi < g.lo) :
    (d.setWhen a b f).on a g = d.on a g := by
  rw [on, fld_setWhen_other _ _ _ _ _ h k o, on]

/-- The bit keeps a one that it held. -/
theorem on_setWhen_same (d : Dev) (a : Nat) (b : Bool) (f : FR) (h : f.lo = f.hi) (k : f.hi < 32) : (d.setWhen a b f).on a f = (d.on a f || b) := by
  unfold setWhen
  cases b with
  | false => simp
  | true =>
    have hone : (d.setFld a f 1).fld a f = 1 := by
      rw [fld_setFld_same _ _ _ _ h.le k, h]
      simp
    simp [on, hone]

theorem RegsOnly.setWhen {l : List Nat} {d e : Dev} (h : RegsOnly l d e) {a : Nat} (b : Bool) (f : FR) (ha : a ∈ l) : RegsOnly l d (e.setWhen a b f) := by
  unfold Dev.setWhen
  split
  · exact h.setFld _ _ ha
  · exact h

/-- The notes of the sessions that armed the groups replaced. -/
def setArmBy (d : Dev) (m : List (Nat × Nat)) : Dev := { d with csr := { d.csr with armBy := m } }

@[simp] theorem fld_setArmBy (d : Dev) (m : List (Nat × Nat)) (a : Nat) (f : FR) : (d.setArmBy m).fld a f = d.fld a f := rfl
@[simp] theorem on_setArmBy (d : Dev) (m : List (Nat × Nat)) (a : Nat) (f : FR) : (d.setArmBy m).on a f = d.on a f := rfl

theorem RegsOnly.armBy {l : List Nat} {d e : Dev} (h : RegsOnly l d e) : e.csr.armBy = d.csr.armBy := by
  obtain ⟨-, -, -, -, -, harm, -⟩ := h
  exact harm

/-- A frame holds as well with these notes replaced on both sides. -/
theorem RegsOnly.setArmBy {l : List Nat} {d e : Dev} (h : RegsOnly l d e) (m : List (Nat × Nat)) : RegsOnly l (d.setArmBy m) (e.setArmBy m) := by
  obtain ⟨hreg, hctrs, hrwb, hsnap, hlatch, -, hrest⟩ := h
  exact ⟨hreg, hctrs, hrwb, hsnap, hlatch, rfl, congrArg (·.setArmBy m) hrest⟩

/-- The bits of the checks that failed, set in the status word. -/
def armRefused (d : Dev) (g : Nat) (late conf typ ecc : Bool) : Dev :=
  (((d.setWhen (R.MRD_STATUS g) late F.MRD_STATUS_LATE).setWhen (R.MRD_STATUS g) conf F.MRD_STATUS_CONFLICT).setWhen (R.MRD_STATUS g) typ
    F.MRD_STATUS_TYPE).setWhen (R.MRD_STATUS g) ecc F.MRD_STATUS_ECC

/-- The group ARMED by no session. -/
def armDone (d : Dev) (g : Nat) : Dev := (d.setMrdState g 2).setArmBy (Sparse.del d.csr.armBy g)

theorem mrdArm_eq (d : Dev) (g : Nat) (ecc : Bool) (h0 : d.mrdState g ≠ 0) (h2 : d.mrdState g ≠ 2) : d.mrdArm g ecc =
    if d.mrdLate g || d.mrdConflict g || (d.mrdItems g).any (d.mrdBadItem g) || ecc
    then d.armRefused g (d.mrdLate g) (d.mrdConflict g) ((d.mrdItems g).any (d.mrdBadItem g)) ecc else d.armDone g := by
  unfold mrdArm
  exact if_neg (not_or.mpr ⟨h0, h2⟩)

theorem fld_armRefused_ctrl (d : Dev) (g : Nat) (late conf typ ecc : Bool) (f : FR) :
    (d.armRefused g late conf typ ecc).fld (R.MRD_CTRL g) f = d.fld (R.MRD_CTRL g) f := by
  have hne : R.MRD_CTRL g ≠ R.MRD_STATUS g := by
    unfold R.MRD_CTRL R.MRD_STATUS
    omega
  simp only [armRefused, fld_setWhen_elsewhere _ _ _ _ _ _ hne]

theorem mrdState_armRefused (d : Dev) (g : Nat) (late conf typ ecc : Bool) : (d.armRefused g late conf typ ecc).mrdState g = d.mrdState g := by
  unfold armRefused mrdState
  simp (disch := decide) only [fld_setWhen_other]

/-- Each check that failed sets its own bit. -/
theorem on_armRefused (d : Dev) (g : Nat) (late conf typ ecc : Bool) :
    (d.armRefused g late conf typ ecc).on (R.MRD_STATUS g) F.MRD_STATUS_LATE = (d.on (R.MRD_STATUS g) F.MRD_STATUS_LATE || late) ∧
    (d.armRefused g late conf typ ecc).on (R.MRD_STATUS g) F.MRD_STATUS_CONFLICT = (d.on (R.MRD_STATUS g) F.MRD_STATUS_CONFLICT || conf) ∧
    (d.armRefused g late conf typ ecc).on (R.MRD_STATUS g) F.MRD_STATUS_TYPE = (d.on (R.MRD_STATUS g) F.MRD_STATUS_TYPE || typ) ∧
    (d.armRefused g late conf typ ecc).on (R.MRD_STATUS g) F.MRD_STATUS_ECC = (d.on (R.MRD_STATUS g) F.MRD_STATUS_ECC || ecc) := by
  unfold armRefused
  refine ⟨?_, ?_, ?_, ?_⟩ <;> simp (disch := decide) only [on_setWhen_same, on_setWhen_other]

theorem armRefused_regsOnly {l : List Nat} {d e : Dev} {g : Nat} (h : RegsOnly l d e) (hg : R.MRD_STATUS g ∈ l) (late conf typ ecc : Bool) :
    RegsOnly l d (e.armRefused g late conf typ ecc) :=
  (((h.setWhen late _ hg).setWhen conf _ hg).setWhen typ _ hg).setWhen ecc _ hg

theorem fld_armDone_ctrl (d : Dev) (g : Nat) (f : FR) : (d.armDone g).fld (R.MRD_CTRL g) f = d.fld (R.MRD_CTRL g) f := by
  have hne : R.MRD_CTRL g ≠ R.MRD_STATUS g := by
    unfold R.MRD_CTRL R.MRD_STATUS
    omega
  rw [armDone, fld_setArmBy, setMrdState, fld_setFld_elsewhere _ _ _ _ _ _ hne]

theorem mrdState_armDone (d : Dev) (g : Nat) : (d.armDone g).mrdState g = 2 := by
  rw [armDone, mrdState, fld_setArmBy, setMrdState, fld_setFld_same _ _ _ _ (by decide) (by decide)]
  rfl

/-- The bits above STATE are as they were. -/
theorem on_armDone_status (d : Dev) (g : Nat) {f : FR} (hf : 1 < f.lo) : (d.armDone g).on (R.MRD_STATUS g) f = d.on (R.MRD_STATUS g) f := by
  rw [armDone, on_setArmBy, setMrdState, on_setFld_other _ _ _ _ _ (by decide) (by decide) (.inr hf)]

theorem armDone_regsOnly {l : List Nat} {d e : Dev} {g : Nat} (h : RegsOnly l d e) (hg : R.MRD_STATUS g ∈ l) :
    RegsOnly l (d.setArmBy (Sparse.del d.csr.armBy g)) (e.armDone g) := by
  rw [armDone, h.armBy]
  exact (h.setFld _ _ hg).setArmBy _

/-- The write of COUNT that comes with an ARM. -/
def setCount (d : Dev) (g count : Nat) : Dev := d.setFld (R.MRD_CTRL g) F.MRD_CTRL_COUNT count

theorem reg_setCount (d : Dev) (g count : Nat) {a : Nat} (h : a ≠ R.MRD_CTRL g) : (d.setCount g count).reg a = d.reg a := reg_setFld_other _ _ _ _ _ h

theorem count_setCount (d : Dev) (g : Nat) {count : Nat} (h : count < 1024) : (d.setCount g count).fld (R.MRD_CTRL g) F.MRD_CTRL_COUNT = count := by
  rw [setCount, fld_setFld_same _ _ _ _ (by decide) (by decide)]
  exact Nat.mod_eq_of_lt h

@[simp] theorem on_setCount_status (d : Dev) (g count h : Nat) (f : FR) : (d.setCount g count).on (R.MRD_STATUS h) f = d.on (R.MRD_STATUS h) f := by
  refine on_setFld_elsewhere _ _ _ _ _ _ ?_
  unfold R.MRD_CTRL R.MRD_STATUS
  omega

@[simp] theorem mrdState_setCount (d : Dev) (g count h : Nat) : (d.setCount g count).mrdState h = d.mrdState h := by
  refine fld_setFld_elsewhere _ _ _ _ _ _ ?_
  unfold R.MRD_CTRL R.MRD_STATUS
  omega

@[simp] theorem mrdTarget_setCount (d : Dev) (g count h : Nat) : (d.setCount g count).mrdTarget h = d.mrdTarget h := by
  have hlo : R.MRD_TARGET_LO h ≠ R.MRD_CTRL g := by
    unfold R.MRD_CTRL R.MRD_TARGET_LO
    omega
  have hhi : R.MRD_TARGET_HI h ≠ R.MRD_CTRL g := by
    unfold R.MRD_CTRL R.MRD_TARGET_HI
    omega
  rw [mrdTarget, reg_setCount _ _ _ hlo, reg_setCount _ _ _ hhi, mrdTarget]

@[simp] theorem time_setCount (d : Dev) (g count : Nat) : (d.setCount g count).time = d.time := setFld_time ..

@[simp] theorem beatsAhead_setCount (d : Dev) (g count n : Nat) : (d.setCount g count).beatsAhead n = d.beatsAhead n := by
  rw [beatsAhead, beatNo, time_setCount, beatsAhead, beatNo]

theorem mrdLate_setCount (d : Dev) (g count : Nat) : (d.setCount g count).mrdLate g = d.mrdLate g := by
  rw [mrdLate, mrdTarget_setCount, beatsAhead_setCount, mrdLate]

theorem mrdConflict_setCount (d : Dev) (g count : Nat) : (d.setCount g count).mrdConflict g = d.mrdConflict g := by
  simp only [mrdConflict, mrdState_setCount, mrdTarget_setCount]

@[simp] theorem mrdBadItem_setCount (d : Dev) (g count : Nat) : (d.setCount g count).mrdBadItem g = d.mrdBadItem g := by
  funext i
  have haddr : R.MRD_ITEM_ADDR g i ≠ R.MRD_CTRL g := by
    unfold R.MRD_CTRL R.MRD_ITEM_ADDR
    omega
  have hmask : R.MRD_ITEM_MASK g i ≠ R.MRD_CTRL g := by
    unfold R.MRD_CTRL R.MRD_ITEM_MASK
    omega
  have hvalue : R.MRD_ITEM_VALUE g i ≠ R.MRD_CTRL g := by
    unfold R.MRD_CTRL R.MRD_ITEM_VALUE
    omega
  have hitem : (d.setCount g count).mrdItem g i = d.mrdItem g i := by
    rw [mrdItem, reg_setCount _ _ _ haddr, reg_setCount _ _ _ hmask, reg_setCount _ _ _ hvalue, mrdItem]
  rw [mrdBadItem, hitem, mrdBadItem]

theorem mrdItems_setCount (d : Dev) (g : Nat) {count : Nat} (h : count < 1024) : (d.setCount g count).mrdItems g = List.range (min count 512) := by
  rw [mrdItems, count_setCount _ _ h]

theorem mrdWrite_arm (d : Dev) {g count : Nat} (ecc : Bool) (hg : g < 4) (hc : count < 1024) (h0 : d.mrdState g ≠ 0) (h2 : d.mrdState g ≠ 2) :
    d.mrdWrite g count false false true ecc = (d.setCount g count).mrdArm g ecc := by
  have hmask : maskIn (d.reg (R.MRD_CTRL g)).toNat (1023 * 65536) (count * 65536) = putBits (d.reg (R.MRD_CTRL g)).toNat 25 16 count := by
    simpa using maskIn_field (d.reg (R.MRD_CTRL g)).toNat count 16 10 (by decide)
  have hput : d.putRw (R.MRD_CTRL g) (1023 * 65536) (count % 1024 * 65536) = d.setCount g count := by
    have hword : d.setNum (R.MRD_CTRL g) (putBits (d.reg (R.MRD_CTRL g)).toNat 25 16 count) = d.setCount g count := rfl
    rw [putRw_of_mrdAt d (mrdAt_ctrl hg) (by decide), mrdStage, if_neg h2, Nat.mod_eq_of_lt hc, hmask]
    dsimp only
    rw [hword, mrdState_setCount, if_neg (fun h => h0 h.2)]
  unfold mrdWrite
  rw [hput]
  simp only [Bool.false_eq_true, if_false, if_true]

end Dev

/-! The commands on a group outside Umber, where time may go on to their count. -/
section
variable (s : State) (now : Nat) (r : s.dev.inReset = false) (m : s.dev.mrdTrap now = false) (awake : s.dev.pwState ≠ 2)
include r m awake

theorem exec_mrdClear {g : Nat} (hg : g < 4) (count : Nat) :
    exec (.mrdClear now g count) s = .next (s.after ((s.dev.advance now).mrdWrite g count true false false false)) :=
  need_eq (decide_eq_true hg) (need_eq (s.dev.reaches_awake _ awake) (timed_next now s _ r m))

theorem exec_mrdCancel {g : Nat} (hg : g < 4) (count : Nat) :
    exec (.mrdCancel now g count) s = .next (s.after ((s.dev.advance now).mrdWrite g count false true false false)) :=
  need_eq (decide_eq_true hg) (need_eq (s.dev.reaches_awake _ awake) (timed_next now s _ r m))

theorem exec_mrdArm {g : Nat} (hg : g < 4) (count : Nat) (ecc : Bool) :
    exec (.mrdArm now g count ecc) s = .next (s.after ((s.dev.advance now).mrdWrite g count false false true ecc)) :=
  need_eq (decide_eq_true hg) (need_eq (s.dev.reaches_awake _ awake) (timed_next now s _ r m))

theorem exec_mrdStage {a g o : Nat} (v : Nat) (h : mrdAt a = some (g, o)) (ha : a % 4 = 0) (ho : o = 0 ∨ isItem o = true)
    (good : (s.dev.advance now).unpredictable none a (2 ^ 32 - 1) (v % 2 ^ 32) = false) :
    exec (.mrdStage now a v) s = .next (s.after ((s.dev.advance now).csrWrite s.fuse a (2 ^ 32 - 1) (v % 2 ^ 32))) := by
  refine need_eq ?_ (need_eq (s.dev.reaches_awake _ awake) (predictable_eq good (timed_next now s _ r m)))
  rw [h]
  simpa [ha] using ho

end

/-- A register write of a word of a group's window. -/
theorem exec_registerWrite_of_mrdAt (s : State) (r : s.dev.inReset = false) (awake : s.dev.pwState ≠ 2) {a g o : Nat} (v : Nat) (h : mrdAt a = some (g, o)) (ha : a % 4 = 0)
    (good : s.dev.unpredictable none a (2 ^ 32 - 1) (v % 2 ^ 32) = false) :
    exec (.registerWrite a v) s = .next (s.after (s.dev.csrWrite s.fuse a (2 ^ 32 - 1) (v % 2 ^ 32))) := by
  have hwrite : s.dev.registerWrite s.fuse a (v % 2 ^ 32) = s.dev.csrWrite s.fuse a (2 ^ 32 - 1) (v % 2 ^ 32) :=
    if_neg (by simp [reservedBlock_of_mrdAt h, ha])
  rw [← hwrite]
  exact need_eq (s.dev.reaches_awake _ awake) (predictable_eq (by rw [good, Bool.and_false]) (act_next s _ r))

end Sys2Proof.Machine

open Sys2Proof Sys2Proof.Machine

/-- Settles O34: the checks are made on the group with its new COUNT, whose other words are as they were; either one fails or the group is ARMED. -/
theorem armChecksTheGroup : Obligations.ArmChecksTheGroup := by
  intro s now g count ecc r m hg awake hc d hs ahead late conf typ st
  have h0 : d.mrdState g ≠ 0 := by omega
  have h2 : d.mrdState g ≠ 2 := by omega
  have hlate : (d.setCount g count).mrdLate g = late := by rw [Dev.mrdLate_setCount, Dev.mrdLate, ← Bool.decide_or]
  have hconf : (d.setCount g count).mrdConflict g = conf := d.mrdConflict_setCount g count
  have htyp : ((d.setCount g count).mrdItems g).any ((d.setCount g count).mrdBadItem g) = typ := by
    rw [d.mrdItems_setCount g hc, d.mrdBadItem_setCount]
  have hframe : Dev.RegsOnly [R.MRD_CTRL g, st] d (d.setCount g count) := (Dev.RegsOnly.refl _ d).setFld _ _ (by simp)
  have harm := (d.setCount g count).mrdArm_eq g ecc (by rwa [Dev.mrdState_setCount]) (by rwa [Dev.mrdState_setCount])
  rw [hlate, hconf, htyp] at harm
  rw [exec_mrdArm s now r m awake hg, d.mrdWrite_arm ecc hg hc h0 h2, harm]
  cases hbad : late || conf || typ || ecc with
  | true =>
    obtain ⟨hL, hC, hT, hE⟩ := (d.setCount g count).on_armRefused g late conf typ ecc
    simp only [Dev.on_setCount_status] at hL hC hT hE
    simp only [if_true]
    refine ⟨_, rfl, Dev.armRefused_regsOnly hframe (by simp [st]) .., ?_, hL, hC, hT, hE, ?_⟩
    · rw [Dev.fld_armRefused_ctrl, d.count_setCount g hc]
    · rw [Dev.mrdState_armRefused, Dev.mrdState_setCount]
  | false =>
    obtain ⟨⟨⟨hL, hC⟩, hT⟩, hE⟩ : ((late = false ∧ conf = false) ∧ typ = false) ∧ ecc = false := by simpa using hbad
    have hstatus {f : FR} (hf : 1 < f.lo) : ((d.setCount g count).armDone g).on st f = (d.on st f || false) := by
      rw [Dev.on_armDone_status _ _ hf, Dev.on_setCount_status, Bool.or_false]
    simp only [Bool.false_eq_true, if_false]
    rw [hL, hC, hT, hE]
    refine ⟨_, rfl, Dev.armDone_regsOnly hframe (by simp [st]), ?_, hstatus (by decide), hstatus (by decide), hstatus (by decide), hstatus (by decide),
      Dev.mrdState_armDone ..⟩
    rw [Dev.fld_armDone_ctrl, d.count_setCount g hc]

/-- Settles O35: in an ARMED group MRD_CTRL does what its CANCEL does. -/
theorem cancelReturnsTheGroupToStaged : Obligations.CancelReturnsTheGroupToStaged := by
  intro s now g count r m hg awake d hs
  rw [exec_mrdCancel s now r m awake hg, Dev.mrdWrite_cancel _ hg hs]

/-- Settles O33: the item words, MRD_CTRL without CANCEL, CLEAR, ARM, and the two target words. -/
theorem armedGroupKeepsItsItems : Obligations.ArmedGroupKeepsItsItems := by
  intro s now g r m hg awake d
  refine ⟨fun hs => ⟨fun a o v h hitem ha good => ?item, fun v hcancel good => ?ctrl, fun count => ?clear, fun count ecc => ?arm⟩,
    fun hs a v ha good => ?target⟩
  case item =>
    have ho : o ≠ 0 ∧ o ≠ 0xC := by
      simp only [isItem, Bool.and_eq_true, decide_eq_true_eq] at hitem
      omega
    rw [exec_mrdStage s now r m awake v h ha (.inr hitem) good, Dev.csrWrite_armed _ h _ _ _ ho.1 ho.2 hs]
  case ctrl =>
    have hword : Nat.land (2 ^ 32 - 1) (v % 2 ^ 32) = v % 2 ^ 32 := by
      change (2 ^ 32 - 1) &&& v % 2 ^ 32 = _
      rw [Nat.and_comm, Nat.and_two_pow_sub_one_eq_mod, Nat.mod_mod]
    obtain ⟨count, hwrite⟩ := d.csrWrite_mrdCtrl s.fuse hg (2 ^ 32 - 1) (v % 2 ^ 32)
    rw [exec_mrdStage s now r m awake v (mrdAt_ctrl hg) (by unfold R.MRD_CTRL; omega) (.inl rfl) good, hwrite, hword, hcancel,
      Dev.mrdWrite_armed _ hg hs]
  case clear => rw [exec_mrdClear s now r m awake hg, Dev.mrdWrite_armed _ hg hs]
  case arm => rw [exec_mrdArm s now r m awake hg, Dev.mrdWrite_armed _ hg hs]
  case target =>
    obtain rfl | rfl := ha
    · rw [exec_registerWrite_of_mrdAt s r awake v (mrdAt_targetLo hg) (by unfold R.MRD_TARGET_LO; omega) good,
        Dev.csrWrite_armed _ (mrdAt_targetLo hg) _ _ _ (by decide) (by decide) hs]
    · rw [exec_registerWrite_of_mrdAt s r awake v (mrdAt_targetHi hg) (by unfold R.MRD_TARGET_HI; omega) good,
        Dev.csrWrite_armed _ (mrdAt_targetHi hg) _ _ _ (by decide) (by decide) hs]

end

section
/-! PROOFS. The management port's link and the sessions on the port. -/
namespace Sys2Proof.Machine.Dev

/-! What the close of a session leaves alone, and the slot that it frees (spec/14_control_protocol.md R480, R481). -/

theorem csr_closeSess (d : Dev) (n cause : Nat) : (d.closeSess n cause).csr = d.csr := by
  unfold closeSess
  dsimp only
  split_ifs <;> rfl

theorem mpUp_closeSess (d : Dev) (n cause : Nat) : (d.closeSess n cause).mgmt.mpUp = d.mgmt.mpUp := by
  unfold closeSess
  dsimp only
  split_ifs <;> rfl

theorem sess_closeSess (d : Dev) (n cause : Nat) :
    (d.closeSess n cause).mgmt.sess = if (d.sessAt n).state = 0 then d.mgmt.sess else d.mgmt.sess.set n {} := by
  unfold closeSess
  dsimp only
  split_ifs <;> rfl

theorem length_sess_closeSess (d : Dev) (n cause : Nat) : (d.closeSess n cause).mgmt.sess.length = d.mgmt.sess.length := by
  rw [sess_closeSess]
  split
  · rfl
  · exact List.length_set

theorem sessAt_closeSess_same (d : Dev) {n : Nat} (cause : Nat) (h : n < d.mgmt.sess.length) :
    (d.closeSess n cause).sessAt n = if (d.sessAt n).state = 0 then d.sessAt n else {} := by
  unfold sessAt
  rw [sess_closeSess, sessAt]
  split
  · rfl
  · simp [List.getD, h]

theorem sessAt_closeSess_other (d : Dev) {n m : Nat} (cause : Nat) (h : m ≠ n) : (d.closeSess n cause).sessAt m = d.sessAt m := by
  unfold sessAt
  rw [sess_closeSess]
  split
  · rfl
  · simp [List.getD, h.symm]

/-! Every session that passes a test closes, and no other. -/

/-- A session closed where it passes the test. -/
def closeIf (f : Sess → Bool) (cause : Nat) (d : Dev) (n : Nat) : Dev := if f (d.sessAt n) then d.closeSess n cause else d

/-- What becomes of the slot of a session. -/
def slotAfter (f : Sess → Bool) (x : Sess) : Sess := if f x = true ∧ x.state ≠ 0 then {} else x

theorem closeWhere_eq (d : Dev) (f : Sess → Bool) (cause : Nat) : d.closeWhere f cause = (List.range 8).foldl (closeIf f cause) d := rfl

/-- What a closed session leaves alone, closing several leaves alone. -/
theorem foldl_closeIf_keeps {α : Type} (g : Dev → α) (hg : ∀ d n cause, g (closeSess d n cause) = g d) (f : Sess → Bool) (cause : Nat) (l : List Nat) (d : Dev) :
    g (l.foldl (closeIf f cause) d) = g d := by
  induction l generalizing d with
  | nil => rfl
  | cons n l ih =>
    rw [List.foldl_cons, ih, closeIf]
    split
    · exact hg ..
    · rfl

theorem slotAfter_slotAfter (f : Sess → Bool) (x : Sess) : slotAfter f (slotAfter f x) = slotAfter f x := by
  by_cases h : f x = true ∧ x.state ≠ 0
  · have hempty : slotAfter f x = {} := if_pos h
    rw [hempty]
    exact if_neg fun h => h.2 rfl
  · have hkept : slotAfter f x = x := if_neg h
    rw [hkept, hkept]

theorem sessAt_closeIf (f : Sess → Bool) (cause : Nat) (d : Dev) {n : Nat} (hn : n < d.mgmt.sess.length) (m : Nat) :
    (closeIf f cause d n).sessAt m = if m = n then slotAfter f (d.sessAt m) else d.sessAt m := by
  unfold closeIf slotAfter
  by_cases h : m = n
  · subst h
    by_cases hf : f (d.sessAt m) = true
    · by_cases hs : (d.sessAt m).state = 0 <;> simp [hf, hs, sessAt_closeSess_same d cause hn]
    · simp [hf]
  · rw [if_neg h]
    split
    · exact sessAt_closeSess_other d cause h
    · rfl

theorem sessAt_foldl_closeIf (f : Sess → Bool) (cause : Nat) (l : List Nat) (d : Dev) (hl : ∀ n ∈ l, n < d.mgmt.sess.length) (m : Nat) :
    (l.foldl (closeIf f cause) d).sessAt m = if m ∈ l then slotAfter f (d.sessAt m) else d.sessAt m := by
  induction l generalizing d with
  | nil => rfl
  | cons n l ih =>
    obtain ⟨hn, hl⟩ := List.forall_mem_cons.mp hl
    have hlen : (closeIf f cause d n).mgmt.sess.length = d.mgmt.sess.length :=
      foldl_closeIf_keeps (fun d => d.mgmt.sess.length) length_sess_closeSess f cause [n] d
    rw [List.foldl_cons, ih _ (by rwa [hlen]), sessAt_closeIf f cause d hn]
    by_cases hmn : m = n
    · simp [hmn, slotAfter_slotAfter]
    · simp [hmn]

/-! The port's link (R465, R480). -/

theorem csr_closePort (d : Dev) : d.closePort.csr = d.csr := by
  rw [closePort, closeWhere_eq]
  exact foldl_closeIf_keeps (fun d => d.csr) csr_closeSess _ 4 (List.range 8) d

theorem mpUp_closePort (d : Dev) : d.closePort.mgmt.mpUp = d.mgmt.mpUp := by
  rw [closePort, closeWhere_eq]
  exact foldl_closeIf_keeps (fun d => d.mgmt.mpUp) mpUp_closeSess _ 4 (List.range 8) d

/-- Sessions by fabric packets, whose endpoint is of kind 2, stay open. -/
theorem sessAt_closePort (d : Dev) (h : d.mgmt.sess.length = 8) {n : Nat} (hn : n < 8) :
    d.closePort.sessAt n = if (d.sessAt n).ep.kind ≠ 2 ∧ (d.sessAt n).state ≠ 0 then {} else d.sessAt n := by
  rw [closePort, closeWhere_eq, sessAt_foldl_closeIf _ _ _ _ (by simp [h]), if_pos (List.mem_range.mpr hn), slotAfter]
  simp only [decide_eq_true_eq]

theorem mgmtLink_down (d : Dev) (kr cr : Bool) : d.mgmtLink false kr cr = closePort { d with mgmt := { d.mgmt with mpUp := false } } := rfl

theorem mgmtLink_up (d : Dev) (kr cr : Bool) : d.mgmtLink true kr cr =
    if d.qreq .mp = false ∧ d.mgmt.stopped = false ∧ d.mgmt.image ≠ [] ∧ (if d.on R.MP_CTRL F.MP_CTRL_MODE then cr else kr) = true
    then { d with mgmt := { d.mgmt with mpUp := true } } else d := by
  unfold mgmtLink
  rw [if_pos rfl, ← ite_not]
  refine if_congr ?_ rfl rfl
  simp only [not_or, ne_eq, Bool.not_eq_true, Bool.not_eq_false]

end Sys2Proof.Machine.Dev

namespace Sys2Proof.Machine

theorem exec_mgmtPortLinkChange (s : State) (now : Nat) (r : s.dev.inReset = false) (m : s.dev.mrdTrap now = false) (up kr cr : Bool) :
    exec (.mgmtPortLinkChange now up kr cr) s = .next (s.after ((s.dev.advance now).mgmtLink up kr cr)) :=
  timed_next now s (fun d _ => d.mgmtLink up kr cr) r m

end Sys2Proof.Machine

open Sys2Proof Sys2Proof.Machine

/-- Settles O29: the link going down, and coming up or not. -/
theorem managementLinkDownClosesItsSessions : Obligations.ManagementLinkDownClosesItsSessions := by
  intro s now kr cr r m d offered
  refine ⟨fun hlen => ⟨_, by rw [exec_mgmtPortLinkChange s now r m, Dev.mgmtLink_down], ?closed, ?registers, fun n hn => ?sessions⟩,
    by rw [exec_mgmtPortLinkChange s now r m, Dev.mgmtLink_up]⟩
  case closed => rw [Dev.mpUp_closePort]
  case registers => rw [Dev.csr_closePort]
  case sessions => exact Dev.sessAt_closePort { d with mgmt := { d.mgmt with mpUp := false } } hlen hn

end

section
/-! PROOFS. The commands of the packet path complete. -/
open Sys2Proof Sys2Proof.Machine

/-- Settles O52: each command composed as its definition composes it, from its conditions and the way of its effect. -/
theorem packetCommandsComplete : Obligations.PacketCommandsComplete := by
  intro s r
  dsimp only [exec]
  refine ⟨?packetHeaderArrival, ?payloadEnd, ?emOverflowLookupDone, ?emLearnApply, ?emAgeOut, ?fenceRelease, ?fenceStallRelease, ?crossbarSlot,
    ?sliceHardFault, ?ageLimit, ?egressChoose, ?launchTimeReached, ?transmitComplete, ?originatedAdmit, ?gclGo, ?gclCancel, ?gclHandover,
    ?gateIntervalExpiry⟩
  case packetHeaderArrival => exact fun _ _ _ _ _ m wf good => need_eq wf (predictable_eq good (timed_next _ s _ r m))
  case emAgeOut => exact fun _ _ _ _ m wf good => need_eq wf (predictable_eq good (timed_next _ s _ r m))
  case fenceRelease | fenceStallRelease => exact fun _ _ m good => predictable_eq good (timed_next _ s _ r m)
  case emOverflowLookupDone | ageLimit => exact fun _ _ _ m => timed_next _ s _ r m
  case originatedAdmit => exact fun _ _ m => timed_next _ s _ r m
  case gclHandover => exact fun _ m => timed_next _ s _ r m
  case payloadEnd => exact fun _ _ _ _ _ m wf => need_eq wf (timed_next _ s _ r m)
  case emLearnApply | crossbarSlot | launchTimeReached | transmitComplete => exact fun _ _ _ m wf => need_eq wf (timed_next _ s _ r m)
  case sliceHardFault | egressChoose | gateIntervalExpiry => exact fun _ _ m wf => need_eq wf (timed_next _ s _ r m)
  case gclGo => exact fun _ _ _ _ m wf reach good => need_eq wf (need_eq reach (predictable_eq good (timed_next _ s _ r m)))
  case gclCancel => exact fun _ _ _ _ m wf reach => need_eq wf (need_eq reach (timed_next _ s _ r m))

end

section
/-! PROOFS. The header of a packet reads back from the bytes that carry it. -/
namespace Sys2Proof.Machine

/-! Numbers as bytes (R10, R11). -/

theorem length_leBytes (n k : Nat) : (leBytes n k).length = k := by
  induction k generalizing n with
  | zero => rfl
  | succ k ih => rw [leBytes, List.length_cons, ih]

@[simp] theorem length_beBytes (n k : Nat) : (beBytes n k).length = k := by rw [beBytes, List.length_reverse, length_leBytes]

theorem leNat_leBytes (n k : Nat) : leNat (leBytes n k) = n % 256 ^ k := by
  induction k generalizing n with
  | zero => rw [leBytes, leNat, pow_zero, Nat.mod_one]
  | succ k ih => 
    rw [leBytes, leNat, ih, BitVec.toNat_ofNat, pow_succ' 256]
    exact Nat.mod_mul.symm

theorem beNat_reverse (l : List Byte) : beNat l.reverse = leNat l := by
  induction l with
  | nil => rfl
  | cons b l ih =>
    have hlast : beNat (l.reverse ++ [b]) = beNat l.reverse * 256 + b.toNat := by simp [beNat]
    rw [List.reverse_cons, hlast, ih, leNat]
    omega

/-- A number sent in big-endian bytes reads as its low bits. -/
theorem beNat_beBytes (n k : Nat) : beNat (beBytes n k) = n % 256 ^ k := by rw [beBytes, beNat_reverse, leNat_leBytes]

/-! Parts of a byte string. -/

theorem slice_append_left {l : List Byte} {k : Nat} (r : List Byte) (h : l.length = k) : slice (l ++ r) 0 k = l := by
  simp [slice, ← h]

theorem slice_append_right {l : List Byte} {m : Nat} (r : List Byte) (o k : Nat) (h : l.length = m) : slice (l ++ r) (m + o) k = slice r o k := by
  simp only [slice, ← h, List.drop_length_add_append]

theorem hdrWord_first {n : Nat} (h : n < 2 ^ 32) (r : List Byte) : hdrWord (beBytes n 4 ++ r) 0 = n := by
  rw [hdrWord, Nat.mul_zero, slice_append_left _ (length_beBytes n 4), beNat_beBytes]
  exact Nat.mod_eq_of_lt h

theorem hdrWord_append {l : List Byte} {m : Nat} (r : List Byte) (k : Nat) (h : l.length = 4 * m) : hdrWord (l ++ r) (m + k) = hdrWord r k := by
  rw [hdrWord, Nat.mul_add, slice_append_right _ _ _ h, hdrWord]

theorem hdrWord_next (n : Nat) (r : List Byte) (k : Nat) : hdrWord (beBytes n 4 ++ r) (k + 1) = hdrWord r k := by
  rw [Nat.add_comm, hdrWord_append r k (length_beBytes n 4)]

/-! The header CRC is a 16-bit number (R80). -/

theorem crcBitMsb_lt {w poly : Nat} (h : poly < 2 ^ w) (crc : Nat) (b : Bool) : crcBitMsb w poly crc b < 2 ^ w := by
  have hshift : crc * 2 % 2 ^ w < 2 ^ w := Nat.mod_lt _ (Nat.two_pow_pos w)
  unfold crcBitMsb
  dsimp only
  split
  · exact Nat.xor_lt_two_pow hshift h
  · exact hshift

theorem crcBitsMsb_lt {w poly : Nat} (h : poly < 2 ^ w) (k v : Nat) {crc : Nat} (hc : crc < 2 ^ w) : crcBitsMsb w poly k crc v < 2 ^ w := by
  induction k generalizing crc with
  | zero => exact hc
  | succ k ih => exact ih (crcBitMsb_lt h _ _)

theorem crc16_lt (l : List Byte) : crc16 l < 2 ^ 16 :=
  List.foldlRecOn (motive := (· < 2 ^ 16)) l _ (by decide) fun _ hc _ _ => crcBitsMsb_lt (by decide) _ _ hc

/-! The words of a header as sent. -/

/-- The first word: VERSION, VC, EPOCH, the flags, PARTITION and HOP (R55). -/
def Hdr.word0 (h : Hdr) : Nat :=
  h.version * 2 ^ 28 + h.vc * 2 ^ 25 + h.epoch * 2 ^ 23 + b2n h.f * 2 ^ 22 + b2n h.m * 2 ^ 21 + b2n h.s * 2 ^ 20
    + b2n h.l * 2 ^ 19 + b2n h.d * 2 ^ 18 + b2n h.e * 2 ^ 17 + b2n h.x * 2 ^ 16 + h.part * 2 ^ 4 + h.hop

/-- The second word of the extension: the low bits of OFFSET, ANCHOR and OUT_FMT (R56). -/
def Hdr.ext1 (h : Hdr) : Nat := h.off % 2 ^ 14 * 2 ^ 18 + h.anchor * 2 ^ 8 + h.ofmt * 2 ^ 3

/-- The third word of the extension: RANK and the high bits of LAUNCH (R56). -/
def Hdr.ext2 (h : Hdr) : Nat := h.rank * 2 ^ 14 + h.launch / 2 ^ 32 % 256

theorem length_hdrBytes30 (h : Hdr) : (hdrBytes30 h).length = 30 := by simp [hdrBytes30]

theorem length_extBytes {h : Hdr} (hx : h.x = true) : (extBytes h).length = 16 := by simp [extBytes, hx]

theorem hdrBytes30_eq (h : Hdr) : hdrBytes30 h = beBytes h.word0 4 ++ (beBytes (h.dest * 2 ^ 14 + h.plen) 4 ++
    (beBytes (h.src * 2 ^ 14 + h.sub * 2 ^ 8 + h.kind) 4 ++ (beBytes (h.stream * 2 ^ 14) 4 ++ (beBytes (h.chunk * 2 ^ 8) 4 ++ List.replicate 10 0)))) := by
  simp only [hdrBytes30, Hdr.word0, List.append_assoc]

theorem extBytes_eq {h : Hdr} (hx : h.x = true) : extBytes h = beBytes (h.off / 2 ^ 14) 4 ++ (beBytes h.ext1 4 ++ (beBytes h.ext2 4 ++
    beBytes (h.launch % 2 ^ 32) 4)) := by
  simp only [extBytes, hx, if_true, Hdr.ext1, Hdr.ext2, List.append_assoc]

/-- What the widths of the fields say, of the base header and of the extension (R55, R56). -/
theorem Hdr.fits_base {h : Hdr} (hf : h.fits = true) : h.version < 16 ∧ h.vc < 8 ∧ h.epoch < 4 ∧ h.part < 4096 ∧ h.hop < 16 ∧ h.dest < 2 ^ 18 ∧
    h.plen < 2 ^ 14 ∧ h.src < 2 ^ 18 ∧ h.sub < 64 ∧ h.kind < 256 ∧ h.stream < 2 ^ 18 ∧ h.chunk < 2 ^ 24 := by
  simp only [fits, Bool.and_eq_true, decide_eq_true_eq, and_assoc] at hf
  tauto

theorem Hdr.fits_ext {h : Hdr} (hf : h.fits = true) (hx : h.x = true) :
    h.off < 2 ^ 46 ∧ h.anchor < 1024 ∧ h.ofmt < 32 ∧ h.rank < 2 ^ 18 ∧ h.launch < 2 ^ 40 := by
  simp only [fits, hx, if_true, Bool.and_eq_true, decide_eq_true_eq] at hf
  tauto

theorem Hdr.fits_noExt {h : Hdr} (hf : h.fits = true) (hx : h.x = false) :
    h.off = 0 ∧ h.anchor = 0 ∧ h.ofmt = 0 ∧ h.rank = 0 ∧ h.launch = 0 := by
  simp only [fits, hx, Bool.false_eq_true, if_false, Bool.and_eq_true, decide_eq_true_eq] at hf
  tauto

theorem b2n_le_one (b : Bool) : b2n b ≤ 1 := by cases b <;> decide

theorem Hdr.flags_le (h : Hdr) : b2n h.f ≤ 1 ∧ b2n h.m ≤ 1 ∧ b2n h.s ≤ 1 ∧ b2n h.l ≤ 1 ∧ b2n h.d ≤ 1 ∧ b2n h.e ≤ 1 ∧ b2n h.x ≤ 1 :=
  ⟨b2n_le_one _, b2n_le_one _, b2n_le_one _, b2n_le_one _, b2n_le_one _, b2n_le_one _, b2n_le_one _⟩

/-! The words as received. -/
section
variable {h : Hdr} (hf : h.fits = true) (rest : List Byte)
include hf

theorem Hdr.word0_lt : h.word0 < 2 ^ 32 := by
  obtain ⟨hversion, hvc, hepoch, hpart, hhop, -⟩ := h.fits_base hf
  obtain ⟨hF, hM, hS, hL, hD, hE, hX⟩ := h.flags_le
  unfold word0
  omega

/-- The five words of the base header. -/
theorem hdrWord_hdrOut : hdrWord (hdrOut h ++ rest) 0 = h.word0 ∧ hdrWord (hdrOut h ++ rest) 1 = h.dest * 2 ^ 14 + h.plen ∧
    hdrWord (hdrOut h ++ rest) 2 = h.src * 2 ^ 14 + h.sub * 2 ^ 8 + h.kind ∧ hdrWord (hdrOut h ++ rest) 3 = h.stream * 2 ^ 14 ∧
    hdrWord (hdrOut h ++ rest) 4 = h.chunk * 2 ^ 8 := by
  obtain ⟨-, -, -, -, -, hdest, hplen, hsrc, hsub, hkind, hstream, hchunk⟩ := h.fits_base hf
  simp only [hdrOut, hdrBytes30_eq, List.append_assoc, hdrWord_next]
  exact ⟨hdrWord_first (h.word0_lt hf) _, hdrWord_first (by omega) _, hdrWord_first (by omega) _, hdrWord_first (by omega) _, hdrWord_first (by omega) _⟩

/-- The four words of the extension. -/
theorem hdrWord_hdrOut_ext (hx : h.x = true) : hdrWord (hdrOut h ++ rest) 8 = h.off / 2 ^ 14 ∧ hdrWord (hdrOut h ++ rest) 9 = h.ext1 ∧
    hdrWord (hdrOut h ++ rest) 10 = h.ext2 ∧ hdrWord (hdrOut h ++ rest) 11 = h.launch % 2 ^ 32 := by
  obtain ⟨hoff, hanchor, hofmt, hrank, hlaunch⟩ := h.fits_ext hf hx
  have hword (k : Nat) : hdrWord (hdrOut h ++ rest) (8 + k) = hdrWord (extBytes h ++ rest) k := by
    rw [hdrOut, List.append_assoc, hdrWord_append]
    simp [length_hdrBytes30]
  rw [hword 0, hword 1, hword 2, hword 3, extBytes_eq hx]
  simp only [List.append_assoc, hdrWord_next]
  have h1 : h.ext1 < 2 ^ 32 := by
    unfold Hdr.ext1
    omega
  have h2 : h.ext2 < 2 ^ 32 := by
    unfold Hdr.ext2
    omega
  exact ⟨hdrWord_first (by omega) _, hdrWord_first h1 _, hdrWord_first h2 _, hdrWord_first (by omega) _⟩

end

/-! The fields of the words. -/

theorem bit_eq_of_div_mod {b : Bool} {n k : Nat} (h : n / 2 ^ k % 2 = b2n b) : bit n k = b := by
  rw [bit, h]
  cases b <;> decide

theorem Hdr.word0_fields {h : Hdr} (hf : h.fits = true) : bits h.word0 31 28 = h.version ∧ bits h.word0 27 25 = h.vc ∧ bits h.word0 24 23 = h.epoch ∧
    bits h.word0 15 4 = h.part ∧ bits h.word0 3 0 = h.hop := by
  obtain ⟨hversion, hvc, hepoch, hpart, hhop, -⟩ := h.fits_base hf
  obtain ⟨hF, hM, hS, hL, hD, hE, hX⟩ := h.flags_le
  unfold word0 bits
  omega

theorem Hdr.word0_flags {h : Hdr} (hf : h.fits = true) : bit h.word0 22 = h.f ∧ bit h.word0 21 = h.m ∧ bit h.word0 20 = h.s ∧ bit h.word0 19 = h.l ∧
    bit h.word0 18 = h.d ∧ bit h.word0 17 = h.e ∧ bit h.word0 16 = h.x := by
  obtain ⟨hversion, hvc, hepoch, hpart, hhop, -⟩ := h.fits_base hf
  obtain ⟨hF, hM, hS, hL, hD, hE, hX⟩ := h.flags_le
  unfold word0
  refine ⟨?_, ?_, ?_, ?_, ?_, ?_, ?_⟩ <;> apply bit_eq_of_div_mod <;> omega

theorem Hdr.ext_fields {h : Hdr} (hf : h.fits = true) (hx : h.x = true) : h.off / 2 ^ 14 * 2 ^ 14 + bits h.ext1 31 18 = h.off ∧
    bits h.ext1 17 8 = h.anchor ∧ bits h.ext1 7 3 = h.ofmt ∧ bits h.ext2 31 14 = h.rank ∧
    bits h.ext2 7 0 * 2 ^ 32 + h.launch % 2 ^ 32 = h.launch := by
  obtain ⟨hoff, hanchor, hofmt, hrank, hlaunch⟩ := h.fits_ext hf hx
  unfold ext1 ext2 bits
  omega

theorem Hdr.word_fields {h : Hdr} (hf : h.fits = true) : bits (h.dest * 2 ^ 14 + h.plen) 31 14 = h.dest ∧ bits (h.dest * 2 ^ 14 + h.plen) 13 0 = h.plen ∧
    bits (h.src * 2 ^ 14 + h.sub * 2 ^ 8 + h.kind) 31 14 = h.src ∧ bits (h.src * 2 ^ 14 + h.sub * 2 ^ 8 + h.kind) 13 8 = h.sub ∧
    bits (h.src * 2 ^ 14 + h.sub * 2 ^ 8 + h.kind) 7 0 = h.kind ∧ bits (h.stream * 2 ^ 14) 31 14 = h.stream ∧ bits (h.chunk * 2 ^ 8) 31 8 = h.chunk := by
  obtain ⟨-, -, -, -, -, hdest, hplen, hsrc, hsub, hkind, hstream, hchunk⟩ := h.fits_base hf
  unfold bits
  omega

/-- The fields of the extension, which read as zero where there is none. -/
theorem extFields_hdrOut {h : Hdr} (hf : h.fits = true) (rest : List Byte) :
    let e (k : Nat) : Nat := if h.x then hdrWord (hdrOut h ++ rest) (8 + k) else 0
    e 0 * 2 ^ 14 + bits (e 1) 31 18 = h.off ∧ bits (e 1) 17 8 = h.anchor ∧ bits (e 1) 7 3 = h.ofmt ∧ bits (e 2) 31 14 = h.rank ∧
      bits (e 2) 7 0 * 2 ^ 32 + e 3 = h.launch := by
  cases hx : h.x with
  | true =>
    obtain ⟨e0, e1, e2, e3⟩ := hdrWord_hdrOut_ext hf rest hx
    simp only [if_true, e0, e1, e2, e3]
    exact h.ext_fields hf hx
  | false =>
    obtain ⟨hoff, hanchor, hofmt, hrank, hlaunch⟩ := h.fits_noExt hf hx
    simp [bits, hoff, hanchor, hofmt, hrank, hlaunch]

theorem parseHdr_hdrOut {h : Hdr} (hf : h.fits = true) (rest : List Byte) : parseHdr (hdrOut h ++ rest) = h := by
  obtain ⟨w0, w1, w2, w3, w4⟩ := hdrWord_hdrOut hf rest
  obtain ⟨hversion, hvc, hepoch, hpart, hhop⟩ := h.word0_fields hf
  obtain ⟨hF, hM, hS, hL, hD, hE, hX⟩ := h.word0_flags hf
  obtain ⟨hdest, hplen, hsrc, hsub, hkind, hstream, hchunk⟩ := h.word_fields hf
  obtain ⟨hoff, hanchor, hofmt, hrank, hlaunch⟩ := extFields_hdrOut hf rest
  simp only [parseHdr, w0, w1, w2, w3, w4, hversion, hvc, hepoch, hpart, hhop, hF, hM, hS, hL, hD, hE, hX, hdest, hplen, hsrc, hsub, hkind, hstream,
    hchunk, hoff, hanchor, hofmt, hrank, hlaunch]

/-- The CRC sent is that of the bytes that the receiver checks (R80, R86 check 1). -/
theorem hdrCrcOk_hdrOut {h : Hdr} (hf : h.fits = true) (rest : List Byte) : hdrCrcOk (hdrOut h ++ rest) = true := by
  obtain ⟨w0, -⟩ := hdrWord_hdrOut hf rest
  obtain ⟨-, -, -, -, -, -, hX⟩ := h.word0_flags hf
  have hbase : slice (hdrOut h ++ rest) 0 30 = hdrBytes30 h := by
    rw [hdrOut, List.append_assoc, List.append_assoc, slice_append_left _ (length_hdrBytes30 h)]
  have hcrc : slice (hdrOut h ++ rest) 30 2 = beBytes (crc16 (hdrBytes30 h ++ extBytes h)) 2 := by
    rw [hdrOut, List.append_assoc, List.append_assoc, slice_append_right _ 0 2 (length_hdrBytes30 h), slice_append_left _ (length_beBytes _ 2)]
  have hext : (if h.x then slice (hdrOut h ++ rest) 32 16 else []) = extBytes h := by
    cases hx : h.x with
    | true =>
      rw [if_pos rfl, hdrOut, List.append_assoc, slice_append_right (m := 32) _ 0 16 (by simp [length_hdrBytes30]),
        slice_append_left _ (length_extBytes hx)]
    | false => simp [extBytes, hx]
  rw [hdrCrcOk, w0, hX, hext, hbase, hcrc, beNat_beBytes, decide_eq_true_eq]
  exact (Nat.mod_eq_of_lt (crc16_lt _)).symm

end Sys2Proof.Machine

open Sys2Proof Sys2Proof.Machine

/-- Settles O15: the words of the header read back, and with them their fields and the bytes that the CRC covers. -/
theorem headerReadsBackAsSent : Obligations.HeaderReadsBackAsSent :=
  fun _ rest hf => ⟨parseHdr_hdrOut hf rest, hdrCrcOk_hdrOut hf rest⟩

end

section
/-! PROOFS. What the flight recorder leaves alone, and the arrival of a header whose CRC is bad. -/
namespace Sys2Proof.Machine
namespace Dev

/-! A frame of the flight recorder (spec/18_telemetry.md R614 to R617). -/

/-- The counters that a flight record can move: the recorder's own, and those of the monitor of LPDDR6, which the record is written to (R606). -/
def recorderCtr (a : Nat) : Prop := a = R.FR_RECORDS ∨ a = R.FR_MISSED ∨ ∃ k < 8, a = PmUnit.ddr.base + 0x40 + 8 * k

/-- What a flight record leaves alone: the switch core, the power state, and every counter but its own; in Umber those as well. -/
structure RecorderFrame (d e : Dev) : Prop where
  core : e.core = d.core
  pwState : e.pwState = d.pwState
  umber : d.pwState = 2 → e.csr.ctrs = d.csr.ctrs
  ctr : ∀ a, ¬ recorderCtr a → e.ctr a = d.ctr a

namespace RecorderFrame

/-- An update beside the switch core, the registers and the counters. -/
theorem of_eq {d e : Dev} (hcore : e.core = d.core) (hcsr : e.csr = d.csr) : RecorderFrame d e where
  core := hcore
  pwState := by rw [Dev.pwState, fld, reg, hcsr, Dev.pwState, fld, reg]
  umber _ := by rw [hcsr]
  ctr a _ := by rw [Dev.ctr, hcsr, Dev.ctr]

theorem refl (d : Dev) : RecorderFrame d d := .of_eq rfl rfl

theorem trans {d e f : Dev} (h : RecorderFrame d e) (k : RecorderFrame e f) : RecorderFrame d f where
  core := k.core.trans h.core
  pwState := k.pwState.trans h.pwState
  umber u := (k.umber (h.pwState.trans u)).trans (h.umber u)
  ctr a ha := (k.ctr a ha).trans (h.ctr a ha)

theorem incBy (d : Dev) {a : Nat} (n : Nat) (ha : recorderCtr a) : RecorderFrame d (d.incBy a n) where
  core := d.incBy_core a n
  pwState := by rw [Dev.pwState, fld, reg_incBy, Dev.pwState, fld]
  umber u := by rw [incBy_umber d a n u]
  ctr b hb := ctr_incBy_other d a b n fun e => hb (e ▸ ha)

theorem setNum (d : Dev) {a : Nat} (n : Nat) (ha : R.PW_STAT ≠ a) : RecorderFrame d (d.setNum a n) where
  core := d.setNum_core a n
  pwState := by rw [Dev.pwState, fld, Dev.setNum, reg_setReg_other _ _ _ _ ha, Dev.pwState, fld]
  umber _ := rfl
  ctr _ _ := rfl

/-- A monitor event of LPDDR6 (R604). -/
theorem pm (d : Dev) (ev : Nat) (vc : Option Nat) (n : Nat) : RecorderFrame d (d.pm .ddr ev vc n) := by
  unfold Dev.pm
  split
  · exact .refl d
  · refine List.foldlRecOn (motive := RecorderFrame d) _ _ (.refl d) fun e he k hk => ?_
    split
    · exact he.trans (.incBy e n (.inr (.inr ⟨k, List.mem_range.mp hk, rfl⟩)))
    · exact he

theorem ddrWrite (d : Dev) (a n : Nat) : RecorderFrame d (d.ddrWrite a n) := by
  unfold Dev.ddrWrite
  refine .trans ?_ (.pm ..)
  exact .of_eq rfl rfl

theorem flightWrite (d : Dev) (r : Flight) : RecorderFrame d (d.flightWrite r) := by
  unfold Dev.flightWrite
  dsimp only
  split
  · exact .refl d
  · split
    · refine .trans ?_ (.setNum _ _ (a := R.TM_RING_GAP 2) (by decide))
      exact .of_eq rfl rfl
    · refine .trans ?_ (.setNum _ _ (a := R.TM_RING_STAT 2) (by decide))
      refine .trans ?_ (.incBy _ _ (.inl rfl))
      refine .trans ?_ (.ddrWrite ..)
      exact .of_eq rfl rfl

theorem capture (d : Dev) (unit : Nat) (raw : List Byte) (x : Bool) (arrT inPort outPort cause : Nat) :
    RecorderFrame d (d.capture unit raw x arrT inPort outPort cause) := by
  unfold Dev.capture
  dsimp only
  split
  · split
    · refine .trans ?_ (.flightWrite ..)
      refine .trans ?_ (.setNum _ _ (a := R.TM_FR_SEQ) (by decide))
      exact .of_eq rfl rfl
    · exact .incBy d 1 (.inr (.inl rfl))
  · exact .refl d

theorem sampleNow (d : Dev) (k : Pkt) (out : Nat) : RecorderFrame d (d.sampleNow k out) := by
  unfold Dev.sampleNow
  split
  · exact .capture ..
  · exact .refl d

/-- A discard, captured with the sampler's record of the packet before it. -/
theorem captureAt (d : Dev) (unit : Nat) (k : Pkt) (outPort cause : Nat) : RecorderFrame d (d.captureAt unit k outPort cause) := by
  unfold Dev.captureAt
  dsimp only
  split
  · exact .trans (.sampleNow ..) (.capture ..)
  · exact .sampleNow ..

theorem captureDrop (d : Dev) (k : Pkt) (outPort cause : Nat) : RecorderFrame d (d.captureDrop k outPort cause) := .captureAt ..

end RecorderFrame

/-- The counters of header CRCs are none of the recorder's. -/
theorem not_recorderCtr_pl (p : Nat) : ¬ recorderCtr (R.PL_HDR_CRC p) := by
  simp only [recorderCtr, R.PL_HDR_CRC, R.FR_RECORDS, R.FR_MISSED, PmUnit.base]
  omega

theorem not_recorderCtr_port (c : Nat) : ¬ recorderCtr (R.P_HDR_CRC c) := by
  simp only [recorderCtr, R.P_HDR_CRC, R.FR_RECORDS, R.FR_MISSED, PmUnit.base]
  omega

/-! The count of check 1 (R86, R607). -/

theorem countCheck_hdrCrc (d : Dev) {c : Nat} (hc : c < 1024) : d.countCheck c 1 = (d.inc (R.PL_HDR_CRC (c / 64))).inc (R.P_HDR_CRC c) := by
  simp [countCheck, count2, hc, plOf, R.PL_HDR_CRC, R.P_HDR_CRC]

theorem ctr_inc_same (d : Dev) {a : Nat} (h : d.ctr a < 2 ^ 64) (u : d.pwState ≠ 2) : (d.inc a).ctr a = (d.ctr a + 1) % 2 ^ 64 := d.ctr_incBy_same a 1 h u

theorem ctr_inc_other (d : Dev) {a b : Nat} (h : b ≠ a) : (d.inc a).ctr b = d.ctr b := d.ctr_incBy_other a b 1 h

theorem pwState_inc (d : Dev) (a : Nat) : (d.inc a).pwState = d.pwState := by rw [pwState, fld, reg_inc, pwState, fld]

theorem plHdrCrc_ne_portHdrCrc (p c : Nat) : R.PL_HDR_CRC p ≠ R.P_HDR_CRC c := by
  simp only [R.PL_HDR_CRC, R.P_HDR_CRC]
  omega

theorem ctrs_countCheck_umber (d : Dev) {c : Nat} (hc : c < 1024) (u : d.pwState = 2) : (d.countCheck c 1).csr.ctrs = d.csr.ctrs := by
  rw [countCheck_hdrCrc d hc, inc, incBy_umber _ _ _ (by rw [pwState_inc, u]), inc, incBy_umber _ _ _ u]

theorem ctr_countCheck_pl (d : Dev) {c : Nat} (hc : c < 1024) (u : d.pwState ≠ 2) (h : d.ctr (R.PL_HDR_CRC (c / 64)) < 2 ^ 64) :
    (d.countCheck c 1).ctr (R.PL_HDR_CRC (c / 64)) = (d.ctr (R.PL_HDR_CRC (c / 64)) + 1) % 2 ^ 64 := by
  rw [countCheck_hdrCrc d hc, ctr_inc_other _ (plHdrCrc_ne_portHdrCrc _ c), ctr_inc_same d h u]

theorem ctr_countCheck_port (d : Dev) {c : Nat} (hc : c < 1024) (u : d.pwState ≠ 2) (h : d.ctr (R.P_HDR_CRC c) < 2 ^ 64) :
    (d.countCheck c 1).ctr (R.P_HDR_CRC c) = (d.ctr (R.P_HDR_CRC c) + 1) % 2 ^ 64 := by
  have hother := ctr_inc_other d (plHdrCrc_ne_portHdrCrc (c / 64) c).symm
  rw [countCheck_hdrCrc d hc, ctr_inc_same _ (by rw [hother]; exact h) (by rw [pwState_inc]; exact u), hother]

/-! The arrival (R86 check 1, R379). -/

theorem lk_setLk_same (d : Dev) (c : Nat) (l : Lk) : (d.setLk c l).lk c = l := Sparse.get_put_same ..

/-- A header with a bad CRC is counted and captured, and the port receives nothing and loses its framing. -/
theorem headerArrival_badCrc (d : Dev) (c : Nat) {raw : List Byte} (hcrc : hdrCrcOk raw = false) (hskip : (d.lk c).skip = false) :
    ∃ k : Pkt, d.headerArrival c raw false = (((d.freshId.2.countCheck c 1).captureDrop k 0x3FF 1).setRx c none).setLk c
      { d.lk c with skip := true, skipRow := d.headerRow c } := by
  unfold headerArrival
  rw [if_neg (ne_true_of_eq_false hskip)]
  exact ⟨_, if_pos (.inr (ne_true_of_eq_false hcrc))⟩

end Dev

theorem exec_packetHeaderArrival_badCrc (s : State) (now : Nat) (r : s.dev.inReset = false) (m : s.dev.mrdTrap now = false) {c : Nat} (hc : c < 1024)
    {raw : List Byte} (hcrc : hdrCrcOk raw = false) :
    exec (.packetHeaderArrival now c raw false none) s = .next (s.after ((s.dev.advance now).headerArrival c raw false)) :=
  need_eq (decide_eq_true hc) (predictable_eq (by simp [hcrc]) (timed_next now s _ r m))

end Sys2Proof.Machine

open Sys2Proof Sys2Proof.Machine

/-- Settles O18: the header counted in both counters, and captured beside them. -/
theorem badHeaderCrcIsDiscardedAndCounted : Obligations.BadHeaderCrcIsDiscardedAndCounted := by
  intro s now c raw r m hc hcrc d hskip
  obtain ⟨k, harrival⟩ := d.headerArrival_badCrc c hcrc hskip
  have frame := Dev.RecorderFrame.captureDrop (d.freshId.2.countCheck c 1) k 0x3FF 1
  refine ⟨_, by rw [exec_packetHeaderArrival_badCrc s now r m hc hcrc, harrival], ?pkts, ?skip, Sparse.find_del_same .., fun u => ?umber,
    fun u => ⟨fun h => ?pipeline, fun h => ?port⟩⟩
  case pkts =>
    show ((d.freshId.2.countCheck c 1).captureDrop k 0x3FF 1).core.pkts = d.core.pkts
    rw [frame.core, Dev.countCheck_hdrCrc _ hc, Dev.inc_core, Dev.inc_core]
    rfl
  case skip => rw [Dev.lk_setLk_same]
  case umber => exact (frame.umber (by rw [Dev.countCheck_hdrCrc _ hc, Dev.pwState_inc, Dev.pwState_inc]; exact u)).trans (Dev.ctrs_countCheck_umber _ hc u)
  case pipeline => exact (frame.ctr _ (Dev.not_recorderCtr_pl _)).trans (Dev.ctr_countCheck_pl _ hc u h)
  case port => exact (frame.ctr _ (Dev.not_recorderCtr_port _)).trans (Dev.ctr_countCheck_port _ hc u h)

end

section
/-! PROOFS. The retirement of a pipeline's previous bank. -/
namespace Sys2Proof.Machine

namespace Dev

/-! The previous bank (R126, R127). -/

/-- What the retirement leaves beside PREV_HELD: no request of the pipeline is kept, and the packets that its fence holds or stalls are released. -/
def fencesOpened (d : Dev) (p : Nat) : Dev :=
  { d with
    tab := { d.tab with retireReq := d.tab.retireReq.filter (·.1 ≠ p) }
    core := { d.core with pkts := d.core.pkts.map fun k => if plOf k.port = p ∧ (k.place = .fence ∨ k.place = .stall) then { k with opened := true } else k } }

theorem prevRetire_due (d : Dev) (p : Nat) (held : d.prevHeld p = true) (due : d.retireAsked p = true ∨ d.beatNo = d.retireBeat p) :
    d.prevRetire p = (d.fencesOpened p).setFld (R.FW_EPOCH p) F.FW_EPOCH_PREV_HELD 0 := by
  have hrelease : (fun k : Pkt => if plOf k.port = p && (k.place = .fence || k.place = .stall) then { k with opened := true } else k) =
      fun k => if plOf k.port = p ∧ (k.place = .fence ∨ k.place = .stall) then { k with opened := true } else k := by
    funext k
    simp only [Bool.and_eq_true, Bool.or_eq_true, decide_eq_true_eq]
  unfold prevRetire
  rw [if_pos ⟨held, due⟩, hrelease]
  rfl

theorem prevRetire_notDue (d : Dev) (p : Nat) (h : d.prevHeld p = false ∨ (d.retireAsked p = false ∧ d.beatNo ≠ d.retireBeat p)) : d.prevRetire p = d := by
  refine if_neg ?_
  rintro ⟨held, asked | beat⟩
  · simp [held, asked] at h
  · simp [held, beat] at h

theorem retireNow_eq (d : Dev) (p : Nat) : d.retireNow p = if d.prevHeld p && !d.tab.retireReq.any (·.1 = p)
    then { d with tab := { d.tab with retireReq := d.tab.retireReq ++ [(p, d.time.beat)] } } else d := by
  simp only [retireNow, Bool.and_eq_true, Bool.not_eq_true', Bool.not_eq_true]

theorem prevHeld_clear (d : Dev) (p : Nat) : (d.setFld (R.FW_EPOCH p) F.FW_EPOCH_PREV_HELD 0).prevHeld p = false :=
  on_setFld_bit d _ 8 false (by decide)

theorem curEpoch_setPrevHeld (d : Dev) (p v : Nat) : (d.setFld (R.FW_EPOCH p) F.FW_EPOCH_PREV_HELD v).curEpoch p = d.curEpoch p :=
  fld_setFld_other _ _ _ _ _ (by decide) (by decide) (.inl (by decide))

end Dev

/-! The commands on a previous bank, where time may go on to their count. -/
section
variable (s : State) (now : Nat) (r : s.dev.inReset = false) (m : s.dev.mrdTrap now = false) {p : Nat} (hp : p < 16)
include r m hp

theorem exec_retireNow (awake : s.dev.pwState ≠ 2) : exec (.retireNow now p) s = .next (s.after ((s.dev.advance now).retireNow p)) :=
  need_eq (decide_eq_true hp) (need_eq (s.dev.reaches_awake _ awake) (timed_next now s _ r m))

theorem exec_prevBankRetire : exec (.prevBankRetire now p) s = .next (s.after ((s.dev.advance now).prevRetire p)) :=
  need_eq (decide_eq_true hp) (timed_next now s _ r m)

end

end Sys2Proof.Machine

open Sys2Proof Sys2Proof.Machine

/-- Settles O36: the request kept, the bank that is due, the bank that is held on. -/
theorem previousBankRetires : Obligations.PreviousBankRetires := by
  intro s now p r m hp d asked
  refine ⟨fun awake => ?request, fun held due => ?retired, fun notDue => ?heldOn⟩
  case request => rw [exec_retireNow s now r m hp awake, Dev.retireNow_eq]
  case retired =>
    rw [exec_prevBankRetire s now r m hp, Dev.prevRetire_due _ _ held due]
    refine ⟨_, rfl, Dev.prevHeld_clear .., Dev.curEpoch_setPrevHeld .., ?_⟩
    exact (Dev.RegsOnly.refl _ (d.fencesOpened p)).setFld _ _ List.mem_cons_self
  case heldOn => rw [exec_prevBankRetire s now r m hp, Dev.prevRetire_notDue _ _ notDue]

end

section
/-! PROOFS. The words of a pipeline's block, and its table window while it is busy. -/
namespace Sys2Proof.Machine

/-! The block of a pipeline (R497). -/

/-- A pipeline's registers have the same fields in every pipeline. -/
theorem fieldsAt_pl {p o : Nat} (hp : p < 16) (ho : o < 0x1000000) : fieldsAt (0x10000000 + o + 0x1000000 * p) = fieldsAt (0x10000000 + o) := by
  have hblock {q : Nat} (hq : q < 16) : regAt (0x10000000 + o + 0x1000000 * q) = findFam o famsPL := by
    have hdiv : (0x10000000 + o + 0x1000000 * q) / 0x1000000 = 0x10 + q := by omega
    have hmod : (0x10000000 + o + 0x1000000 * q) % 0x1000000 = o := by omega
    have hfams : blockOf (0x10000000 + o + 0x1000000 * q) = some (famsPL, ctrsPL) := by
      unfold blockOf
      rw [hdiv]
      exact if_pos (by omega)
    rw [regAt, hfams]
    exact congrArg (findFam · famsPL) hmod
  rw [fieldsAt, fieldsAt, hblock hp, show regAt (0x10000000 + o) = _ from hblock (q := 0) (by decide)]

theorem fieldsAt_twIndex {p : Nat} (hp : p < 16) : fieldsAt (R.TW_INDEX p) = [⟨17, 0, .rw, 0⟩] :=
  (fieldsAt_pl (o := 0x1100) hp (by decide)).trans (by decide)

theorem fieldsAt_twCmd {p : Nat} (hp : p < 16) : fieldsAt (R.TW_CMD p) = [⟨11, 8, .wo, 0⟩, ⟨4, 4, .wo, 0⟩, ⟨3, 0, .wo, 0⟩] :=
  (fieldsAt_pl (o := 0x1104) hp (by decide)).trans (by decide)

theorem fieldsAt_twData {p i : Nat} (hp : p < 16) (hi : i < 36) : fieldsAt (R.TW_DATA p i) = [⟨31, 0, .rw, 0⟩] := by
  have hwords : ∀ i < 36, fieldsAt (0x10000000 + (0x1140 + 4 * i)) = [⟨31, 0, .rw, 0⟩] := by decide
  have haddr : R.TW_DATA p i = 0x10000000 + (0x1140 + 4 * i) + 0x1000000 * p := by
    unfold R.TW_DATA
    omega
  rw [haddr, fieldsAt_pl hp (by omega), hwords i hi]

/-- The bits of the given types, from the list of the word's fields. -/
theorem typeMask_of_fieldsAt {a : Nat} {l : List Fld} (hf : fieldsAt a = l) (q : FTy → Bool) :
    typeMask a q = ((l.filter fun f => q f.ty).map fldMask).sum := by rw [typeMask, hf]

/-- The word `a` of pipeline `p` at an offset `o` among the registers of its epochs and table window. -/
structure InPl (p o a : Nat) : Prop where
  pipeline : p < 16
  offset : 0x1000 ≤ o ∧ o < 0x2000
  addr : a = 0x10000000 + o + 0x1000000 * p

namespace InPl
variable {p o a : Nat} (h : InPl p o a)
include h

theorem div : a / 0x1000000 = 0x10 + p := by
  obtain ⟨hp, ho, rfl⟩ := h
  omega

theorem mod : a % 0x1000000 = o := by
  obtain ⟨hp, ho, rfl⟩ := h
  omega

theorem bounds : 0x10 ≤ a / 0x1000000 ∧ a / 0x1000000 < 0x20 := by
  have hp := h.pipeline
  rw [h.div]
  omega

theorem index : a / 0x1000000 - 0x10 = p := by rw [h.div, Nat.add_sub_cancel_left]

theorem reservedBlock : Machine.reservedBlock a = false := by
  have hblock : blockOf a = some (famsPL, ctrsPL) := if_pos h.bounds
  rw [Machine.reservedBlock, hblock]
  rfl

theorem qunitAt : Machine.qunitAt a = none := by
  obtain ⟨ho, -⟩ := h.offset
  unfold Machine.qunitAt
  simp only [h.div, h.mod]
  rw [if_neg (by omega), if_neg (by omega), if_neg (by omega), if_neg (by omega), if_neg (by omega), if_neg (by omega)]
  exact (if_pos (h.div ▸ h.bounds)).trans (if_neg (by omega))

theorem mrdAt : Machine.mrdAt a = none := by
  obtain ⟨hp, ho, rfl⟩ := h
  exact if_neg (by omega)

theorem gclAt : Dev.gclAt a = none := by
  obtain ⟨-, ho⟩ := h.offset
  unfold Dev.gclAt
  simp only [h.mod]
  exact if_neg (by omega)

end InPl

theorem inPl_twIndex {p : Nat} (hp : p < 16) : InPl p 0x1100 (R.TW_INDEX p) := ⟨hp, by decide, rfl⟩
theorem inPl_twCmd {p : Nat} (hp : p < 16) : InPl p 0x1104 (R.TW_CMD p) := ⟨hp, by decide, rfl⟩
theorem inPl_twData {p i : Nat} (hp : p < 16) (hi : i < 36) : InPl p (0x1140 + 4 * i) (R.TW_DATA p i) := by
  refine ⟨hp, by omega, ?_⟩
  unfold R.TW_DATA
  omega

namespace Dev

/-! Writes of such a word. -/
section
variable (d : Dev) {p o a : Nat} (h : InPl p o a)
include h

/-- A word without W1C and RWB fields: its RW bits change, and what acts on a write acts. -/
theorem csrWrite_of_inPl (u : Fuses) (m v : Nat) (hw1c : typeMask a (fun t => t = .w1c) = 0) (hrwb : typeMask a (fun t => t = .rwb) = 0) :
    d.csrWrite u a m v = (d.putRw a (Nat.land (typeMask a fun t => t = .rw || t = .rws) m) v).actOn u a (Nat.land m v)
      (maskIn (d.reg a).toNat (Nat.land (typeMask a fun t => t = .rw || t = .rws) m) v) := by
  have htpo : ¬(R.TPO_CTRL 0 ≤ a ∧ a < R.TPO_CTRL 4 ∧ (a - R.TPO_CTRL 0) % 0x20 = 0) := by
    have haddr := h.addr
    simp only [R.TPO_CTRL]
    omega
  unfold csrWrite
  dsimp only
  rw [w1c_none _ _ _ hw1c, rwbPend_none _ _ _ _ hrwb, h.mrdAt, h.gclAt]
  exact if_neg htpo

/-- Beside FW_EPOCH and TW_CMD no word acts on a write. -/
theorem actOn_of_inPl (u : Fuses) (v w : Nat) (hepoch : o ≠ 0x1000) (hcmd : o ≠ 0x1104) : d.actOn u a v w = d := by
  have haddr := h.addr
  obtain ⟨-, ho⟩ := h.offset
  have hword {b : Nat} (hb : b < 0x10000000) : a ≠ b := by omega
  unfold actOn
  simp only [h.mod]
  rw [if_neg (by omega), if_neg (by omega), if_neg (hword (by decide)), if_neg (hword (by decide)), if_neg (hword (by decide)), if_neg (hword (by decide)),
    if_neg (hword (by decide)), if_neg (hword (by decide)), if_neg (hword (by decide)), if_neg (by omega)]

theorem putRw_window_busy {mask : Nat} (hm : mask ≠ 0) (v : Nat) (ho : o = 0x1100 ∨ (0x1140 ≤ o ∧ o < 0x11D0))
    (busy : d.on (R.TW_STAT p) F.TW_STAT_BUSY = true) : d.putRw a mask v = d.setFld (R.TW_STAT p) F.TW_STAT_OVERRUN 1 := by
  obtain ⟨hlo, hhi⟩ := h.bounds
  unfold putRw
  rw [if_neg hm, h.qunitAt, h.mrdAt]
  simp only [h.mod, h.index]
  rw [if_neg (by omega), if_neg (by omega), if_neg (by omega), if_neg (by omega)]
  exact if_pos ⟨hlo, hhi, ho, busy⟩

end

/-- A write of TW_CMD starts the operation that its bits name (R132). -/
theorem actOn_twCmd (d : Dev) (u : Fuses) {p : Nat} (hp : p < 16) (v w : Nat) :
    d.actOn u (R.TW_CMD p) v w = d.twStart p (bits v 11 8) (bits v 3 0) (bits v 4 4) := by
  have h := inPl_twCmd hp
  obtain ⟨hlo, hhi⟩ := h.bounds
  unfold actOn
  dsimp only
  rw [h.mod, h.index, if_neg (by omega), if_pos ⟨hlo, hhi, rfl⟩]

/-! The window while BUSY is one (R133). -/
section
variable (d : Dev) {p : Nat} (busy : d.on (R.TW_STAT p) F.TW_STAT_BUSY = true)
include busy

theorem twStart_busy (op table bank : Nat) : d.twStart p op table bank = d.setFld (R.TW_STAT p) F.TW_STAT_OVERRUN 1 := if_pos busy

/-- TW_INDEX and the words of TW_DATA, which hold one RW field. -/
theorem csrWrite_window_busy (u : Fuses) {o a hi : Nat} (v : Nat) (h : InPl p o a) (ho : o = 0x1100 ∨ (0x1140 ≤ o ∧ o < 0x11D0))
    (hhi : hi = 17 ∨ hi = 31) (hf : fieldsAt a = [⟨hi, 0, .rw, 0⟩]) : d.csrWrite u a (2 ^ 32 - 1) v = d.setFld (R.TW_STAT p) F.TW_STAT_OVERRUN 1 := by
  have hw1c : typeMask a (fun t => t = .w1c) = 0 := typeMask_of_fieldsAt hf _
  have hrwb : typeMask a (fun t => t = .rwb) = 0 := typeMask_of_fieldsAt hf _
  have hmask : Nat.land (typeMask a fun t => t = .rw || t = .rws) (2 ^ 32 - 1) ≠ 0 := by
    rw [typeMask_of_fieldsAt hf]
    obtain rfl | rfl := hhi <;> decide
  rw [csrWrite_of_inPl d h u _ v hw1c hrwb, putRw_window_busy d h hmask v ho busy, actOn_of_inPl _ h u _ _ (by omega) (by omega)]

/-- TW_CMD, which holds no RW field and starts an operation. -/
theorem csrWrite_twCmd_busy (u : Fuses) (v : Nat) (hp : p < 16) :
    d.csrWrite u (R.TW_CMD p) (2 ^ 32 - 1) v = d.setFld (R.TW_STAT p) F.TW_STAT_OVERRUN 1 := by
  have h := inPl_twCmd hp
  have hf := fieldsAt_twCmd hp
  have hw1c : typeMask (R.TW_CMD p) (fun t => t = .w1c) = 0 := typeMask_of_fieldsAt hf _
  have hrwb : typeMask (R.TW_CMD p) (fun t => t = .rwb) = 0 := typeMask_of_fieldsAt hf _
  have hmask : Nat.land (typeMask (R.TW_CMD p) fun t => t = .rw || t = .rws) (2 ^ 32 - 1) = 0 := by
    rw [typeMask_of_fieldsAt hf]
    rfl
  have hput : d.putRw (R.TW_CMD p) 0 v = d := by
    unfold putRw
    exact if_pos rfl
  rw [csrWrite_of_inPl d h u _ v hw1c hrwb, hmask, hput]
  exact (actOn_twCmd d u hp _ _).trans (d.twStart_busy busy ..)

end

end Dev

/-- A register write of a word of a pipeline, outside Umber. -/
theorem exec_registerWrite_of_inPl (s : State) (r : s.dev.inReset = false) (awake : s.dev.pwState ≠ 2) {p o a : Nat} (v : Nat) (h : InPl p o a) (ho : o % 4 = 0)
    (good : s.dev.unpredictable none a (2 ^ 32 - 1) (v % 2 ^ 32) = false) :
    exec (.registerWrite a v) s = .next (s.after (s.dev.csrWrite s.fuse a (2 ^ 32 - 1) (v % 2 ^ 32))) := by
  have halign : a % 4 = 0 := by
    have haddr := h.addr
    omega
  have hwrite : s.dev.registerWrite s.fuse a (v % 2 ^ 32) = s.dev.csrWrite s.fuse a (2 ^ 32 - 1) (v % 2 ^ 32) :=
    if_neg (by simp [h.reservedBlock, halign])
  rw [← hwrite]
  exact need_eq (s.dev.reaches_awake _ awake) (predictable_eq (by rw [good, Bool.and_false]) (act_next s _ r))

/-- What the commands that start an operation of the window come to while it is busy. -/
theorem need_twStart_busy (s : State) (now : Nat) (r : s.dev.inReset = false) (m : s.dev.mrdTrap now = false) (awake : s.dev.pwState ≠ 2) {p : Nat} (hp : p < 16)
    (busy : (s.dev.advance now).on (R.TW_STAT p) F.TW_STAT_BUSY = true) (op table bank : Nat) :
    need (p < 16) s (need (s.dev.reaches (R.TW_CMD p)) s (timed now s fun d _ => d.twStart p op table bank)) =
      .next (s.after ((s.dev.advance now).setFld (R.TW_STAT p) F.TW_STAT_OVERRUN 1)) :=
  need_eq (decide_eq_true hp) (need_eq (s.dev.reaches_awake _ awake) ((timed_next now s _ r m).trans (by rw [Dev.twStart_busy _ busy])))

end Sys2Proof.Machine

open Sys2Proof Sys2Proof.Machine

/-- Settles O37: a write of each kind of word, and each command that starts an operation. -/
theorem busyWindowIgnoresWrites : Obligations.BusyWindowIgnoresWrites := by
  intro s p a v r hp awake
  refine ⟨fun ha good busy => ?write, fun now table bank m busy c hc => ?start⟩
  case write =>
    obtain rfl | rfl | ⟨i, hi, rfl⟩ := ha
    · rw [exec_registerWrite_of_inPl s r awake v (inPl_twIndex hp) rfl good,
        Dev.csrWrite_window_busy _ busy _ _ (inPl_twIndex hp) (.inl rfl) (.inl rfl) (fieldsAt_twIndex hp)]
    · rw [exec_registerWrite_of_inPl s r awake v (inPl_twCmd hp) rfl good, Dev.csrWrite_twCmd_busy _ busy _ _ hp]
    · rw [exec_registerWrite_of_inPl s r awake v (inPl_twData hp hi) (by omega) good,
        Dev.csrWrite_window_busy _ busy _ _ (inPl_twData hp hi) (.inr (by omega)) (.inr rfl) (fieldsAt_twData hp hi)]
  case start =>
    have hstart := need_twStart_busy s now r m awake hp busy
    simp only [List.mem_cons, List.not_mem_nil, or_false] at hc
    obtain rfl | rfl | rfl | rfl | rfl | rfl | rfl | rfl := hc <;> exact hstart ..

end

section
/-! PROOFS. The XOFF vectors that flow control leaves: no bit of a best-effort VC, at any port code (spec/04_switch_core.md R153). -/
namespace Sys2Proof.Machine

/-! The words of SC_XOFF. -/

theorem scXoff_injective : Function.Injective R.SC_XOFF := by
  intro c e h
  unfold R.SC_XOFF at h
  omega

/-- Of the switch core's families SC_XOFF's alone, whose fields all reset to zero, reaches the offsets of SC_XOFF: any other begins above or ends below. -/
theorem rst_of_regAt_scXoff {c : Nat} (hc : c < 1024) {f : RegFam} {i j : Nat} (hf : regAt (R.SC_XOFF c) = some (f, i, j)) :
    f.kind = .const ∧ ∀ x ∈ f.flds, x.rst = 0 := by
  have hblock : R.SC_XOFF c / 0x1000000 = 2 := by
    unfold R.SC_XOFF
    omega
  have hoff : R.SC_XOFF c % 0x1000000 = 0x2000 + 4 * c := by
    unfold R.SC_XOFF
    omega
  have hfams : blockOf (R.SC_XOFF c) = some (famsSC, ctrsSC) := by simp [blockOf, hblock]
  have hplace : ∀ f ∈ famsSC, (f.kind = .const ∧ ∀ x ∈ f.flds, x.rst = 0) ∨ 0x3000 ≤ f.base ∨
      (f.s1 = 0x1000000 ∧ 0 < f.s2 ∧ f.base + f.n2 * f.s2 ≤ 0x2000) := by decide
  unfold regAt at hf
  rw [hfams] at hf
  dsimp only at hf
  rw [hoff] at hf
  obtain ⟨hmem, hidx⟩ := mem_of_findFam hf
  refine (hplace f hmem).resolve_right fun hother => ?_
  unfold famIndex at hidx
  split at hidx
  · cases hidx
  · dsimp only at hidx
    split at hidx
    · next hin =>
      obtain ⟨-, -, hlt⟩ := hin
      obtain habove | ⟨hs1, hs2, hbelow⟩ := hother
      · omega
      · rw [hs1, Nat.mod_eq_of_lt (by omega), Nat.div_lt_iff_lt_mul hs2] at hlt
        omega
    · cases hidx

/-- The words of SC_XOFF reset to zero. -/
theorem resetWord_scXoff {c : Nat} (hc : c < 1024) : resetWord (R.SC_XOFF c) = 0 := by
  unfold resetWord
  split
  · rfl
  · next f i j hf =>
    obtain ⟨hkind, hzero⟩ := rst_of_regAt_scXoff hc hf
    have hfields : f.flds.map (fun x => fldReset f.kind i j x * 2 ^ x.lo) = f.flds.map fun _ => 0 := by
      refine List.map_congr_left fun x hx => ?_
      rw [hkind, fldReset, hzero x hx, Nat.zero_mul]
    rw [hfields]
    simp

/-- A key that a table lists a value under is one of its keys. -/
theorem Sparse.mem_of_find {α : Type} {l : List (Nat × α)} {a : Nat} {x : α} (h : Sparse.find l a = some x) : (a, x) ∈ l := by
  induction l with
  | nil => cases h
  | cons p l ih =>
    unfold Sparse.find at h
    split at h
    · next hk =>
      cases h
      subst hk
      exact List.mem_cons_self
    · exact List.mem_cons_of_mem _ (ih h)

/-- Whatever lossless VCs are stopped, the vector has zero in the bits of VC5 and VC6. -/
theorem bit_losslessSum (q : Nat → Bool) :
    bit (((losslessVcs.filter q).map (2 ^ ·)).sum % 2 ^ 8) 5 = false ∧ bit (((losslessVcs.filter q).map (2 ^ ·)).sum % 2 ^ 8) 6 = false := by
  have hall : ∀ l ∈ losslessVcs.sublists, bit ((l.map (2 ^ ·)).sum % 2 ^ 8) 5 = false ∧ bit ((l.map (2 ^ ·)).sum % 2 ^ 8) 6 = false := by decide
  exact hall _ (List.mem_sublists.mpr List.filter_sublist)

namespace Dev

/-- The vector that a port code sends has zero in the bits of VC5 and VC6. -/
def XoffLossless (d : Dev) (c : Nat) : Prop :=
  bit (d.fld (R.SC_XOFF c) F.SC_XOFF_XOFF_SENT) 5 = false ∧ bit (d.fld (R.SC_XOFF c) F.SC_XOFF_XOFF_SENT) 6 = false

theorem XoffLossless.congr {d e : Dev} {c : Nat} (h : d.XoffLossless c) (hreg : e.reg (R.SC_XOFF c) = d.reg (R.SC_XOFF c)) : e.XoffLossless c := by
  unfold XoffLossless fld at h ⊢
  rwa [hreg]

/-- A word that reads as it was reset sends nothing. -/
theorem xoffLossless_of_resetWord {d : Dev} {c : Nat} (hc : c < 1024) (h : d.reg (R.SC_XOFF c) = resetWord (R.SC_XOFF c)) : d.XoffLossless c := by
  unfold XoffLossless fld
  rw [h, resetWord_scXoff hc]
  decide

/-! One port code's update (R153 to R155, R177). -/

/-- The notes of what the thresholds give, set at one port code. -/
def setXoffThr (d : Dev) (c n : Nat) : Dev := { d with core := { d.core with xoffThr := Sparse.put 0 d.core.xoffThr c n } }

/-- The lossless VCs that the thresholds alone stop at a port code, as a vector, and the vector that it sends. -/
def thrVector (d : Dev) (c : Nat) : Nat := ((losslessVcs.filter fun v => d.xoffBit c v (bit (Sparse.get 0 d.core.xoffThr c) v)).map (2 ^ ·)).sum
def sentVector (d : Dev) (c : Nat) : Nat := if decide (0 < d.hrUse c) || (decide (d.linkState c = 5) && d.portHeld c) then 0x9F else d.thrVector c

/-- The headroom stop that begins is counted. -/
def countStop (d : Dev) (c : Nat) (stop : Bool) : Dev := if stop && !d.on (R.SC_XOFF c) F.SC_XOFF_HR_STOP then d.inc R.SC_HR_STOP else d

theorem xoffUpdate_eq (d : Dev) (c : Nat) : d.xoffUpdate c =
    ((((d.setXoffThr c (d.thrVector c)).countStop c (0 < d.hrUse c)).setFld (R.SC_XOFF c) F.SC_XOFF_XOFF_SENT (d.sentVector c)).setFld (R.SC_XOFF c)
      F.SC_XOFF_HR_STOP (b2n (0 < d.hrUse c))) := rfl

/-- The vector sent holds lossless VCs alone. -/
theorem bit_sentVector (d : Dev) (c : Nat) : bit (d.sentVector c % 2 ^ 8) 5 = false ∧ bit (d.sentVector c % 2 ^ 8) 6 = false := by
  unfold sentVector
  split
  · decide
  · exact bit_losslessSum _

theorem reg_countStop (d : Dev) (c : Nat) (stop : Bool) (a : Nat) : (d.countStop c stop).reg a = d.reg a := by
  unfold countStop
  split
  · exact reg_inc ..
  · rfl

theorem reg_xoffUpdate_other (d : Dev) {c a : Nat} (h : a ≠ R.SC_XOFF c) : (d.xoffUpdate c).reg a = d.reg a := by
  rw [xoffUpdate_eq, reg_setFld_other _ _ _ _ _ h, reg_setFld_other _ _ _ _ _ h, reg_countStop]
  rfl

theorem xoffLossless_xoffUpdate_same (d : Dev) (c : Nat) : (d.xoffUpdate c).XoffLossless c := by
  rw [XoffLossless, xoffUpdate_eq, fld_setFld_other _ _ _ _ _ (by decide) (by decide) (.inl (by decide)),
    fld_setFld_same _ _ _ _ (by decide) (by decide)]
  exact d.bit_sentVector c

theorem XoffLossless.xoffUpdate {d : Dev} {c : Nat} (h : d.XoffLossless c) (b : Nat) : (d.xoffUpdate b).XoffLossless c := by
  by_cases hb : c = b
  · subst hb
    exact xoffLossless_xoffUpdate_same ..
  · exact h.congr (reg_xoffUpdate_other _ fun heq => hb (scXoff_injective heq))

/-- After updates of several port codes, at one that is among them and at one that sent nothing for VC5 and VC6 before. -/
theorem xoffLossless_foldl_xoffUpdate (l : List Nat) (d : Dev) {c : Nat} (h : c ∈ l ∨ d.XoffLossless c) : (l.foldl Dev.xoffUpdate d).XoffLossless c := by
  induction l generalizing d with
  | nil => exact h.resolve_left List.not_mem_nil
  | cons b l ih =>
    refine ih _ ?_
    obtain hmem | h := h
    · obtain rfl | hmem := List.mem_cons.mp hmem
      · exact .inr (xoffLossless_xoffUpdate_same ..)
      · exact .inl hmem
    · exact .inr (h.xoffUpdate b)

/-! The port codes that are updated. -/

/-- A port code whose SC_XOFF is listed is updated. -/
theorem mem_xoffCodes_of_listed (d : Dev) {c : Nat} (hc : c < 1024) {w : Word} (h : Sparse.find d.csr.regs (R.SC_XOFF c) = some w) : c ∈ d.xoffCodes := by
  unfold xoffCodes
  rw [List.mem_eraseDups, List.mem_append, List.mem_append, List.mem_filterMap]
  refine .inl (.inr ⟨(R.SC_XOFF c, w), Sparse.mem_of_find h, ?_⟩)
  have haddr : R.SC_XOFF c = 0x02002000 + 4 * c := rfl
  dsimp only
  rw [if_neg (by omega), if_pos (by omega), Option.some.injEq]
  omega

/-- Only port codes are updated. -/
theorem lt_of_mem_xoffCodes {d : Dev} {c : Nat} (h : c ∈ d.xoffCodes) : c < 1024 := by
  unfold xoffCodes at h
  rw [List.mem_eraseDups, List.mem_append, List.mem_append, List.mem_filterMap, List.mem_filterMap] at h
  obtain (hzero | ⟨x, -, hx⟩) | ⟨k, -, hk⟩ := h
  · split at hzero
    · exact List.mem_range.mp (List.mem_of_mem_filter hzero)
    · cases hzero
  · dsimp only at hx
    split_ifs at hx <;> cases hx <;> omega
  · split at hk
    · cases hk
      assumption
    · cases hk

/-- After flow control no port code sends XOFF for VC5 or VC6: one that is updated by its update, any other because its word is as reset. -/
theorem xoffLossless_flow (d : Dev) (on : d.powered = true) {c : Nat} (hc : c < 1024) : d.flow.XoffLossless c := by
  unfold flow
  rw [if_pos on]
  refine xoffLossless_foldl_xoffUpdate _ _ ?_
  cases hfind : Sparse.find d.warnUpdate.csr.regs (R.SC_XOFF c) with
  | some w => exact .inl (mem_xoffCodes_of_listed _ hc hfind)
  | none => exact .inr (xoffLossless_of_resetWord hc (by rw [reg, Csr.word, hfind]))

end Dev

end Sys2Proof.Machine

end

section
/-! PROOFS. What follows flow control at the end of a step: accesses to LPDDR6 that have become possible, with the errors that they meet, and LM_EN in a wake. None of it writes
a word of SC_XOFF or changes whether the gated blocks run. -/
namespace Sys2Proof.Machine
namespace Dev

/-! The slots of error records (spec/15_faults_sparing.md R507, R508). -/

theorem recOf_lt {d : Dev} {w0 n : Nat} (h : d.recOf w0 = some n) : n < 64 := List.mem_range.mp (List.mem_of_find?_eq_some h)

theorem recAt_lt {d : Dev} {ref n : Nat} (h : d.recAt ref = some n) : n < 64 := List.mem_range.mp (List.mem_of_find?_eq_some h)

theorem recSlot_lt {d : Dev} {n : Nat} (h : d.recSlot = some n) : n < 64 := by
  unfold recSlot at h
  split at h
  · next m hm =>
    cases h
    exact List.mem_range.mp (List.mem_of_find?_eq_some hm)
  · revert h
    refine List.foldlRecOn (motive := fun best : Option Nat => best = some n → n < 64) _ _ (by simp) fun best hbest m hm => ?_
    have hm : m < 64 := List.mem_range.mp hm
    split_ifs
    · split
      · simp only [Option.some.injEq]
        omega
      · split_ifs
        · simp only [Option.some.injEq]
          omega
        · exact hbest
    · exact hbest

/-! The frame. -/

/-- The words of the blocks below the links' block, SC_XOFF among them, and PW_STAT. -/
def FlowWord (a : Nat) : Prop := a < 0x05000000 ∨ a = R.PW_STAT

/-- What is left alone after flow control: these words, the local count, and the count at which a wake began. -/
structure FlowFrame (d e : Dev) : Prop where
  reg : ∀ a, FlowWord a → e.reg a = d.reg a
  lc : e.lc = d.lc
  begun : e.power.begun = d.power.begun

namespace FlowFrame

/-- An update beside the registers, time and power. -/
theorem of_eq {d e : Dev} (hcsr : e.csr = d.csr) (htime : e.time = d.time) (hpower : e.power = d.power) : FlowFrame d e where
  reg a _ := by rw [Dev.reg, hcsr, Dev.reg]
  lc := congrArg (·.lc) htime
  begun := congrArg (·.begun) hpower

theorem refl (d : Dev) : FlowFrame d d := .of_eq rfl rfl rfl

theorem trans {d e f : Dev} (h : FlowFrame d e) (k : FlowFrame e f) : FlowFrame d f where
  reg a ha := (k.reg a ha).trans (h.reg a ha)
  lc := k.lc.trans h.lc
  begun := k.begun.trans h.begun

theorem foldl {α : Type} {f : Dev → α → Dev} {l : List α} (h : ∀ e, ∀ x ∈ l, FlowFrame e (f e x)) (d : Dev) : FlowFrame d (l.foldl f d) :=
  List.foldlRecOn (motive := FlowFrame d) l f (.refl d) fun e he x hx => he.trans (h e x hx)

theorem ite {p : Prop} [Decidable p] {d e f : Dev} (h : FlowFrame d e) (k : FlowFrame d f) : FlowFrame d (if p then e else f) := by
  split
  · exact h
  · exact k

/-- Whether the gated blocks run is the same. -/
theorem powered {d e : Dev} (h : FlowFrame d e) : e.powered = d.powered := by
  rw [Dev.powered, pwState, fld, h.reg _ (.inr rfl), h.lc, h.begun, Dev.powered, pwState, fld]

/-- And the vectors sent are. -/
theorem xoffLossless {d e : Dev} (h : FlowFrame d e) {c : Nat} (hc : c < 1024) (k : d.XoffLossless c) : e.XoffLossless c := by
  refine k.congr (h.reg _ (.inl ?_))
  unfold R.SC_XOFF
  omega

/-! Words and counters. -/

theorem setReg (d : Dev) {a : Nat} (w : Word) (ha : ¬ FlowWord a) : FlowFrame d (d.setReg a w) where
  reg _ hb := reg_setReg_other _ _ _ _ fun h => ha (h ▸ hb)
  lc := rfl
  begun := rfl

theorem setNum (d : Dev) {a : Nat} (n : Nat) (ha : ¬ FlowWord a) : FlowFrame d (d.setNum a n) := .setReg d _ ha
theorem setFld (d : Dev) {a : Nat} (f : FR) (v : Nat) (ha : ¬ FlowWord a) : FlowFrame d (d.setFld a f v) := .setReg d _ ha

theorem incBy (d : Dev) (a n : Nat) : FlowFrame d (d.incBy a n) where
  reg _ _ := reg_incBy ..
  lc := by rw [Dev.lc, incBy_time, Dev.lc]
  begun := by rw [incBy_power]

theorem inc (d : Dev) (a : Nat) : FlowFrame d (d.inc a) := .incBy d a 1

theorem pm (d : Dev) (u : PmUnit) (ev : Nat) (vc : Option Nat) (n : Nat) : FlowFrame d (d.pm u ev vc n) := by
  unfold Dev.pm
  exact .ite (.refl d) (.foldl (fun e k _ => .ite (.incBy e _ n) (.refl e)) d)

/-! Events to the controller (spec/14_control_protocol.md R493 to R495). -/

theorem sendUcp (d : Dev) (ep : Ep) (slot : Nat) (frame : List Byte) : FlowFrame d (d.sendUcp ep slot frame) := by
  unfold Dev.sendUcp
  dsimp only
  exact .ite (.of_eq rfl rfl rfl) (.ite (.of_eq rfl rfl rfl) (.of_eq rfl rfl rfl))

theorem eventOn (d : Dev) (n cls code : Nat) (data : List Byte) : FlowFrame d (d.eventOn n cls code data) := by
  unfold Dev.eventOn
  dsimp only
  refine .ite (.ite (.trans ?_ (.inc ..)) (.trans ?_ (.sendUcp ..))) (.refl d)
  · exact .of_eq rfl rfl rfl
  · exact .of_eq rfl rfl rfl

theorem event (d : Dev) (cls code : Nat) (data : List Byte) : FlowFrame d (d.event cls code data) := by
  unfold Dev.event
  exact .foldl (fun e n _ => .eventOn e n cls code data) d

/-! Error records (spec/15_faults_sparing.md R501 to R514). -/

theorem not_flowWord_erRec {n k : Nat} (hn : n < 64) (hk : k < 16) : ¬ FlowWord (R.ER_REC n k) := by
  simp only [FlowWord, R.ER_REC, R.PW_STAT]
  omega

theorem pushTodo (d : Dev) (a : Action) : FlowFrame d (d.pushTodo a) := .of_eq (pushTodo_csr ..) (pushTodo_time ..) (pushTodo_power ..)

theorem recEvent (d : Dev) (n : Nat) : FlowFrame d (d.recEvent n) := .event ..

theorem flightTrigger (d : Dev) (sev : Nat) : FlowFrame d (d.flightTrigger sev) := by
  unfold Dev.flightTrigger
  exact .ite (.of_eq rfl rfl rfl) (.refl d)

theorem raiseSev (d : Dev) {n : Nat} (hn : n < 64) (sev : Nat) : FlowFrame d (d.raiseSev n sev) := by
  unfold Dev.raiseSev
  exact .ite (((setNum d _ (not_flowWord_erRec hn (by decide))).trans (.recEvent ..)).trans (.flightTrigger ..)) (.refl d)

theorem escalate (d : Dev) {n : Nat} (hn : n < 64) : FlowFrame d (d.escalate n) := by
  unfold Dev.escalate
  dsimp only
  split
  · exact .refl d
  · next sev _ =>
    refine .ite ?_ (.refl d)
    have hraised := (setNum d (putBits (d.erw n 1) 21 21 1) (not_flowWord_erRec hn (k := 1) (by decide))).trans (.raiseSev _ hn sev)
    split
    · exact hraised.trans (.pushTodo ..)
    · exact hraised

theorem recNew (d : Dev) {n : Nat} (hn : n < 64) (w0 sev : Nat) (det : List Nat) (part : Option Nat) : FlowFrame d (d.recNew n w0 sev det part) := by
  unfold Dev.recNew
  dsimp only
  refine (((foldl (fun e k hk => ?_) d).trans (.setNum _ _ ?_)).trans (.recEvent ..)).trans (.flightTrigger ..)
  · exact .setNum _ _ (not_flowWord_erRec hn (List.mem_range.mp hk))
  · simp [FlowWord, R.ER_NEXT, R.PW_STAT]

theorem recFold (d : Dev) {n : Nat} (hn : n < 64) : FlowFrame d (d.recFold n) := by
  unfold Dev.recFold
  exact ((setNum d _ (not_flowWord_erRec hn (by decide))).trans (.setNum _ _ (not_flowWord_erRec hn (by decide)))).trans
    (.setNum _ _ (not_flowWord_erRec hn (by decide)))

/-- An occurrence in a block whose elements have no health score (R536). -/
theorem occur (d : Dev) {blk inst : Nat} (h : healthOf blk inst = none) (cause sev : Nat) (det : List Nat) (part : Option Nat) :
    FlowFrame d (d.occur blk inst cause sev det part).1 := by
  have hhealth (e : Dev) (s r : Nat) : e.health blk inst s r = e := by simp [health, h]
  unfold Dev.occur
  dsimp only
  simp only [hhealth]
  have hpush {e : Dev} (he : FlowFrame d e) : FlowFrame d (if sev = 5 then e.pushTodo (.deviceFatal (recW0 blk inst cause)) else e) :=
    .ite (he.trans (.pushTodo ..)) he
  refine hpush ?_
  split
  · next n hn =>
    have hn := recOf_lt hn
    exact ((recFold d hn).trans (.raiseSev _ hn _)).trans (.escalate _ hn)
  · split
    · next n hn =>
      have hn := recSlot_lt hn
      exact (recNew d hn ..).trans (.escalate _ hn)
    · refine .trans (.setFld d _ _ ?_) (.inc ..)
      simp [FlowWord, R.ER_STAT, R.PW_STAT]

/-! Reads and writes of LPDDR6 (spec/19_lpddr6.md R624, R625, R630). -/

theorem burstFixed (d : Dev) (b : Nat) : FlowFrame d (d.burstFixed b) := (inc d _).trans (.occur _ rfl ..)
theorem burstFail (d : Dev) (b : Nat) : FlowFrame d (d.burstFail b) := (inc d _).trans (.occur _ rfl ..)

theorem burstBad (d : Dev) (b : Nat) : FlowFrame d (d.burstBad b) := by
  unfold Dev.burstBad
  exact .ite (.refl d) (.of_eq rfl rfl rfl)

theorem burstRead (d : Dev) (b : Nat) : FlowFrame d (d.burstRead b).2 := by
  unfold Dev.burstRead
  dsimp only
  have hread := pm d .ddr 0x0601 none 32
  split_ifs
  · exact .burstFail ..
  · exact (hread.trans (.burstBad ..)).trans (.burstFail ..)
  · exact hread.trans (.burstFail ..)
  · exact hread.trans (.burstFixed ..)
  · exact hread

theorem burstsRead (d : Dev) (l : List Nat) : FlowFrame d (d.burstsRead l).2 := by
  unfold Dev.burstsRead
  refine List.foldlRecOn (motive := fun x : List Nat × Dev => FlowFrame d x.2) _ _ (.refl d) fun x hx b _ => ?_
  have hstep := hx.trans (.burstRead x.2 b)
  split <;> next heq => rwa [heq] at hstep

theorem ddrWrite (d : Dev) (a n : Nat) : FlowFrame d (d.ddrWrite a n) := by
  unfold Dev.ddrWrite
  refine .trans ?_ (.pm ..)
  exact .of_eq rfl rfl rfl

theorem wrote (d : Dev) (l : List (Nat × Nat)) : FlowFrame d (d.wrote l) := .of_eq (wrote_csr ..) (wrote_time ..) (wrote_power ..)

theorem later (d : Dev) (w : DdrWait) : FlowFrame d (d.later w) := .of_eq rfl rfl rfl

/-! The overflow store (R623, R625). -/

theorem ovfRemove (d : Dev) (part : Nat) (mac : List Byte) : FlowFrame d (d.ovfRemove part mac) := by
  unfold Dev.ovfRemove Dev.setOvf
  dsimp only
  refine .ite (.trans ?_ (.ddrWrite ..)) (.of_eq rfl rfl rfl)
  exact .of_eq rfl rfl rfl

theorem ovfGone (d : Dev) (b : Nat) (l : List (List Byte)) : FlowFrame d (d.ovfGone b l) := by
  unfold Dev.ovfGone
  exact .ite (.refl d) (.ite (.later ..) (.foldl (fun e x _ => .ite (.ovfRemove ..) (.refl e)) d))

/-! The tables and their copies (spec/03_forwarding.md R98, R99, spec/15_faults_sparing.md R532). -/

theorem tblSet (d : Dev) (p table bank index : Nat) (v : List Byte) : FlowFrame d (d.tblSet p table bank index v) := by
  unfold Dev.tblSet
  dsimp only
  split_ifs <;> exact .of_eq rfl rfl rfl

theorem copySet (d : Dev) (p table bank index : Nat) (v : List Byte) : FlowFrame d (d.copySet p table bank index v) := by
  unfold Dev.copySet
  dsimp only
  split_ifs <;> exact .of_eq rfl rfl rfl

theorem copyPut (d : Dev) (p table bank index : Nat) (v : List Byte) (counted : Bool) : FlowFrame d (d.copyPut p table bank index v counted) := by
  unfold Dev.copyPut
  exact .ite ((copySet d ..).trans (.ddrWrite ..)) (.copySet ..)

theorem mirror (d : Dev) (p table bank index : Nat) (v : List Byte) (counted : Bool) : FlowFrame d (d.mirror p table bank index v counted) := by
  have hun : FlowFrame d (d.unrestore p table bank index) := .of_eq rfl rfl rfl
  unfold Dev.mirror
  exact .ite (hun.trans (.later ..)) (hun.trans (.copyPut ..))

theorem tblPut (d : Dev) (p table bank index : Nat) (v : List Byte) : FlowFrame d (d.tblPut p table bank index v) := by
  unfold Dev.tblPut
  exact .ite ((tblSet d ..).trans (.mirror ..)) (.tblSet ..)

theorem tblRestore (d : Dev) (p table bank : Nat) (l : List Nat) : FlowFrame d (d.tblRestore p table bank l).2 := by
  unfold Dev.tblRestore
  exact (burstsRead d _).trans (.foldl (fun e i _ => .ite (.tblPut ..) (.tblSet ..)) _)

theorem addLost (d : Dev) (ref n : Nat) : FlowFrame d (d.addLost ref n) := by
  unfold Dev.addLost
  split
  · next k hk => exact .setNum d _ (not_flowWord_erRec (recAt_lt hk) (by decide))
  · exact .refl d

theorem refill (d : Dev) (p table bank : Nat) (entries : List Nat) (ref : Nat) : FlowFrame d (d.refill p table bank entries ref) := by
  unfold Dev.refill
  exact .ite (.later ..) ((tblRestore d ..).trans (.addLost ..))

theorem bulkPut (d : Dev) (p table bank slot : Nat) : FlowFrame d (d.bulkPut p table bank slot) := by
  unfold Dev.bulkPut
  refine .ite (.refl d) (.trans ?_ (.pm ..))
  exact .of_eq rfl rfl rfl

/-! The images (spec/17_boot_security.md R588, spec/09_vat_programming.md R344). -/

theorem recipeGone (d : Dev) : FlowFrame d d.recipeGone := by
  unfold Dev.recipeGone
  refine .trans ?_ (.foldl (fun e b _ => .setFld e _ _ ?_) _)
  · exact .of_eq rfl rfl rfl
  · simp only [FlowWord, R.VB_RCP_STAT, R.PW_STAT]
    omega

theorem imemRefill (d : Dev) (off n : Nat) : FlowFrame d (d.imemRefill off n) := by
  unfold Dev.imemRefill
  dsimp only
  refine .ite (.refl d) (.ite (.later ..) ?_)
  have hread := burstsRead d (ddrBursts (0x2000000 + off) (min n (d.vat.image.length - off)))
  split
  · next heq => rwa [heq] at hread
  · next heq =>
    rw [heq] at hread
    exact hread.trans (.recipeGone ..)

theorem imageCopy (d : Dev) (n : Nat) : FlowFrame d (d.imageCopy n) := by
  unfold Dev.imageCopy
  exact .ite (.later ..) (.ddrWrite ..)

theorem fwCopy (d : Dev) (s : Nat) : FlowFrame d (d.fwCopy s) := by
  unfold Dev.fwCopy
  refine .ite (.ite (.refl d) (.later ..)) (.trans ?_ (.ddrWrite ..))
  exact .of_eq rfl rfl rfl

/-! What is written again after a loss (R535). -/

theorem copyAgain (d : Dev) (segs : List Nat) : FlowFrame d (d.copyAgain segs) := by
  unfold Dev.copyAgain
  refine .trans (.foldl (fun e p _ => ?_) d) (.foldl (fun e k _ => .ite (.copySet ..) (.refl e)) _)
  exact .foldl (fun e t _ => .foldl (fun e b _ => .foldl (fun e i _ => .ite (.copySet ..) (.refl e)) e) e) e

theorem slotRefill (d : Dev) (slot : Nat) : FlowFrame d (d.slotRefill slot) := by
  have hcopy : FlowFrame d (((d.spiRead 0).spiRead 1).copyAgain [16 * slot]) := by
    refine .trans ?_ (.copyAgain ..)
    exact .of_eq rfl rfl rfl
  unfold Dev.slotRefill
  dsimp only
  exact .ite hcopy ((hcopy.trans (.wrote ..)).trans (.pm ..))

/-! The accesses that have waited (R627). -/

theorem lateOne (d : Dev) (w : DdrWait) : FlowFrame d (d.lateOne w) := by
  cases w with
  | mirror => exact .copyPut ..
  | bulk => exact .bulkPut ..
  | restore p table bank l errs ref =>
    refine .trans ?_ (.refill ..)
    exact .of_eq rfl rfl rfl
  | image off n errs =>
    refine .trans ?_ (.imemRefill ..)
    exact .of_eq rfl rfl rfl
  | imageCopy => exact .imageCopy ..
  | fwCopy => exact .fwCopy ..
  | refill => exact .slotRefill ..
  | lose => exact .ovfGone ..

theorem burstOuts (d : Dev) : FlowFrame d d.burstOuts := by
  unfold Dev.burstOuts
  exact .ite (.refl d) (.of_eq rfl rfl rfl)

theorem lateAll (d : Dev) : FlowFrame d d.lateAll := by
  have htaken : FlowFrame d { d with ddr := { d.ddr with late := [] } } := .of_eq rfl rfl rfl
  have hmade := htaken.trans (.foldl (fun e w _ => .ite (.later ..) (.lateOne ..)) (l := d.ddr.late)
    (f := fun (d : Dev) w => if d.lateShut w then d.later w else d.lateOne w) _)
  unfold Dev.lateAll
  refine (hmade.trans (.burstOuts _)).trans ?_
  exact .of_eq rfl rfl rfl

/-! LM_EN in a wake (spec/16_power_umber.md R563). -/

theorem leaveRefresh (d : Dev) : FlowFrame d d.leaveRefresh := by
  unfold Dev.leaveRefresh
  refine .foldl (fun e c _ => .ite (.setFld e _ _ ?_) (.refl e)) d
  simp only [FlowWord, R.DD_CHSTAT, R.PW_STAT]
  omega

theorem setLmEn_on (d : Dev) (k : Nat) : FlowFrame d (d.setLmEn k true) := by
  unfold Dev.setLmEn
  refine .ite (.refl d) ?_
  dsimp only
  rw [if_pos rfl]
  have hpin : FlowFrame d (({ d with power := { d.power with lmEn := d.power.lmEn.set k true }, optic := { d.optic with tapT := Sparse.del d.optic.tapT k } } : Dev).emit
      (.pin "LM_EN" k true d.lc)) := ⟨fun _ _ => rfl, rfl, rfl⟩
  refine (hpin.trans (.foldl (fun e i _ => ?_) _)).trans (.foldl (fun e i _ => ?_) _)
  · exact .of_eq rfl rfl rfl
  · exact .of_eq rfl rfl rfl

theorem lmOn (d : Dev) : FlowFrame d d.lmOn := by
  unfold Dev.lmOn
  exact .foldl (fun e k _ => .ite (.setLmEn_on e k) (.refl e)) d

theorem lmWake (d : Dev) : FlowFrame d d.lmWake := by
  unfold Dev.lmWake
  exact .ite ((leaveRefresh d).trans (.lmOn _)) (.refl d)

end FlowFrame

/-- At the end of a step in which the gated blocks run no port code sends XOFF for VC5 or VC6, whatever came before. -/
theorem xoffLossless_settle (d : Dev) (u : Fuses) (on : (d.settle u).powered = true) {c : Nat} (hc : c < 1024) : (d.settle u).XoffLossless c := by
  unfold settle at on ⊢
  generalize hpre : (((actions 256 d).inboxes u).sessions u |> actions 256).queues = e at on ⊢
  have frame : FlowFrame e.flow e.flow.lmWake.lateAll := (FlowFrame.lmWake _).trans (.lateAll _)
  rw [frame.powered] at on
  refine frame.xoffLossless hc (e.xoffLossless_flow ?_ hc)
  cases hrun : e.powered with
  | true => rfl
  | false => rwa [flow, if_neg (by simp [hrun]), hrun] at on

end Dev

/-! Every step ends so. -/

/-- Whatever the way of an effect, the device of the next state is as it was, or one at the end of a step. -/
theorem Way.dev_settled {s t : State} {kd : Instr.Kind} {r : Res} (w : Way s kd r) (h : r = .next t) : t.dev = s.dev ∨ ∃ d u, t.dev = Dev.settle d u := by
  induction w with
  | act f =>
    rw [act_eq] at h
    cases h
    unfold State.effect
    split
    · exact .inl rfl
    · exact .inr ⟨_, _, rfl⟩
  | always now f =>
    unfold Machine.always Machine.passing at h
    cases predictable_next h
    exact .inr ⟨_, _, rfl⟩
  | actFuse f =>
    obtain ⟨-, rfl⟩ | ⟨-, rfl⟩ := actFuse_next h
    · exact .inl rfl
    · exact .inr ⟨_, _, rfl⟩
  | need ok _ ih =>
    obtain ⟨-, h⟩ | ⟨-, rfl⟩ := need_next h
    · exact ih h
    · exact .inl rfl
  | predictable bad _ ih => exact ih (predictable_next h)

/-- The same of a step. -/
theorem step_settled {s t : State} (h : step s = .next t) : t.dev = s.dev ∨ ∃ d u, t.dev = Dev.settle d u := by
  unfold step at h
  split at h
  · next c r _ =>
    obtain ⟨k, heq, w⟩ := exec_way c { s with pending := r }
    exact (w.need c.wellFormed).dev_settled (heq ▸ h)
  · exact (Way.timed s _ _).dev_settled h

end Sys2Proof.Machine

open Sys2Proof Sys2Proof.Machine

/-- Settles O14: at reset every word of SC_XOFF is as reset; a step leaves the device as it was or ends with flow control. -/
theorem xoffNeverSentForBestEffort : Obligations.XoffNeverSentForBestEffort := by
  refine ⟨fun _ c hc => Dev.xoffLossless_of_resetWord hc rfl, fun s t inv h on c hc => ?_⟩
  obtain hsame | ⟨d, u, hsettled⟩ := step_settled h
  · rw [hsame] at on ⊢
    exact inv on c hc
  · rw [hsettled] at on ⊢
    exact d.xoffLossless_settle u on hc

end

section
/-! PROOFS. The end of a step in which nothing waits: flow control, and nothing else. -/
namespace Sys2Proof.Machine
namespace Dev

/-! A device in which nothing waits (`Dev.quiet`), taken apart. -/

/-- No session is open. -/
def NoSession (d : Dev) : Prop := ∀ s ∈ d.mgmt.sess, s.state ≠ 2

structure Quiet (d : Dev) : Prop where
  pkts : d.core.pkts = []
  tx : d.core.tx = []
  todo : d.faults.todo = []
  mgmtInbox : d.mgmt.inbox = []
  timeInbox : d.time.inbox = []
  sess : d.NoSession
  notWaking : d.pwState ≠ 3
  late : d.ddr.late = []
  seen : d.seen = {}

theorem Quiet.of_quiet {d : Dev} (h : d.quiet = true) : d.Quiet := by
  simp only [quiet, Bool.and_eq_true, List.isEmpty_iff, List.all_eq_true, decide_eq_true_eq] at h
  obtain ⟨⟨⟨⟨⟨⟨⟨⟨hpkts, htx⟩, htodo⟩, hmgmt⟩, htime⟩, hsess⟩, hwake⟩, hlate⟩, hseen⟩ := h
  exact ⟨hpkts, htx, htodo, hmgmt, htime, hsess, hwake, hlate, hseen⟩

/-! What has nothing to do leaves the device as it is. -/

theorem actions_idle {d : Dev} (h : d.faults.todo = []) (n : Nat) : actions n d = d := by
  cases n with
  | zero => rfl
  | succ n => rw [actions, h]

theorem inboxes_empty {d : Dev} (u : Fuses) (hm : d.mgmt.inbox = []) (ht : d.time.inbox = []) : d.inboxes u = d := by
  have hsame : { d with mgmt := { d.mgmt with inbox := [] }, time := { d.time with inbox := [] } } = d := by rw [← hm, ← ht]
  unfold inboxes
  rw [hm, ht]
  exact hsame

theorem sessions_none {d : Dev} (u : Fuses) (h : d.NoSession) : d.sessions u = d := by
  unfold sessions
  exact if_pos (List.all_eq_true.mpr fun s hs => decide_eq_true (h s hs))

theorem queues_empty {d : Dev} (hp : d.core.pkts = []) (ht : d.core.tx = []) : d.queues = d := by
  have hbehind : d.behindAll = d := by
    unfold behindAll
    rw [hp]
    rfl
  have hstall : d.stallNote = d := by
    unfold stallNote
    rw [hp]
    rfl
  rw [queues, hbehind, hstall, turnsSettle, ht]
  rfl

theorem event_none {d : Dev} (h : d.NoSession) (cls code : Nat) (data : List Byte) : d.event cls code data = d := by
  have hclosed (n : Nat) : (d.sessAt n).state ≠ 2 := by
    unfold sessAt
    rw [List.getD_eq_getElem?_getD]
    cases hn : d.mgmt.sess[n]? with
    | none => decide
    | some s => exact h s (List.mem_of_getElem? hn)
  unfold event
  refine List.foldlRecOn (motive := fun e => e = d) _ _ rfl fun e he n _ => ?_
  rw [he, eventOn]
  exact if_neg fun hn => hclosed n hn.1

theorem lmWake_not {d : Dev} (h : d.pwState ≠ 3) : d.lmWake = d := if_neg fun hw => h hw.1

theorem lateAll_none {d : Dev} (hl : d.ddr.late = []) (hs : d.seen = {}) : d.lateAll = d := by
  have hlate : { d with ddr := { d.ddr with late := [] } } = d := by rw [← hl]
  have houts : d.burstOuts = d := by
    unfold burstOuts
    rw [hs]
    rfl
  unfold lateAll
  rw [hl, hlate]
  dsimp only [List.foldl_nil]
  rw [houts, ← hs]

/-! Flow control (R153 to R155, R177, R182). -/

/-- What flow control may change beside the words of SC_XOFF. -/
def setFlow (d : Dev) (w : Bool) (b : Nat) (x m : List (Nat × Nat)) : Dev :=
  { d with core := { d.core with warn := w, warnBeat := b, xoffThr := x }, csr := { d.csr with ctrs := m } }

/-- The device `e` is `d` but for what flow control changes: the notes of POOL_WARN and of the thresholds, the count of headroom stops, the words of SC_XOFF. -/
def FlowOnly (d e : Dev) : Prop :=
  ∃ w b x m, RegsOnly ((List.range 1024).map R.SC_XOFF) (d.setFlow w b x m) e ∧ ∀ a, a ≠ R.SC_HR_STOP → Sparse.get 0 m a = d.ctr a

theorem FlowOnly.refl (d : Dev) : d.FlowOnly d := ⟨d.core.warn, d.core.warnBeat, d.core.xoffThr, d.csr.ctrs, .refl _ d, fun _ _ => rfl⟩

/-- What lies beside the registers is as it was but for the notes. -/
theorem FlowOnly.rest {d e : Dev} (h : d.FlowOnly e) : ∃ w b x, { e with csr := d.csr } = { d with core := { d.core with warn := w, warnBeat := b, xoffThr := x } } := by
  obtain ⟨w, b, x, m, ⟨-, -, -, -, -, -, hrest⟩, -⟩ := h
  exact ⟨w, b, x, congrArg (fun z : Dev => { z with csr := d.csr }) hrest⟩

theorem FlowOnly.warnUpdate {d : Dev} (h : d.NoSession) : d.FlowOnly d.warnUpdate := by
  have hevent : d.warnUpdate = d.setFlow d.poolWarn d.warnUpdate.core.warnBeat d.core.xoffThr d.csr.ctrs := by
    unfold Dev.warnUpdate
    simp only [event_none h, ite_self]
    rfl
  rw [hevent]
  exact ⟨_, _, _, _, .refl _ _, fun _ _ => rfl⟩

theorem FlowOnly.setXoffThr {d e : Dev} (h : d.FlowOnly e) (c n : Nat) : d.FlowOnly (e.setXoffThr c n) := by
  obtain ⟨w, b, x, m, ⟨hreg, hctrs, hrwb, hsnap, hlatch, harm, hrest⟩, hctr⟩ := h
  have hthr : e.core.xoffThr = x := congrArg (·.core.xoffThr) hrest
  refine ⟨w, b, Sparse.put 0 x c n, m, ⟨hreg, hctrs, hrwb, hsnap, hlatch, harm, ?_⟩, hctr⟩
  rw [Dev.setXoffThr, hthr]
  exact congrArg (fun z : Dev => { z with core := { z.core with xoffThr := Sparse.put 0 x c n } }) hrest

theorem FlowOnly.countStop {d e : Dev} (h : d.FlowOnly e) (c : Nat) (stop : Bool) : d.FlowOnly (e.countStop c stop) := by
  unfold Dev.countStop
  split
  · obtain ⟨w, b, x, m, ⟨hreg, hctrs, hrwb, hsnap, hlatch, harm, hrest⟩, hctr⟩ := h
    obtain ⟨m', hinc⟩ := e.incBy_csr R.SC_HR_STOP 1
    refine ⟨w, b, x, m', ?_, fun a ha => ?_⟩
    · rw [inc, hinc]
      exact ⟨hreg, rfl, hrwb, hsnap, hlatch, harm, congrArg (fun z : Dev => { z with csr := { z.csr with ctrs := m' } }) hrest⟩
    · have hother := e.ctr_incBy_other R.SC_HR_STOP a 1 ha
      rw [hinc] at hother
      exact hother.trans ((congrArg (Sparse.get 0 · a) hctrs).trans (hctr a ha))
  · exact h

theorem FlowOnly.setFld {d e : Dev} (h : d.FlowOnly e) {c : Nat} (hc : c < 1024) (f : FR) (v : Nat) : d.FlowOnly (e.setFld (R.SC_XOFF c) f v) := by
  obtain ⟨w, b, x, m, hregs, hctr⟩ := h
  exact ⟨w, b, x, m, hregs.setFld f v (List.mem_map_of_mem (List.mem_range.mpr hc)), hctr⟩

theorem FlowOnly.xoffUpdate {d e : Dev} (h : d.FlowOnly e) {c : Nat} (hc : c < 1024) : d.FlowOnly (e.xoffUpdate c) := by
  rw [xoffUpdate_eq]
  exact (((h.setXoffThr ..).countStop ..).setFld hc ..).setFld hc ..

theorem FlowOnly.flow {d : Dev} (h : d.NoSession) : d.FlowOnly d.flow := by
  unfold Dev.flow
  split
  · exact List.foldlRecOn (motive := d.FlowOnly) _ _ (.warnUpdate h) fun e he c hc => he.xoffUpdate (lt_of_mem_xoffCodes hc)
  · exact .refl d

/-- Flow control does not begin a wake. -/
theorem FlowOnly.pwState {d e : Dev} (h : d.FlowOnly e) : e.pwState = d.pwState := by
  obtain ⟨w, b, x, m, ⟨hreg, -⟩, -⟩ := h
  have hword : R.PW_STAT ∉ (List.range 1024).map R.SC_XOFF := by
    rw [List.mem_map]
    rintro ⟨c, hc, heq⟩
    rw [List.mem_range] at hc
    simp only [R.SC_XOFF, R.PW_STAT] at heq
    omega
  rw [Dev.pwState, fld, hreg _ hword]
  rfl

/-- Where nothing waits, the end of a step is flow control. -/
theorem settle_quiet {d : Dev} (q : d.Quiet) (u : Fuses) : d.settle u = d.flow := by
  obtain ⟨hpkts, htx, htodo, hmgmt, htime, hsess, hwake, hlate, hseen⟩ := q
  have hflow := FlowOnly.flow hsess
  obtain ⟨w, b, x, hrest⟩ := hflow.rest
  unfold settle
  rw [actions_idle htodo, inboxes_empty u hmgmt htime, sessions_none u hsess, actions_idle htodo, queues_empty hpkts htx,
    lmWake_not (by rwa [hflow.pwState]), lateAll_none]
  · exact (congrArg (·.ddr.late) hrest).trans hlate
  · exact (congrArg (·.seen) hrest).trans hseen

end Dev
end Sys2Proof.Machine

open Sys2Proof Sys2Proof.Machine

/-- Settles O6: with nothing else to do the end of a step is flow control, which the gated blocks' standing still makes nothing. -/
theorem quietDeviceUpdatesFlowControlOnly : Obligations.QuietDeviceUpdatesFlowControlOnly := by
  intro d u h
  have q := Dev.Quiet.of_quiet h
  rw [Dev.settle_quiet q u]
  refine ⟨fun off => ?_, Dev.FlowOnly.flow q.sess⟩
  rw [Dev.flow, if_neg (by simp [off])]

end

section
/-! PROOFS. Admission to Lake of a packet of a lossless VC. -/
namespace Sys2Proof.Machine
namespace Dev

/-! Admission of a lossless packet (R178): it is decided on the device in which push-out has made what room it can. -/

/-- Charged whole to headroom, and counted. -/
def admitHr (d : Dev) (k : Pkt) : Dev × Option Pkt :=
  ((d.chargeHr k).2.inc R.LK_ADMIT_HR, some (d.chargeHr k).1)

/-- Charged whole to the main pool, and counted. -/
def admitMain (d : Dev) (k : Pkt) (os : List Owner) : Dev × Option Pkt :=
  ((d.chargeMain k os true).2.countAdmit (d.chargeMain k os true).1, some (d.chargeMain k os true).1)

/-- The device after push-out for an arrival whose cells R173 refuses, where LK_PUSH enables it (R183). -/
def madeRoom (d : Dev) (k : Pkt) (os : List Owner) : Dev :=
  if ¬ d.grants k.cells os ∧ d.on R.LK_PUSH F.LK_PUSH_PUSH_EN
  then pushOut k.h.vc k.cells os (d.fld R.LK_PUSH F.LK_PUSH_PUSH_MAX) d else d

/-- What admission does with a lossless packet: both discards of `admitPkt` stand on branches of the other VCs (R178, R179). -/
theorem admitPkt_lossless {d : Dev} {k : Pkt} (out : Nat) (h : lossless k.h.vc = true) :
    let os := d.portOwners k.port k.h.vc k.h.part
    d.admitPkt k out =
      if d.stopThr k.h.vc ≤ d.occOf k.port k.h.vc then d.admitHr k
      else if (d.madeRoom k os).grants k.cells os then (d.madeRoom k os).admitMain k os
      else (d.madeRoom k os).admitHr k := by
  simp only [admitPkt, h, not_true_eq_false, false_and, if_true, if_false]
  rfl

/-- A packet that keeps its name and whose cells come whole from one of the two stores (R178). -/
def AdmittedWhole (k : Pkt) (r : Dev × Option Pkt) : Prop :=
  ∃ e k', r = (e, some k') ∧ k'.id = k.id ∧ ((k'.main = k.cells ∧ k'.hr = 0) ∨ (k'.main = 0 ∧ k'.hr = k.cells))

theorem admittedWhole_admitHr (d : Dev) (k : Pkt) : AdmittedWhole k (d.admitHr k) :=
  ⟨_, _, rfl, rfl, .inr ⟨rfl, rfl⟩⟩

theorem admittedWhole_admitMain (d : Dev) (k : Pkt) (os : List Owner) : AdmittedWhole k (d.admitMain k os) :=
  ⟨_, _, rfl, rfl, .inl ⟨rfl, rfl⟩⟩

end Dev
end Sys2Proof.Machine

open Sys2Proof Sys2Proof.Machine

/-- Settles O38: whichever branch of admission a lossless packet takes, it is charged whole to one of the two stores. -/
theorem losslessPacketsAreAlwaysAdmitted : Obligations.LosslessPacketsAreAlwaysAdmitted := by
  intro d k out h
  change Dev.AdmittedWhole k (d.admitPkt k out)
  rw [Dev.admitPkt_lossless out h]
  split
  · exact Dev.admittedWhole_admitHr ..
  · split
    · exact Dev.admittedWhole_admitMain ..
    · exact Dev.admittedWhole_admitHr ..

end

section
/-! PROOFS. GO of a gate list. -/
namespace Sys2Proof.Machine
namespace Dev

/-! The write of LEN and CYCLE_BEATS that comes with every write of GCL_CTRL (R207). -/

/-- The device with LEN and CYCLE_BEATS of a port code's GCL_CTRL written. -/
def setGclCtrl (d : Dev) (c len cyc : Nat) : Dev :=
  (d.setFld (R.GCL_CTRL (plOf c) (c % 64)) F.GCL_CTRL_LEN len).setFld (R.GCL_CTRL (plOf c) (c % 64)) F.GCL_CTRL_CYCLE_BEATS cyc

theorem reg_setGclCtrl_other (d : Dev) (c len cyc : Nat) {a : Nat} (h : a ≠ R.GCL_CTRL (plOf c) (c % 64)) : (d.setGclCtrl c len cyc).reg a = d.reg a := by
  rw [setGclCtrl, reg_setFld_other _ _ _ _ _ h, reg_setFld_other _ _ _ _ _ h]

theorem len_setGclCtrl (d : Dev) (c cyc : Nat) {len : Nat} (h : len < 128) :
    (d.setGclCtrl c len cyc).fld (R.GCL_CTRL (plOf c) (c % 64)) F.GCL_CTRL_LEN = len := by
  rw [setGclCtrl, fld_setFld_other _ _ _ _ _ (by decide) (by decide) (by decide), fld_setFld_same _ _ _ _ (by decide) (by decide)]
  exact Nat.mod_eq_of_lt h

theorem cycleBeats_setGclCtrl (d : Dev) (c len : Nat) {cyc : Nat} (h : cyc < 8192) :
    (d.setGclCtrl c len cyc).fld (R.GCL_CTRL (plOf c) (c % 64)) F.GCL_CTRL_CYCLE_BEATS = cyc := by
  rw [setGclCtrl, fld_setFld_same _ _ _ _ (by decide) (by decide)]
  exact Nat.mod_eq_of_lt h

theorem gclStat_ne_gclCtrl (p k : Nat) : R.GCL_STAT p k ≠ R.GCL_CTRL p k := by
  unfold R.GCL_STAT R.GCL_CTRL
  omega

theorem on_setGclCtrl_stat (d : Dev) (c len cyc : Nat) (f : FR) :
    (d.setGclCtrl c len cyc).on (R.GCL_STAT (plOf c) (c % 64)) f = d.on (R.GCL_STAT (plOf c) (c % 64)) f := by
  rw [on, fld, reg_setGclCtrl_other _ _ _ _ (gclStat_ne_gclCtrl _ _), on, fld]

theorem setGclCtrl_regsOnly {l : List Nat} (d : Dev) {c : Nat} (len cyc : Nat) (h : R.GCL_CTRL (plOf c) (c % 64) ∈ l) :
    RegsOnly l d (d.setGclCtrl c len cyc) :=
  ((RegsOnly.refl l d).setFld _ _ h).setFld _ _ h

/-! What decides about a GO (R207): BASE, and whether a list is pending. -/

/-- BASE of a port code's gate list. -/
def gclBase (d : Dev) (c : Nat) : Nat :=
  (d.reg (R.GCL_BASE_LO (plOf c) (c % 64))).toNat + bits (d.reg (R.GCL_BASE_HI (plOf c) (c % 64))).toNat 15 0 * 2 ^ 32

/-- Whether a GO is accepted: no list is pending, and BASE is at least two and less than 2^47 beats ahead. -/
def gclAccepts (d : Dev) (c : Nat) : Bool :=
  (Sparse.find d.core.gcl c).isNone && decide (2 ≤ d.beatsAhead (d.gclBase c) ∧ d.beatsAhead (d.gclBase c) < 2 ^ 47)

theorem gclBase_setGclCtrl (d : Dev) (c len cyc : Nat) : (d.setGclCtrl c len cyc).gclBase c = d.gclBase c := by
  have hlo (p k : Nat) : R.GCL_BASE_LO p k ≠ R.GCL_CTRL p k := by
    unfold R.GCL_BASE_LO R.GCL_CTRL
    omega
  have hhi (p k : Nat) : R.GCL_BASE_HI p k ≠ R.GCL_CTRL p k := by
    unfold R.GCL_BASE_HI R.GCL_CTRL
    omega
  rw [gclBase, reg_setGclCtrl_other _ _ _ _ (hlo _ _), reg_setGclCtrl_other _ _ _ _ (hhi _ _), gclBase]

theorem gclAccepts_setGclCtrl (d : Dev) (c len cyc : Nat) : (d.setGclCtrl c len cyc).gclAccepts c = d.gclAccepts c := by
  rw [gclAccepts, gclBase_setGclCtrl]
  rfl

/-! The lists captured. -/

/-- The lists that wait for their hand-over replaced. -/
def setGcl (d : Dev) (m : List (Nat × (Nat × Nat × Nat))) : Dev := { d with core := { d.core with gcl := m } }

@[simp] theorem fld_setGcl (d : Dev) (m : List (Nat × (Nat × Nat × Nat))) (a : Nat) (f : FR) : (d.setGcl m).fld a f = d.fld a f := rfl
@[simp] theorem on_setGcl (d : Dev) (m : List (Nat × (Nat × Nat × Nat))) (a : Nat) (f : FR) : (d.setGcl m).on a f = d.on a f := rfl

/-- A frame holds as well with the lists replaced on both sides. -/
theorem RegsOnly.setGcl {l : List Nat} {d e : Dev} (h : RegsOnly l d e) (m : List (Nat × (Nat × Nat × Nat))) : RegsOnly l (d.setGcl m) (e.setGcl m) := by
  obtain ⟨hreg, hctrs, hrwb, hsnap, hlatch, harm, hrest⟩ := h
  exact ⟨hreg, hctrs, hrwb, hsnap, hlatch, harm, congrArg (·.setGcl m) hrest⟩

/-! GO: PENDING where it is accepted, GO_REFUSED where it is not. -/

/-- The bit of GCL_STAT that answers a GO. -/
def gclAnswer (d : Dev) (c : Nat) (ok : Bool) : Dev :=
  (d.setWhen (R.GCL_STAT (plOf c) (c % 64)) ok F.GCL_STAT_PENDING).setWhen (R.GCL_STAT (plOf c) (c % 64)) (!ok) F.GCL_STAT_GO_REFUSED

theorem fld_gclAnswer_ctrl (d : Dev) (c : Nat) (ok : Bool) (f : FR) :
    (d.gclAnswer c ok).fld (R.GCL_CTRL (plOf c) (c % 64)) f = d.fld (R.GCL_CTRL (plOf c) (c % 64)) f := by
  simp only [gclAnswer, fld_setWhen_elsewhere _ _ _ _ _ _ (gclStat_ne_gclCtrl _ _).symm]

theorem pending_gclAnswer (d : Dev) (c : Nat) (ok : Bool) : (d.gclAnswer c ok).on (R.GCL_STAT (plOf c) (c % 64)) F.GCL_STAT_PENDING =
    (d.on (R.GCL_STAT (plOf c) (c % 64)) F.GCL_STAT_PENDING || ok) := by
  rw [gclAnswer, on_setWhen_other _ _ _ _ _ (by decide) (by decide) (by decide), on_setWhen_same _ _ _ _ (by decide) (by decide)]

theorem goRefused_gclAnswer (d : Dev) (c : Nat) (ok : Bool) : (d.gclAnswer c ok).on (R.GCL_STAT (plOf c) (c % 64)) F.GCL_STAT_GO_REFUSED =
    (d.on (R.GCL_STAT (plOf c) (c % 64)) F.GCL_STAT_GO_REFUSED || !ok) := by
  rw [gclAnswer, on_setWhen_same _ _ _ _ (by decide) (by decide), on_setWhen_other _ _ _ _ _ (by decide) (by decide) (by decide)]

theorem RegsOnly.gclAnswer {l : List Nat} {d e : Dev} (h : RegsOnly l d e) {c : Nat} (ok : Bool) (hc : R.GCL_STAT (plOf c) (c % 64) ∈ l) :
    RegsOnly l d (e.gclAnswer c ok) :=
  (h.setWhen _ _ hc).setWhen _ _ hc

/-- GO on the device whose LEN and CYCLE_BEATS are written. -/
theorem gclWrite_go_split (d : Dev) (c len cyc : Nat) : d.gclWrite c len cyc false true =
    let e := d.setGclCtrl c len cyc
    if e.gclAccepts c then (e.setFld (R.GCL_STAT (plOf c) (c % 64)) F.GCL_STAT_PENDING 1).setGcl (Sparse.ins e.core.gcl c (len, cyc, e.gclBase c))
    else e.setFld (R.GCL_STAT (plOf c) (c % 64)) F.GCL_STAT_GO_REFUSED 1 := by
  simp only [gclAccepts, Bool.and_eq_true, decide_eq_true_eq]
  rfl

/-- GO writes LEN and CYCLE_BEATS, answers in GCL_STAT, and captures the list where it is accepted. -/
theorem gclWrite_go (d : Dev) (c len cyc : Nat) : d.gclWrite c len cyc false true =
    ((d.setGclCtrl c len cyc).gclAnswer c (d.gclAccepts c)).setGcl
      (if d.gclAccepts c then Sparse.ins d.core.gcl c (len, cyc, d.gclBase c) else d.core.gcl) := by
  rw [gclWrite_go_split]
  dsimp only
  rw [gclAccepts_setGclCtrl, gclBase_setGclCtrl]
  cases d.gclAccepts c with
  | true => rfl
  | false => rfl

end Dev

/-- GCL_GO outside Umber, whose operands lie within LEN and CYCLE_BEATS, which the model takes modulo their widths (log entry 10). -/
theorem exec_gclGo (s : State) (now : Nat) {c len cyc : Nat} (awake : s.dev.pwState ≠ 2) (hc : c < 1024) (hl : len < 128) (hy : cyc < 8192) :
    exec (.gclGo now c len cyc) s = predictable s (fun d _ => (d.advance now).gclBad c len cyc)
      (timed now s fun d _ => d.gclWrite c len cyc false true) := by
  refine need_eq (decide_eq_true hc) (need_eq (s.dev.reaches_awake _ awake) ?_)
  rw [Nat.mod_eq_of_lt hl, Nat.mod_eq_of_lt hy]

end Sys2Proof.Machine

open Sys2Proof Sys2Proof.Machine

/-- Settles O39: a list that is a controller error stops, whether or not R207 would refuse its GO (log entry 91); any other is captured or refused by the
state that the write of LEN and CYCLE_BEATS leaves as it was. -/
theorem gateListGo : Obligations.GateListGo := by
  intro s now c len cyc r m hc hl hy awake d
  rw [exec_gclGo s now awake hc hl hy]
  refine ⟨fun bad => predictable_bad s _ _ r bad, fun good => ?_⟩
  intro ct st base ok
  have hct : ct ∈ [ct, st] := by simp
  have hst : st ∈ [ct, st] := by simp
  refine ⟨_, by rw [predictable_eq good (timed_next now s _ r m), Dev.gclWrite_go], ?frame, ?listLen, ?cycleBeats, ?pending, ?refused⟩
  case frame => exact ((d.setGclCtrl_regsOnly len cyc hct).gclAnswer _ hst).setGcl _
  case listLen => rw [Dev.fld_setGcl, Dev.fld_gclAnswer_ctrl, d.len_setGclCtrl c cyc hl]
  case cycleBeats => rw [Dev.fld_setGcl, Dev.fld_gclAnswer_ctrl, d.cycleBeats_setGclCtrl c len hy]
  case pending =>
    rw [Dev.on_setGcl, Dev.pending_gclAnswer, Dev.on_setGclCtrl_stat]
    rfl
  case refused =>
    rw [Dev.on_setGcl, Dev.goRefused_gclAnswer, Dev.on_setGclCtrl_stat]
    rfl

end

section
/-! PROOFS. The commands of the collective engine, the vats and the table windows complete. -/
open Sys2Proof Sys2Proof.Machine

/-- Settles O53: each command composed as its definition composes it, from its conditions and the way of its effect. -/
theorem collectiveCommandsComplete : Obligations.CollectiveCommandsComplete := by
  intro s r
  dsimp only [exec]
  refine ⟨?resultAdmit, ?contributionAccept, ?vatContribution, ?handlerStep, ?handlerFinal, ?arrayOpComplete, ?chunkTimeout, ?recordEntryExpire,
    ?launchAckAccept, ?launchTimeout, ?launchSlotFree, ?ceAbortGo, ?partitionAbortRun, ?ceTwRead, ?ceTwWrite, ?ceTwInvalidate, ?ceWindowComplete,
    ?twRead, ?twWrite, ?twInvalidate, ?twBankCopy, ?twEmInsert, ?twEmDelete, ?twEmFind, ?twEmFlush, ?tableWindowComplete⟩
  case resultAdmit | contributionAccept | vatContribution | launchAckAccept =>
    exact fun _ _ _ m wf good => need_eq wf (predictable_eq good (timed_next _ s _ r m))
  case tableWindowComplete => exact fun _ _ _ _ m wf good => need_eq wf (predictable_eq good (timed_next _ s _ r m))
  case partitionAbortRun | ceWindowComplete => exact fun _ _ m => timed_next _ s _ r m
  case handlerStep => exact fun _ _ m wf => need_eq wf (timed_next _ s _ r m)
  case handlerFinal | recordEntryExpire | launchSlotFree => exact fun _ _ _ _ m wf => need_eq wf (timed_next _ s _ r m)
  case arrayOpComplete | chunkTimeout | launchTimeout => exact fun _ _ _ _ _ m wf => need_eq wf (timed_next _ s _ r m)
  case ceTwRead | ceTwWrite | ceTwInvalidate => exact fun _ _ m reach => need_eq reach (timed_next _ s _ r m)
  case ceAbortGo | twEmInsert | twEmDelete | twEmFind | twEmFlush =>
    exact fun _ _ m wf reach => need_eq wf (need_eq reach (timed_next _ s _ r m))
  case twRead | twWrite | twInvalidate | twBankCopy =>
    exact fun _ _ _ _ m wf reach => need_eq wf (need_eq reach (timed_next _ s _ r m))

end

section
/-! PROOFS. GO in CE_ABORT. -/
namespace Sys2Proof.Machine
namespace Dev

/-! The answers to a request for an abort (spec/07_collectives.md R253, spec/15_faults_sparing.md R517). -/

/-- Partition 0 has no abort. -/
theorem abortRequest_zero (d : Dev) : d.abortRequest 0 = (d.setFld R.CE_ABORT F.CE_ABORT_REFUSED 1, true) := if_pos (.inl rfl)

/-- A register is written the same before the notes of faults are replaced and after. -/
theorem setFld_withFaults (d : Dev) (a : Nat) (f : FR) (v : Nat) (x : Faults) :
    { d.setFld a f v with faults := x } = ({ d with faults := x } : Dev).setFld a f v := rfl

section
variable {d : Dev} {p : Nat}

/-- A partition that is ABORTED, or whose abort runs or waits, needs no other abort, however many wait (log entry 85). -/
theorem abortRequest_known (hp : p ≠ 0) (known : d.abortKnown p = true) : d.abortRequest p = (d, false) := by
  simp [abortRequest, abortBegin, hp, known]

theorem abortRequest_full (fresh : d.abortKnown p = false) (runs : d.faults.abortRun.isSome = true)
    (full : 16 ≤ d.faults.aborts.length) :
    d.abortRequest p = (d.setFld R.CE_ABORT F.CE_ABORT_REFUSED 1, true) :=
  if_pos (.inr ⟨by simp [fresh], runs, full⟩)

variable (hp : p ≠ 0) (fresh : d.abortKnown p = false)
include hp fresh

theorem abortRequest_waits (runs : d.faults.abortRun.isSome = true) (room : d.faults.aborts.length < 16) :
    d.abortRequest p = ({ d with faults := { d.faults with aborts := d.faults.aborts ++ [(p, 2, 0)] } }, false) := by
  simp [abortRequest, abortBegin, hp, fresh, runs, room]

theorem abortRequest_begins (idle : d.faults.abortRun.isSome = false) : d.abortRequest p =
    (({ d with faults := { d.faults with abortRun := some (p, 2, 0), abortStart := d.beatNo } } : Dev).setFld R.CE_ABORT F.CE_ABORT_BUSY 1, false) := by
  rw [abortRequest, if_neg (by simp [hp, idle]), abortBegin, if_neg (by simp [hp, fresh]), if_neg (by simp [idle]), setFld_withFaults]

end

end Dev

/-- GO in CE_ABORT outside Umber: PARTITION is written, and then the request is answered. -/
theorem exec_ceAbortGo (s : State) (now : Nat) (r : s.dev.inReset = false) (m : s.dev.mrdTrap now = false) (awake : s.dev.pwState ≠ 2)
    {p : Nat} (hp : p < 4096) :
    exec (.ceAbortGo now p) s = .next (s.after (((s.dev.advance now).setFld R.CE_ABORT F.CE_ABORT_PARTITION p).abortRequest p).1) :=
  need_eq (decide_eq_true hp) (need_eq (s.dev.reaches_awake _ awake) (timed_next now s _ r m))

end Sys2Proof.Machine

open Sys2Proof Sys2Proof.Machine

/-- Settles O43: the request is answered on the device whose PARTITION is written. -/
theorem abortIsRefusedOrBegins : Obligations.AbortIsRefusedOrBegins := by
  intro s now p r m hp awake d full
  rw [exec_ceAbortGo s now r m awake hp]
  refine ⟨fun h0 => ?zero, fun h0 known => ?known, fun h0 fresh hfull => ?full, fun h0 fresh runs hroom => ?waits, fun h0 fresh idle => ?begins⟩
  case zero =>
    subst h0
    rw [Dev.abortRequest_zero]
  case known => rw [Dev.abortRequest_known h0 known]
  case full =>
    obtain ⟨runs, hlen⟩ : d.faults.abortRun.isSome = true ∧ 16 ≤ d.faults.aborts.length := by simpa [full] using hfull
    rw [Dev.abortRequest_full fresh runs hlen]
  case waits =>
    have room : d.faults.aborts.length < 16 := by simpa [full, runs] using hroom
    rw [Dev.abortRequest_waits h0 fresh runs room]
  case begins =>
    rw [Dev.abortRequest_begins h0 fresh idle]
    exact ⟨_, rfl, Dev.on_setFld_bit _ R.CE_ABORT 30 true (by decide), (Dev.RegsOnly.refl _ _).setFld _ _ (List.mem_singleton_self _)⟩

end

section
/-! PROOFS. Conversion of a finite value to a tally (spec/08_vat_arithmetic.md R270). -/
namespace Sys2Proof.Machine

/-- A magnitude as a tally of its sign, with whether it saturates (R270). -/
def asTally (neg : Bool) (t : Nat) : Int × Bool := if 2 ^ 31 - 1 ≤ t then (signed neg (2 ^ 31 - 1), true) else (signed neg t, false)

theorem toTally_fin (A : Int) (neg : Bool) (m : Nat) (e : Int) :
    toTally A (.fin neg m e) = asTally neg (if m = 0 then 0 else rne m (min (e - A) 2048)) := rfl

theorem asTally_zero (neg : Bool) : asTally neg 0 = (0, false) := by cases neg <;> rfl

theorem asTally_of_large (neg : Bool) {t : Nat} (h : 2 ^ 31 - 1 ≤ t) : asTally neg t = (signed neg (2 ^ 31 - 1), true) := if_pos h

theorem toTally_of_pos (A : Int) (neg : Bool) {m : Nat} (h : 0 < m) (e : Int) :
    toTally A (.fin neg m e) = asTally neg (rne m (min (e - A) 2048)) := by rw [toTally_fin, if_neg h.ne']

theorem rne_of_nonneg (m : Nat) : ∀ {k : Int}, 0 ≤ k → rne m k = m * 2 ^ k.toNat
  | .ofNat _, _ => rfl

/-- `t` is an integer nearest to m / p, the even one where two are equally near (R270). -/
def Nearest (m p t : Nat) : Prop :=
  2 * (t * p) ≤ 2 * m + p ∧ 2 * m ≤ 2 * (t * p) + p ∧ (2 * (t * p) = 2 * m + p ∨ 2 * m = 2 * (t * p) + p → t % 2 = 0)

theorem nearest_rne (m : Nat) : ∀ {k : Int}, k < 0 → Nearest m (2 ^ (-k).toNat) (rne m k)
  | .negSucc n, _ => by
    have whole := Nat.div_add_mod' m (2 ^ (n + 1))
    have part := Nat.mod_lt m (Nat.two_pow_pos (n + 1))
    change Nearest m (2 ^ (n + 1)) (rne m (.negSucc n))
    unfold rne Nearest
    dsimp only
    generalize m / 2 ^ (n + 1) = q, m % 2 ^ (n + 1) = r at *
    rw [pow_succ] at *
    split_ifs with up
    · rw [Nat.add_one_mul q]
      omega
    · omega

/-- An exact conversion; an exponent difference that the model cuts down to 2048 saturates with or without the cut (R270). -/
theorem toTally_exact {A e : Int} (neg : Bool) {m : Nat} (hm : 0 < m) (h : A ≤ e) :
    toTally A (.fin neg m e) = asTally neg (m * 2 ^ (e - A).toNat) := by
  rw [toTally_of_pos A neg hm]
  rcases le_total (e - A) 2048 with small | large
  · rw [min_eq_left small, rne_of_nonneg m (by omega)]
  · have big {k : Nat} (hk : 31 ≤ k) : 2 ^ 31 - 1 ≤ m * 2 ^ k := calc
      2 ^ 31 - 1 ≤ 2 ^ 31 := Nat.sub_le ..
      _ ≤ 2 ^ k := Nat.pow_le_pow_right (by decide) hk
      _ ≤ m * 2 ^ k := Nat.le_mul_of_pos_left _ hm
    rw [min_eq_right large, rne_of_nonneg m (by decide), asTally_of_large neg (big (by decide)), asTally_of_large neg (big (by omega))]

theorem toTally_rounded {A e : Int} (neg : Bool) {m : Nat} (hm : 0 < m) (h : e < A) :
    ∃ t, toTally A (.fin neg m e) = asTally neg t ∧ Nearest m (2 ^ (A - e).toNat) t := by
  refine ⟨rne m (e - A), ?_, neg_sub e A ▸ nearest_rne m (by omega)⟩
  rw [toTally_of_pos A neg hm, min_eq_left (by omega)]

end Sys2Proof.Machine

open Sys2Proof Sys2Proof.Machine

/-- Settles O20: an exponent from A up is exact, one below A is rounded. -/
theorem tallyConversionFollowsItsSteps : Obligations.TallyConversionFollowsItsSteps := by
  intro A e m neg out
  refine ⟨?zero, toTally_exact neg, toTally_rounded neg⟩
  rintro rfl
  exact asTally_zero neg

end

section
/-! PROOFS. Vat arithmetic: combining contributions of the built-in recipes (spec/08_vat_arithmetic.md R276, R287 to R298, R304). -/
namespace Sys2Proof.Machine

/-! What a contribution brings and how it joins the accumulators. -/

/-- What a contribution brings to every element of a context. -/
def operands (c : Ctx) (x : Hdr × List Byte) : List (Int × Bool) := (List.range c.elems).map (operand c x.1 x.2)

/-- A context with other accumulators and another SAT. -/
def Ctx.withSums (c : Ctx) (acc : List Int) (sat : Bool) : Ctx := { c with acc := acc, sat := sat }

section
variable (c : Ctx) (acc : List Int) (sat : Bool)

@[simp] theorem Ctx.withSums_elems : (c.withSums acc sat).elems = c.elems := rfl
@[simp] theorem Ctx.withSums_acc : (c.withSums acc sat).acc = acc := rfl
@[simp] theorem operand_withSums : operand (c.withSums acc sat) = operand c := rfl

end

/-- The accumulators after a contribution's operands have joined them; the first contribution sets them. -/
def joinAcc (recipe : Nat) (acc : List Int) (ops : List (Int × Bool)) : List Int :=
  if acc = [] then ops.map (·.1) else List.zipWith (fun a o => (combine recipe a o.1).1) acc ops

@[simp] theorem joinAcc_nil (recipe : Nat) (ops : List (Int × Bool)) : joinAcc recipe [] ops = ops.map (·.1) := if_pos rfl

theorem joinAcc_of_ne_nil {recipe : Nat} {acc : List Int} (h : acc ≠ []) (ops : List (Int × Bool)) :
    joinAcc recipe acc ops = List.zipWith (fun a o => (combine recipe a o.1).1) acc ops := if_neg h

theorem length_joinAcc (recipe : Nat) {acc : List Int} {ops : List (Int × Bool)} (len : acc = [] ∨ acc.length = ops.length) :
    (joinAcc recipe acc ops).length = ops.length := by
  unfold joinAcc
  split_ifs with first
  · exact List.length_map _
  · rw [List.length_zipWith, len.resolve_left first, min_self]

@[simp] theorem length_operands (c : Ctx) (x : Hdr × List Byte) : (operands c x).length = c.elems := by simp [operands]

theorem getElem_operands (c : Ctx) (x : Hdr × List Byte) {i : Nat} (h : i < (operands c x).length) : (operands c x)[i] = operand c x.1 x.2 i := by
  simp [operands]

/-- Only FASTFLOAT (0xD) can set SAT as it combines. -/
theorem snd_combine {recipe : Nat} (h : recipe ≠ 0x0D) (a x : Int) : (combine recipe a x).2 = false := by
  unfold combine
  split_ifs <;> rfl

/-- A contribution changes the accumulators and SAT, and nothing else of its context. -/
theorem fst_addElems {c : Ctx} (h : c.recipe ≠ 0x0D) (x : Hdr × List Byte) :
    (addElems c x.1 x.2).1 = c.withSums (joinAcc c.recipe c.acc (operands c x)) (c.sat || (operands c x).any (·.2)) := by
  have ins : decide (0 < (operands c x).countP (·.2)) = (operands c x).any (·.2) := by
    rw [Bool.eq_iff_iff, decide_eq_true_iff, List.countP_pos_iff, List.any_eq_true]
  have quiet : (List.zipWith (fun a o => combine c.recipe a o.1) c.acc (operands c x)).any (·.2) = false := by
    refine List.any_eq_false.mpr fun r hr => ?_
    obtain ⟨i, hi, rfl⟩ := List.mem_iff_getElem.mp hr
    rw [List.getElem_zipWith, snd_combine h]
    exact Bool.false_ne_true
  rw [operands] at ins quiet
  unfold addElems
  split_ifs with first
  · simp only [ins, first, joinAcc_nil, Ctx.withSums, operands]
  · simp only [ins, quiet, joinAcc_of_ne_nil first, List.map_zipWith, Bool.or_false, Ctx.withSums, operands]

theorem fst_addElems_withSums {c : Ctx} (h : c.recipe ≠ 0x0D) (acc : List Int) (sat : Bool) (x : Hdr × List Byte) :
    (addElems (c.withSums acc sat) x.1 x.2).1 = c.withSums (joinAcc c.recipe acc (operands c x)) (sat || (operands c x).any (·.2)) :=
  fst_addElems (c := c.withSums acc sat) h x

/-! The order of contributions (R304). -/

section
variable {recipe : Nat} (h : recipe ≠ 0x0D)
include h

theorem combine_comm (a x : Int) : (combine recipe a x).1 = (combine recipe x a).1 := by
  unfold combine
  split_ifs
  · exact max_comm a x
  · exact min_comm a x
  · exact congrArg Nat.cast (Nat.and_comm ..)
  · exact congrArg Nat.cast (Nat.or_comm ..)
  · exact congrArg Nat.cast (Nat.xor_comm ..)
  · exact add_comm a x

theorem combine_right_comm (a x y : Int) : (combine recipe (combine recipe a x).1 y).1 = (combine recipe (combine recipe a y).1 x).1 := by
  unfold combine
  split_ifs
  · exact max_right_comm a x y
  · exact min_right_comm a x y
  · exact congrArg Nat.cast (Nat.and_right_comm ..)
  · exact congrArg Nat.cast (Nat.or_right_comm ..)
  · exact congrArg Nat.cast (Nat.xor_right_comm ..)
  · exact add_right_comm a x y

theorem zipWith_combine_right_comm : ∀ (acc : List Int) (xs ys : List (Int × Bool)),
    let f := fun (a : Int) (o : Int × Bool) => (combine recipe a o.1).1
    List.zipWith f (List.zipWith f acc xs) ys = List.zipWith f (List.zipWith f acc ys) xs
  | a :: acc, x :: xs, y :: ys => by
    simp only [List.zipWith_cons_cons, combine_right_comm h a x.1 y.1, zipWith_combine_right_comm acc xs ys]
  | [], _, _ => by simp
  | _ :: _, [], _ => by simp
  | _ :: _, _ :: _, [] => by simp

/-- The operands of two contributions join the accumulators in either order. -/
theorem joinAcc_right_comm (acc : List Int) {xs ys : List (Int × Bool)} (len : xs.length = ys.length) :
    joinAcc recipe (joinAcc recipe acc xs) ys = joinAcc recipe (joinAcc recipe acc ys) xs := by
  rcases xs with _ | ⟨x, xs⟩
  · obtain rfl : ys = [] := List.length_eq_zero_iff.mp len.symm
    rfl
  obtain ⟨y, ys, rfl⟩ : ∃ y t, ys = y :: t := List.exists_cons_of_length_eq_add_one len.symm
  rcases acc with _ | ⟨a, acc⟩
  · simp only [joinAcc_nil, joinAcc_of_ne_nil (List.map_eq_nil_iff.not.mpr (List.cons_ne_nil _ _)), List.zipWith_map_left]
    exact List.zipWith_comm_of_comm fun o p => combine_comm h o.1 p.1
  · have joined (o : Int × Bool) (os : List (Int × Bool)) : List.zipWith (fun a o => (combine recipe a o.1).1) (a :: acc) (o :: os) ≠ [] :=
      List.cons_ne_nil _ _
    simp only [joinAcc_of_ne_nil (List.cons_ne_nil _ _), joinAcc_of_ne_nil (joined _ _)]
    exact zipWith_combine_right_comm h ..

end

theorem addElems_right_comm {c : Ctx} (h : c.recipe ≠ 0x0D) (x y : Hdr × List Byte) :
    (addElems (addElems c x.1 x.2).1 y.1 y.2).1 = (addElems (addElems c y.1 y.2).1 x.1 x.2).1 := by
  have len : (operands c x).length = (operands c y).length := by rw [length_operands, length_operands]
  rw [fst_addElems h x, fst_addElems h y, fst_addElems_withSums h, fst_addElems_withSums h, joinAcc_right_comm h c.acc len, Bool.or_right_comm]

theorem addAll_perm {l m : List (Hdr × List Byte)} (p : l.Perm m) : ∀ {c : Ctx}, c.recipe ≠ 0x0D → addAll c l = addAll c m := by
  induction p with
  | nil => exact fun _ => rfl
  | cons x _ ih => exact fun {c} h => ih (c := (addElems c x.1 x.2).1) (by rwa [fst_addElems h])
  | swap x y l => exact fun h => congrArg (addAll · l) (addElems_right_comm h y x)
  | trans _ _ ih jh => exact fun h => (ih h).trans (jh h)

/-! Sums of tallies (R276). -/

theorem natAbs_signed (neg : Bool) (n : Nat) : (signed neg n).natAbs = n := by
  cases neg <;> simp [signed]

theorem natAbs_asTally (neg : Bool) (t : Nat) : (asTally neg t).1.natAbs ≤ 2 ^ 31 - 1 := by
  unfold asTally
  split_ifs with big
  · exact (natAbs_signed ..).le
  · exact (natAbs_signed ..).trans_le (not_le.mp big).le

theorem natAbs_toTally (A : Int) : ∀ v : Val, (toTally A v).1.natAbs ≤ 2 ^ 31 - 1
  | .nan => show (2 ^ 31 - 1 : Int).natAbs ≤ 2 ^ 31 - 1 by decide
  | .inf s => (natAbs_signed s _).le
  | .fin .. => natAbs_asTally ..

/-- A recipe that adds tallies at the chunk's anchor: SUM, WSUM, SUMSQ, FXR. -/
def TallyRecipe (recipe : Nat) : Prop := recipe = 1 ∨ recipe = 3 ∨ recipe = 4 ∨ recipe = 5

theorem TallyRecipe.ne_fastfloat {recipe : Nat} (h : TallyRecipe recipe) : recipe ≠ 0x0D := by
  rcases h with h | h | h | h <;> omega

theorem TallyRecipe.combine_eq {recipe : Nat} (h : TallyRecipe recipe) (a x : Int) : combine recipe a x = (a + x, false) := by
  rcases h with rfl | rfl | rfl | rfl <;> rfl

/-- What a contribution brings under a tally recipe is a T32 tally. -/
theorem TallyRecipe.natAbs_operand {c : Ctx} (h : TallyRecipe c.recipe) (x : Hdr) (pay : List Byte) (i : Nat) :
    (operand c x pay i).1.natAbs ≤ 2 ^ 31 - 1 := by
  unfold operand
  rcases h with h | h | h | h <;> simp only [h] <;> exact natAbs_toTally ..

theorem natAbs_sum_le {b : Nat} : ∀ l : List Int, (∀ z ∈ l, z.natAbs ≤ b) → l.sum.natAbs ≤ l.length * b
  | [], _ => by simp
  | z :: l, h => by
    have hz := h z List.mem_cons_self
    have hl := natAbs_sum_le l fun y hy => h y (List.mem_cons_of_mem z hy)
    rw [List.sum_cons, List.length_cons, Nat.succ_mul]
    omega

theorem TallyRecipe.getD_joinAcc {recipe : Nat} (h : TallyRecipe recipe) {acc : List Int} {ops : List (Int × Bool)}
    (len : acc = [] ∨ acc.length = ops.length) {i : Nat} (hi : i < ops.length) :
    (joinAcc recipe acc ops).getD i 0 = acc.getD i 0 + ops[i].1 := by
  unfold joinAcc
  split_ifs with first
  · simp [first, hi]
  · simp [hi, len.resolve_left first, h.combine_eq]

theorem TallyRecipe.getD_addAll {i : Nat} : ∀ (l : List (Hdr × List Byte)) {c : Ctx}, TallyRecipe c.recipe → (c.acc = [] ∨ c.acc.length = c.elems) → i < c.elems →
    (addAll c l).acc.getD i 0 = c.acc.getD i 0 + (l.map fun x => (operand c x.1 x.2 i).1).sum
  | [], c, _, _, _ => (add_zero _).symm
  | x :: l, c, h, len, hi => by
    have len' : c.acc = [] ∨ c.acc.length = (operands c x).length := by rwa [length_operands]
    have rest := getD_addAll (i := i) l (c := c.withSums (joinAcc c.recipe c.acc (operands c x)) (c.sat || (operands c x).any (·.2))) h
      (.inr ((length_joinAcc c.recipe len').trans (length_operands c x))) hi
    calc (addAll c (x :: l)).acc.getD i 0
      _ = (addAll (addElems c x.1 x.2).1 l).acc.getD i 0 := rfl
      _ = c.acc.getD i 0 + (operand c x.1 x.2 i).1 + (l.map fun y => (operand c y.1 y.2 i).1).sum := by
        rw [fst_addElems h.ne_fastfloat, rest, Ctx.withSums_acc, h.getD_joinAcc len' (by rwa [length_operands]), getElem_operands, operand_withSums]
      _ = c.acc.getD i 0 + ((x :: l).map fun y => (operand c y.1 y.2 i).1).sum := by rw [List.map_cons, List.sum_cons, add_assoc]

end Sys2Proof.Machine

open Sys2Proof Sys2Proof.Machine

/-- Settles O22: FASTFLOAT (0xD) is the only built-in recipe whose order matters. -/
theorem contributionOrderDoesNotMatter : Obligations.ContributionOrderDoesNotMatter :=
  fun _ _ _ _ builtin _ p => addAll_perm p (by omega)

/-- Settles O21: the first contribution sets each accumulator and every later one adds to it; 2^18 T32 magnitudes stay below 2^49. -/
theorem talliesAddExactly : Obligations.TalliesAddExactly := by
  intro c l i (tally : TallyRecipe c.recipe) fresh len hi
  have sums : (addAll c l).acc.getD i 0 = (l.map fun x => (operand c x.1 x.2 i).1).sum := by
    rw [tally.getD_addAll l (.inl fresh) hi, fresh, List.getD_nil, zero_add]
  refine ⟨sums, ?_⟩
  calc ((addAll c l).acc.getD i 0).natAbs
    _ ≤ l.length * (2 ^ 31 - 1) := by
      rw [sums, ← List.length_map (as := l) fun x => (operand c x.1 x.2 i).1]
      exact natAbs_sum_le _ (List.forall_mem_map.mpr fun x _ => tally.natAbs_operand x.1 x.2 i)
    _ ≤ 2 ^ 18 * (2 ^ 31 - 1) := Nat.mul_le_mul_right _ len
    _ < 2 ^ 49 := by decide

end

section
/-! PROOFS. Rounding of the values that a format holds (spec/08_vat_arithmetic.md R263, R277, R278). -/
namespace Sys2Proof.Machine

/-! The fields of an element (R263). -/

def signOf (code n : Nat) : Bool := bit n ((ffmt code).eb + (ffmt code).fb)
def expOf (code n : Nat) : Nat := bits n ((ffmt code).eb + (ffmt code).fb - 1) (ffmt code).fb
def fracOf (code n : Nat) : Nat := n % 2 ^ (ffmt code).fb

/-- The sign bit, at its place. -/
def signBit (code : Nat) (neg : Bool) : Nat := if neg then 2 ^ ((ffmt code).eb + (ffmt code).fb) else 0

/-- The bits of an element from its fields. -/
def assemble (code : Nat) (neg : Bool) (ex fr : Nat) : Nat := signBit code neg + ex * 2 ^ (ffmt code).fb + fr

theorem expOf_eq (code n : Nat) : expOf code n = n / 2 ^ (ffmt code).fb % 2 ^ (ffmt code).eb := by
  have pos : 0 < (ffmt code).eb := by
    unfold ffmt
    split_ifs <;> decide
  rw [expOf, bits]
  congr 2
  omega

theorem expOf_lt (code n : Nat) : expOf code n < 2 ^ (ffmt code).eb := expOf_eq code n ▸ Nat.mod_lt _ (Nat.two_pow_pos _)

theorem fracOf_lt (code n : Nat) : fracOf code n < 2 ^ (ffmt code).fb := Nat.mod_lt _ (Nat.two_pow_pos _)

section
variable {code n : Nat} (h : n < 2 ^ (1 + (ffmt code).eb + (ffmt code).fb))
include h

theorem signBit_signOf : signBit code (signOf code n) = 2 ^ ((ffmt code).eb + (ffmt code).fb) * (n / 2 ^ ((ffmt code).eb + (ffmt code).fb)) := by
  rw [add_assoc, pow_add, pow_one, mul_comm] at h
  have one : n / 2 ^ ((ffmt code).eb + (ffmt code).fb) < 2 := Nat.div_lt_of_lt_mul h
  unfold signBit signOf bit
  interval_cases n / 2 ^ ((ffmt code).eb + (ffmt code).fb) <;> simp

/-- The fields of an element are all of it. -/
theorem assemble_fields : assemble code (signOf code n) (expOf code n) (fracOf code n) = n := calc
  _ = 2 ^ ((ffmt code).eb + (ffmt code).fb) * (n / 2 ^ ((ffmt code).eb + (ffmt code).fb))
      + (n % 2 ^ (ffmt code).fb + 2 ^ (ffmt code).fb * (n / 2 ^ (ffmt code).fb % 2 ^ (ffmt code).eb)) := by
    rw [assemble, signBit_signOf h, expOf_eq, fracOf]
    ring
  _ = 2 ^ ((ffmt code).eb + (ffmt code).fb) * (n / 2 ^ ((ffmt code).eb + (ffmt code).fb)) + n % 2 ^ ((ffmt code).eb + (ffmt code).fb) := by
    rw [← Nat.mod_mul, ← pow_add, add_comm (ffmt code).fb]
  _ = n := Nat.div_add_mod ..

end

/-- The exponent of the last place of a significand whose exponent field is `ex`; subnormals share that of field 1. -/
def lastPlace (code : Nat) (ex : Int) : Int := ex - (ffmt code).bias - (ffmt code).fb

/-- The value of an element from its fields. -/
def fieldsVal (code : Nat) (neg : Bool) (ex fr : Nat) : Val :=
  if ex = 0 then .fin neg fr (lastPlace code 1)
  else if code = 4 then if ex = 2 ^ (ffmt code).eb - 1 ∧ fr = 7 then .nan else .fin neg (8 + fr) (lastPlace code ex)
  else if ex = 2 ^ (ffmt code).eb - 1 then if fr = 0 then .inf neg else .nan
  else .fin neg (2 ^ (ffmt code).fb + fr) (lastPlace code ex)

theorem floatVal_eq (code n : Nat) : floatVal code n = fieldsVal code (signOf code n) (expOf code n) (fracOf code n) := rfl

/-! What rounding answers for a significand and exponent that the format has. -/

@[simp] theorem rne_zero (m : Nat) : rne m 0 = m := rne_of_nonneg m le_rfl |>.trans (Nat.mul_one m)

theorem roundFloat_subnormal (code : Nat) (neg : Bool) {fr : Nat} (hfr : fr < 2 ^ (ffmt code).fb) :
    roundFloat code neg fr (lastPlace code 1) = (assemble code neg 0 fr, false) := by
  rcases Nat.eq_zero_or_pos fr with rfl | pos
  · simp [roundFloat, assemble, signBit]
  have short : Nat.log2 fr < (ffmt code).fb := (Nat.log2_lt pos.ne').mpr hfr
  have least (e : Int) : max (e + ((Nat.log2 fr : Int) + 1) - ((ffmt code).fb + 1)) e = e := max_eq_right (by omega)
  have below : fr ≠ 2 ^ ((ffmt code).fb + 1) := by
    rw [pow_succ]
    omega
  simp only [roundFloat, lastPlace, pos.ne', if_false, least, sub_self, rne_zero, below, hfr, if_true, assemble, signBit, zero_mul, add_zero]

/-- The fields of a finite value that is no subnormal. E4M3, which has no infinity, loses only fraction 7 of its highest exponent to the NaN (R263). -/
def NormalFields (code ex fr : Nat) : Prop :=
  ex ≠ 0 ∧ fr < 2 ^ (ffmt code).fb ∧ if code = 4 then ¬ (15 < ex ∨ (ex = 15 ∧ fr = 7)) else ¬ 2 ^ (ffmt code).eb - 1 ≤ ex

theorem roundFloat_normal {code : Nat} (neg : Bool) {ex fr : Nat} (h : NormalFields code ex fr) :
    roundFloat code neg (2 ^ (ffmt code).fb + fr) (lastPlace code ex) = (assemble code neg ex fr, false) := by
  obtain ⟨hex, hfr, finite⟩ := h
  have nonzero : 2 ^ (ffmt code).fb + fr ≠ 0 := (Nat.add_pos_left (Nat.two_pow_pos _) fr).ne'
  have below : 2 ^ (ffmt code).fb + fr < 2 ^ ((ffmt code).fb + 1) := by
    rw [pow_succ]
    omega
  have len : Nat.log2 (2 ^ (ffmt code).fb + fr) = (ffmt code).fb := (Nat.log2_eq_iff nonzero).mpr ⟨Nat.le_add_right .., below⟩
  have place : max (lastPlace code ex + (((ffmt code).fb : Int) + 1) - ((ffmt code).fb + 1)) (lastPlace code 1) = lastPlace code ex := by
    unfold lastPlace
    omega
  have field : (lastPlace code ex - lastPlace code 1 + 1).toNat = ex := by
    unfold lastPlace
    omega
  rw [lastPlace.eq_def code 1] at place field
  simp only [roundFloat, nonzero, if_false, len, place, sub_self, rne_zero, below.ne, (Nat.le_add_right _ fr).not_gt, field, Nat.add_sub_cancel_left]
  by_cases e4m3 : code = 4
  · subst e4m3
    rw [if_pos rfl, if_neg finite]
    rfl
  · rw [if_neg e4m3] at finite
    rw [if_neg e4m3, if_neg finite]
    rfl

theorem roundVal_fieldsVal {code : Nat} (neg : Bool) {ex fr : Nat} (hex : ex < 2 ^ (ffmt code).eb) (hfr : fr < 2 ^ (ffmt code).fb)
    (num : fieldsVal code neg ex fr ≠ .nan) : roundVal code (fieldsVal code neg ex fr) = (assemble code neg ex fr, false) := by
  unfold fieldsVal at num ⊢
  split_ifs at num ⊢ with zero e4m3 nan top inf
  · subst zero
    exact roundFloat_subnormal code neg hfr
  · exact absurd rfl num
  · subst e4m3
    exact roundFloat_normal neg ⟨zero, hfr, not_or.mpr ⟨Nat.not_lt.mpr (Nat.le_of_lt_succ hex), nan⟩⟩
  · rw [roundVal, if_neg e4m3, top, inf]
    rfl
  · exact absurd rfl num
  · refine roundFloat_normal neg ⟨zero, hfr, ?_⟩
    rw [if_neg e4m3]
    omega

end Sys2Proof.Machine

open Sys2Proof Sys2Proof.Machine

/-- Settles O19: an element's fields come back from the value they stand for, and are all of it. -/
theorem roundingKeepsRepresentableValues : Obligations.RoundingKeepsRepresentableValues := by
  intro code n _ _ h num
  rw [isNaN, decide_eq_false_iff_not] at num
  rw [floatVal_eq] at num ⊢
  rw [roundVal_fieldsVal _ (expOf_lt code n) (fracOf_lt code n) num, assemble_fields h]

end

section
/-! PROOFS. The arithmetic of the sequencer. -/
namespace Sys2Proof.Machine

/-! The signed readings of the model are those of `BitVec`. -/

@[simp] theorem sgn_toNat {w : Nat} (x : BitVec w) : sgn w x.toNat = x.toInt := by
  have half : x.toNat < 2 ^ (w - 1) ↔ 2 * x.toNat < 2 ^ w := by
    cases w with
    | zero => simp [BitVec.of_length_zero]
    | succ n => simp [pow_succ']
  simp only [sgn, Nat.mod_eq_of_lt x.isLt, half, BitVec.toInt_eq_toNat_cond]

theorem unsgn_eq (w : Nat) (z : Int) : unsgn w z = (BitVec.ofInt w z).toNat := (BitVec.toNat_ofInt z).symm

@[simp] theorem unsgn_toInt {w : Nat} (x : BitVec w) : unsgn w x.toInt = x.toNat := by rw [unsgn_eq, BitVec.ofInt_toInt]

/-- An arithmetic shift divides the signed reading and rounds down. -/
theorem unsgn_div_two_pow {w : Nat} (x : BitVec w) (k : Nat) : unsgn w (x.toInt / 2 ^ k) = (x.sshiftRight k).toNat := by
  have floor : (x.sshiftRight k).toInt = x.toInt / 2 ^ k := by
    rw [BitVec.toInt_sshiftRight, Int.shiftRight_eq_div_pow]
    norm_cast
  rw [← floor, unsgn_toInt]

end Sys2Proof.Machine

open Sys2Proof Sys2Proof.Machine

/-- Settles O23: each operation of words is the one of `BitVec`, the signed ones through their signed readings. -/
theorem sequencerArithmeticIsTwosComplement : Obligations.SequencerArithmeticIsTwosComplement := by
  intro x y a b
  refine ⟨?add, ?sub, ?and, ?or, ?xor, ?shl, ?shr, ?sar, ?mul, ?max, ?min⟩
  case add | and | or | xor | mul => simp [alu, a, b]
  case sub =>
    have hb : b < 2 ^ 64 := y.isLt
    rw [alu, if_neg one_ne_zero, if_pos rfl, Nat.mod_eq_of_lt hb, Nat.add_comm a, Nat.sub_add_comm hb.le, BitVec.toNat_sub]
  case shl => simp [alu, a, b, Nat.shiftLeft_eq]
  case shr => simp [alu, a, b, Nat.shiftRight_eq_div_pow]
  case sar => simp [alu, a, b, unsgn_div_two_pow]
  case max | min => simp [alu, a, b, BitVec.slt_iff_toInt_lt]

end

section
/-! PROOFS. Instructions of the sequencer: issuing them, what one at the pc of a running handler does, and the words that are none. -/
namespace Sys2Proof.Machine

/-- The form of every row of the sequencer: it issues the instruction at the pc of a vat's running handler when that one's OP is `opc` and its meaning is `f`. -/
def issued (s : State) (lv opc : Nat) (ecc : Bool) (err : Option DescErr) (f : Dev → Run → Ctx → Nat → SeqRes) : Res :=
  need (lv < 1536) s <| act s fun d _ => (d.meeting err).issue lv opc ecc f

theorem issued_next {s : State} {lv opc : Nat} {ecc : Bool} {err : Option DescErr} {f : Dev → Run → Ctx → Nat → SeqRes}
    (run : s.dev.inReset = false) (hlv : lv < 1536) :
    issued s lv opc ecc err f = .next (s.after ((s.dev.meeting err).issue lv opc ecc f)) :=
  need_eq (decide_eq_true hlv) (act_next s _ run)

/-- A register set on the way to the next instruction: no other register changes. -/
theorem Run.next_set (r : Run) (n v cyc : Nat) : (r.set n v).next cyc =
    { r with g := if n = 0 then r.g else r.g.set n (v % 2 ^ 64), pc := (r.pc + 1) % 4096, cyc := r.cyc + cyc } := by
  by_cases h : n = 0 <;> simp [Run.set, Run.next, h]

/-- The error that a read of a descriptor meets is no part of the instruction memory. -/
@[simp] theorem Dev.meeting_imemAt (d : Dev) (e : Option DescErr) (pc : Nat) : (d.meeting e).imemAt pc = d.imemAt pc := rfl

/-- A handler that can issue its next instruction: vat `lv` of a device outside reset runs `r` in context `c`, with cycles of its BUDGET left (R335). -/
structure Issuing (s : State) (lv : Nat) (r : Run) (c : Ctx) : Prop where
  outside : s.dev.inReset = false
  vat : lv < 1536
  runs : s.dev.runOf lv = some r
  context : s.dev.ctxAt lv r.slot = some c
  budget : r.cyc < s.dev.budgetOf c

namespace Issuing

variable {s : State} {lv opc : Nat} {r : Run} {c : Ctx} {err : Option DescErr} {f : Dev → Run → Ctx → Nat → SeqRes} (h : Issuing s lv r c)
include h

/-! Words that fault (R336). -/

theorem issued_unreadable : issued s lv opc true err f = .next (s.after ((s.dev.meeting err).recipeFault r c 7)) := by
  rw [issued_next h.outside h.vat, (s.dev.meeting err).issue_unreadable lv opc f h.runs h.context h.budget]

theorem issued_illegal (bad : iLegal (s.dev.imemAt r.pc) = false) :
    issued s lv opc false err f = .next (s.after ((s.dev.meeting err).recipeFault r c 1)) := by
  rw [issued_next h.outside h.vat, (s.dev.meeting err).issue_illegal lv opc f h.runs h.context h.budget bad]

/-! The instruction asked for stands at the pc. -/

variable (legal : iLegal (s.dev.imemAt r.pc) = true) (op : iOp (s.dev.imemAt r.pc) = opc)
include legal op

theorem issued_go {d : Dev} {r' : Run} (eff : f (s.dev.meeting err) r c (s.dev.imemAt r.pc) = .go d r') :
    issued s lv opc false err f = .next (s.after (d.putRun r')) := by
  rw [issued_next h.outside h.vat, (s.dev.meeting err).issue_runs lv opc f h.runs h.context h.budget legal op, Dev.meeting_imemAt, eff]

theorem issued_bad {cause : Nat} (eff : f (s.dev.meeting err) r c (s.dev.imemAt r.pc) = .bad cause) :
    issued s lv opc false err f = .next (s.after ((s.dev.meeting err).recipeFault r c cause)) := by
  rw [issued_next h.outside h.vat, (s.dev.meeting err).issue_runs lv opc f h.runs h.context h.budget legal op, Dev.meeting_imemAt, eff]

/-- An instruction that sets rd and goes on: G0 keeps its zero (R317). -/
theorem issued_sets {v : Nat}
    (eff : f (s.dev.meeting err) r c (s.dev.imemAt r.pc) = .go (s.dev.meeting err) ((r.set (iRd (s.dev.imemAt r.pc)) v).next 1)) :
    issued s lv opc false err f = .next (s.after ((s.dev.meeting err).putRun
      { r with g := if iRd (s.dev.imemAt r.pc) = 0 then r.g else r.g.set (iRd (s.dev.imemAt r.pc)) (v % 2 ^ 64),
               pc := (r.pc + 1) % 4096, cyc := r.cyc + 1 })) := by
  rw [h.issued_go legal op eff, Run.next_set]

end Issuing

end Sys2Proof.Machine

open Sys2Proof Sys2Proof.Machine

/-- Settles O24: each of them sets rd to its value and goes on. -/
theorem registerInstructionsSetTheirRegister : Obligations.RegisterInstructionsSetTheirRegister := by
  intro s lv r c err outside vat runs context budget w legal x y z done
  have h : Issuing s lv r c := ⟨outside, vat, runs, context, budget⟩
  and_intros
  all_goals exact fun op => h.issued_sets legal op rfl

/-- Settles O25: NOP and the branches go on, LDW and STW within the context's run or not. -/
theorem branchesAndMemoryInstructions : Obligations.BranchesAndMemoryInstructions := by
  intro s lv r c err outside vat runs context budget w legal x y on goes a
  have h : Issuing s lv r c := ⟨outside, vat, runs, context, budget⟩
  refine ⟨?nop, ?bra, ?beq, ?bne, ?blt, ?bge, fun op => ?ldw, fun op => ?stw⟩
  case nop | bra | beq | bne | blt | bge => exact fun op => h.issued_go legal op rfl
  case ldw =>
    by_cases inside : a < 512 * c.run
    · rw [if_pos inside]
      exact h.issued_sets legal op (if_neg (Nat.not_le.mpr inside))
    · rw [if_neg inside]
      exact h.issued_bad legal op (if_pos (Nat.le_of_not_lt inside))
  case stw =>
    by_cases inside : a < 512 * c.run
    · rw [if_pos inside]
      exact h.issued_go legal op (if_neg (Nat.not_le.mpr inside))
    · rw [if_neg inside]
      exact h.issued_bad legal op (if_pos (Nat.le_of_not_lt inside))

/-- Settles O26: whichever row asks, what is issued is the word at the pc. -/
theorem illegalWordsFault : Obligations.IllegalWordsFault := by
  intro s lv r c outside vat runs context budget all
  have h : Issuing s lv r c := ⟨outside, vat, runs, context, budget⟩
  have issues (ecc : Bool) (err : Option DescErr) : ∀ i ∈ all ecc err, ∃ opc f, exec i s = issued s lv opc ecc err f := by
    intro i hi
    fin_cases hi <;> exact ⟨_, _, rfl⟩
  refine ⟨fun opc act => s.dev.issue_unreadable lv opc act runs context budget, fun err i hi => ?unreadable, fun bad =>
    ⟨fun opc act => s.dev.issue_illegal lv opc act runs context budget bad, fun err i hi => ?illegal⟩⟩
  case unreadable =>
    obtain ⟨opc, f, e⟩ := issues true err i hi
    rw [e, h.issued_unreadable]
  case illegal =>
    obtain ⟨opc, f, e⟩ := issues false err i hi
    rw [e, h.issued_illegal bad]

/-- Settles O54: the rows of the sequencer issue their instruction; the commands of budgets and messages let time go on first. -/
theorem sequencerInstructionsComplete : Obligations.SequencerInstructionsComplete := by
  intro s r
  refine ⟨?nop, ?done, ?setf, ?li, ?lui, ?add, ?sub, ?and, ?or, ?xor, ?shl, ?shr, ?sar, ?mul, ?max, ?min, ?addi, ?subi, ?andi, ?ori, ?xori, ?shli,
    ?shri, ?sari, ?muli, ?maxi, ?mini, ?gets, ?ldw, ?stw, ?bra, ?beq, ?bne, ?blt, ?bge, ?aop, ?wait, ?out, ?send, ?recv, ?budgetExpire, ?messageDeliver,
    ?messageExpire⟩
  case budgetExpire | messageDeliver => exact fun _ _ _ m wf => need_eq wf (timed_next _ s _ r m)
  case messageExpire => exact fun _ _ m wf => need_eq wf (timed_next _ s _ r m)
  all_goals exact fun _ _ _ wf => issued_next r (of_decide_eq_true wf)

end

section
/-! PROOFS. Link control symbols: one reads back as it was formed, and one with a bad CRC is ignored. -/
namespace Sys2Proof.Machine

/-! The symbol and its CRC (spec/11_optical_links.md R376). -/

/-- The CRC of a link control symbol is an 8-bit number. -/
theorem crc8_lt (v : Nat) : crc8 v < 256 := crcBitsMsb_lt (w := 8) (by decide) _ _ (by decide)

/-- Bits [39:8] of a link control symbol, over which its CRC goes. -/
theorem lcsWord_div (typ xoff first body : Nat) :
    lcsWord typ xoff first body / 256 = typ % 16 * 2 ^ 28 + xoff % 256 * 2 ^ 20 + first % 4096 * 2 ^ 8 + body % 256 := by
  have hcrc := crc8_lt (typ % 16 * 2 ^ 28 + xoff % 256 * 2 ^ 20 + first % 4096 * 2 ^ 8 + body % 256)
  unfold lcsWord
  dsimp only
  omega

theorem lcsOk_lcsWord (typ xoff first body : Nat) : lcsOk (lcsWord typ xoff first body) = true := by
  rw [lcsOk, decide_eq_true_eq, lcsWord_div, lcsWord, Nat.mul_add_mod_self_right, Nat.mod_eq_of_lt (crc8_lt _)]

theorem lcsWord_lt (typ xoff first body : Nat) : lcsWord typ xoff first body < 2 ^ 40 := by
  have hdiv := lcsWord_div typ xoff first body
  omega

/-! The bad symbol (R377). -/

/-- A link control symbol with a bad CRC that a link with rows receives is counted, and ends the control message being assembled (log entry 40). -/
theorem Dev.lcsReceive_bad (d : Dev) {c w : Nat} (row lc : Nat) (rows : rowsOn (d.linkState c) = true) (bad : lcsOk w = false) :
    d.lcsReceive c w row lc = (d.inc (R.YZ_LCS_BAD (c / 2))).updLk c fun l => { l with asm := [] } := by
  rw [lcsReceive, if_neg (not_not_intro rows), if_pos (ne_true_of_eq_false bad)]

/-- LCS_RECEIVE of a symbol within its 40 bits. -/
theorem exec_lcsReceive (s : State) (now row : Nat) (r : s.dev.inReset = false) (m : s.dev.mrdTrap now = false) {c w : Nat} (hc : c < 1024) (hw : w < 2 ^ 40) :
    exec (.lcsReceive now c w row) s = .next (s.after ((s.dev.advance now).lcsReceive c w (row % 2 ^ 24) (s.dev.advance now).lc)) := by
  dsimp only [exec, execLcsReceive]
  rw [Nat.mod_eq_of_lt hw]
  exact need_eq (decide_eq_true hc) (timed_next now s _ r m)

end Sys2Proof.Machine

open Sys2Proof Sys2Proof.Machine

/-- Settles O16: the fields stand above the CRC, side by side, and the CRC is that of them. -/
theorem linkControlSymbolReadsBack : Obligations.LinkControlSymbolReadsBack := by
  intro typ xoff first body htyp hxoff hfirst hbody w
  have hdiv : w / 256 = typ * 2 ^ 28 + xoff * 2 ^ 20 + first * 2 ^ 8 + body := by
    rw [lcsWord_div, Nat.mod_eq_of_lt htyp, Nat.mod_eq_of_lt hxoff, Nat.mod_eq_of_lt hfirst, Nat.mod_eq_of_lt hbody]
  refine ⟨?typField, ?xoffField, ?firstField, ?bodyField, lcsWord_lt typ xoff first body, lcsOk_lcsWord typ xoff first body⟩
  case typField | xoffField | firstField | bodyField =>
    unfold bits
    omega

/-- Settles O41, by what the bad symbol does on the device at its count. -/
theorem badLinkControlSymbolIsIgnored : Obligations.BadLinkControlSymbolIsIgnored := by
  intro s now c w row r m hc hw bad d rows
  rw [exec_lcsReceive s now row r m hc hw, Dev.lcsReceive_bad _ _ _ rows bad]

end

section
/-! PROOFS. Descrambling undoes scrambling (spec/11_optical_links.md R367). -/
namespace Sys2Proof.Machine

/-! One symbol. -/

theorem b2n_testBit (v k : Nat) : b2n (Nat.testBit v k) = v / 2 ^ k % 2 := by
  rw [Nat.testBit_eq_decide_div_mod_eq]
  rcases Nat.mod_two_eq_zero_or_one (v / 2 ^ k) with h | h <;> rw [h] <;> rfl

/-- What is scrambled of a symbol's low `k` bits stands below what was there. -/
theorem scrSym_div (descr : Bool) (v k s r : Nat) : (scrSym descr v k s r).2 / 2 ^ k = r := by
  induction k generalizing s r with
  | zero => exact Nat.div_one r
  | succ k ih =>
    have hbit (b : Bool) : (2 * r + b2n b) / 2 = r := by
      cases b
      · exact Nat.mul_div_cancel_left r Nat.two_pos
      · exact Nat.mul_add_div Nat.two_pos r 1
    rw [scrSym, pow_succ, ← Nat.div_div_eq_div_mul, ih, hbit]

/-- Bit `k` of the result is the bit put in there: the bit of the symbol, turned where the tap is one. -/
theorem testBit_scrSym_succ (descr : Bool) (v k s r : Nat) :
    Nat.testBit (scrSym descr v (k + 1) s r).2 k = decide (Nat.testBit v k ≠ scrTap s) := by
  rw [Nat.testBit_eq_decide_div_mod_eq, scrSym, scrSym_div, Nat.mul_add_mod]
  cases decide (Nat.testBit v k ≠ scrTap s) <;> rfl

/-- Both ends shift the scrambled bits into their states, so they meet the same taps, and a bit turned twice is as it was. -/
theorem scrSym_scrSym (v k s r r' : Nat) : scrSym true (scrSym false v k s r).2 k s r' = ((scrSym false v k s r).1, r' * 2 ^ k + v % 2 ^ k) := by
  induction k generalizing s r r' with
  | zero => simp [scrSym, Nat.mod_one]
  | succ k ih =>
    have turned : decide (decide (Nat.testBit v k ≠ scrTap s) ≠ scrTap s) = Nat.testBit v k := by
      cases Nat.testBit v k <;> cases scrTap s <;> rfl
    have value : (2 * r' + b2n (Nat.testBit v k)) * 2 ^ k + v % 2 ^ k = r' * 2 ^ (k + 1) + v % 2 ^ (k + 1) := by
      rw [Nat.mod_pow_succ, ← b2n_testBit]
      ring
    rw [scrSym, testBit_scrSym_succ, turned]
    exact (ih ..).trans (congrArg _ value)

/-! A message, symbol by symbol. -/

/-- One symbol more of a message: the state, and the result with the newest symbol first. -/
def scrNext (descr : Bool) (x : Nat × List Nat) (v : Nat) : Nat × List Nat :=
  ((scrSym descr v 10 x.1 0).1, (scrSym descr v 10 x.1 0).2 :: x.2)

theorem scrMsg_eq (descr : Bool) (msg : List Nat) (s : Nat) :
    scrMsg descr msg s = ((msg.foldl (scrNext descr) (s, [])).1, (msg.foldl (scrNext descr) (s, [])).2.reverse) := rfl

/-- The symbols done before stand before those to come, and only the state goes on from one to the next. -/
theorem foldl_scrNext (descr : Bool) (msg : List Nat) (s : Nat) (done : List Nat) :
    msg.foldl (scrNext descr) (s, done) = ((scrMsg descr msg s).1, (scrMsg descr msg s).2.reverse ++ done) := by
  rw [scrMsg_eq]
  induction msg generalizing s done with
  | nil => rfl
  | cons v msg ih =>
    simp only [List.foldl_cons, scrNext]
    rw [ih, ih _ [_]]
    simp

theorem scrMsg_cons (descr : Bool) (v : Nat) (msg : List Nat) (s : Nat) :
    scrMsg descr (v :: msg) s =
      ((scrMsg descr msg (scrSym descr v 10 s 0).1).1, (scrSym descr v 10 s 0).2 :: (scrMsg descr msg (scrSym descr v 10 s 0).1).2) := by
  rw [scrMsg_eq, List.foldl_cons, scrNext, foldl_scrNext]
  simp

end Sys2Proof.Machine

open Sys2Proof Sys2Proof.Machine

/-- Settles O17, symbol by symbol. -/
theorem descramblingUndoesScrambling : Obligations.DescramblingUndoesScrambling := by
  intro msg st hmsg
  induction msg generalizing st with
  | nil => rfl
  | cons v msg ih =>
    obtain ⟨hv, hmsg⟩ := List.forall_mem_cons.mp hmsg
    have hsym : scrSym true (scrSym false v 10 st 0).2 10 st 0 = ((scrSym false v 10 st 0).1, v) := by
      rw [scrSym_scrSym, Nat.zero_mul, Nat.zero_add, show v % 2 ^ 10 = v from Nat.mod_eq_of_lt hv]
    rw [scrMsg_cons, scrMsg_cons, hsym, ih _ hmsg]

end

section
/-! PROOFS. The end of the FEATURE phase. -/
namespace Sys2Proof.Machine
namespace Dev

/-! Events to the controller write no register (spec/14_control_protocol.md R493 to R495). -/

theorem sendUcp_csr (d : Dev) (ep : Ep) (slot : Nat) (frame : List Byte) : (d.sendUcp ep slot frame).csr = d.csr := by
  unfold sendUcp
  dsimp only
  split_ifs <;> rfl

theorem reg_eventOn (d : Dev) (n cls code : Nat) (data : List Byte) (a : Nat) : (d.eventOn n cls code data).reg a = d.reg a := by
  unfold eventOn
  dsimp only
  split_ifs
  · exact reg_inc ..
  · rw [reg, sendUcp_csr]
    rfl
  · rfl

theorem reg_event (d : Dev) (cls code : Nat) (data : List Byte) (a : Nat) : (d.event cls code data).reg a = d.reg a :=
  List.foldlRecOn (motive := fun e : Dev => e.reg a = d.reg a) _ _ rfl fun e he n _ => (reg_eventOn e n cls code data a).trans he

/-! The fields of YZ_STAT and YZ_STAT1. -/

theorem linkState_eq_stat (d : Dev) (c : Nat) : d.linkState c = d.stat c F.YZ_STAT_STATE := by
  unfold linkState stat statReg
  split_ifs <;> rfl

theorem stat_congr {d e : Dev} {c : Nat} (h : e.reg (statReg c) = d.reg (statReg c)) (f : FR) : e.stat c f = d.stat c f := by rw [stat, fld, h, stat, fld]

theorem reg_updLk (d : Dev) (c : Nat) (g : Lk → Lk) (a : Nat) : (d.updLk c g).reg a = d.reg a := rfl

theorem lk_updLk_same (d : Dev) (c : Nat) (g : Lk → Lk) : (d.updLk c g).lk c = g (d.lk c) := lk_setLk_same ..

theorem stat_setState_state (d : Dev) (c n : Nat) : (d.setState c n).stat c F.YZ_STAT_STATE = n % 16 :=
  fld_setFld_same _ _ F.YZ_STAT_STATE _ (by decide) (by decide)

theorem stat_setState_feat (d : Dev) (c n : Nat) : (d.setState c n).stat c F.YZ_STAT_FEAT = d.stat c F.YZ_STAT_FEAT :=
  fld_setFld_other _ _ F.YZ_STAT_STATE F.YZ_STAT_FEAT _ (by decide) (by decide) (.inl (by decide))

theorem stat_setStat_feat (d : Dev) (c n : Nat) : (d.setStat c F.YZ_STAT_FEAT n).stat c F.YZ_STAT_FEAT = n % 16 :=
  fld_setFld_same _ _ F.YZ_STAT_FEAT _ (by decide) (by decide)

theorem statReg_ne_scXoff {c : Nat} (hc : c < 1024) : statReg c ≠ R.SC_XOFF c := by
  simp only [statReg, R.YZ_STAT, R.YZ_STAT1, R.SC_XOFF]
  split_ifs <;> omega

/-! Entering UP (spec/11_optical_links.md R389, R392). -/

/-- After FEAT and STATE nothing that entering UP does writes the port's status word. -/
theorem stat_enterUp (d : Dev) {c : Nat} (hc : c < 1024) (lvl : Nat) (f : FR) : (d.enterUp c lvl).stat c f =
    ((d.setStat c F.YZ_STAT_FEAT (min lvl (d.fld (R.YZ_CTRL (c / 2)) F.YZ_CTRL_FEAT_MAX))).setState c 5).stat c f := by
  refine stat_congr ?_ f
  unfold enterUp
  dsimp only
  rw [reg_event, reg_setFld_other _ _ _ _ _ (statReg_ne_scXoff hc)]
  exact reg_updLk ..

theorem linkState_enterUp (d : Dev) {c : Nat} (hc : c < 1024) (lvl : Nat) : (d.enterUp c lvl).linkState c = 5 := by
  rw [linkState_eq_stat, stat_enterUp d hc, stat_setState_state]

theorem feat_enterUp (d : Dev) {c : Nat} (hc : c < 1024) (lvl : Nat) :
    (d.enterUp c lvl).stat c F.YZ_STAT_FEAT = min lvl (d.fld (R.YZ_CTRL (c / 2)) F.YZ_CTRL_FEAT_MAX) := by
  have hmax : d.fld (R.YZ_CTRL (c / 2)) F.YZ_CTRL_FEAT_MAX < 16 := bits_lt _ 23 20
  rw [stat_enterUp d hc, stat_setState_feat, stat_setStat_feat, Nat.mod_eq_of_lt (by omega)]

/-! A FEATURE message in the FEATURE phase, with this end's own message sent or not. -/

theorem featureMsg_sent (d : Dev) {c : Nat} (lvl : Nat) (phase : d.linkState c = 4) (sent : (d.lk c).featSent = true) :
    d.featureMsg c lvl = (d.updLk c fun l => { l with farFeat := some lvl }).enterUp c lvl := by
  rw [featureMsg, if_pos (.inr phase), featureDone, lk_updLk_same]
  exact if_pos ⟨phase, sent⟩

theorem featureMsg_unsent (d : Dev) {c : Nat} (lvl : Nat) (phase : d.linkState c = 4) (unsent : (d.lk c).featSent = false) :
    d.featureMsg c lvl = d.updLk c fun l => { l with farFeat := some lvl } := by
  rw [featureMsg, if_pos (.inr phase), featureDone, lk_updLk_same]
  exact if_neg fun h => ne_true_of_eq_false unsent h.2

end Dev

/-- FEATURE with a level within its eight bits. -/
theorem exec_feature (s : State) (now : Nat) (r : s.dev.inReset = false) (m : s.dev.mrdTrap now = false) {c lvl : Nat} (hc : c < 1024) (hlvl : lvl < 256) :
    exec (.feature now c lvl) s = .next (s.after ((s.dev.advance now).featureMsg c lvl)) := by
  dsimp only [exec, execFeature]
  rw [Nat.mod_eq_of_lt hlvl]
  exact need_eq (decide_eq_true hc) (timed_next now s _ r m)

end Sys2Proof.Machine

open Sys2Proof Sys2Proof.Machine

/-- Settles O40: with this end's own message sent the link enters UP, without it the level is noted. -/
theorem featureLevelIsTheLower : Obligations.FeatureLevelIsTheLower := by
  intro s now c lvl r m hc hlvl d phase
  rw [exec_feature s now r m hc hlvl]
  refine ⟨fun sent => ⟨_, by rw [d.featureMsg_sent lvl phase sent], ?up, ?level⟩,
    fun unsent => ⟨_, by rw [d.featureMsg_unsent lvl phase unsent], ?waits, ?kept⟩⟩
  case up => exact Dev.linkState_enterUp _ hc lvl
  case level => exact Dev.feat_enterUp _ hc lvl
  case waits => exact phase
  case kept => rw [Dev.lk_updLk_same]

end

section
/-! PROOFS. The commands of links, lanes, Indigo circuits and optical health complete. -/
open Sys2Proof Sys2Proof.Machine

/-- Settles O55: each command composed as its definition composes it, from its conditions and the way of its effect. -/
theorem linkAndOpticalCommandsComplete : Obligations.LinkAndOpticalCommandsComplete := by
  intro s
  dsimp only [exec]
  refine ⟨?moduleInserted, ?moduleRemoved, fun r => ⟨?rowReceive, ?lcsSend, ?lcsReceive, ?lcsTimeoutXoff, ?lcsTimeoutDown, ?train, ?echoReq, ?echoResp,
    ?feature, ?move, ?moveAck, ?restore, ?restoreAck, ?narrow, ?narrowAck, ?refuse, ?laneRequest, ?down, ?laneEffectRow, ?laneAckTimeout, ?laneLost,
    ?holdoffExpire, ?linkEnable, ?linkDisable, ?lightArrival, ?lightExit, ?trainingCodeword, ?trainingTimeout, ?indigoEnable, ?indigoDisable,
    ?indigoActive, ?indigoCodewordPass, ?identityRead, ?identityTimeout, ?relockAttemptEnd, ?marginEval, ?calVisitStart, ?calDwellEnd, ?slotEnable,
    ?laserReady⟩⟩
  case moduleInserted | moduleRemoved => exact fun _ _ m wf => need_eq wf (always_next _ s _ m)
  case rowReceive => exact fun _ _ _ _ m wf good => need_eq wf (predictable_eq good (timed_next _ s _ r m))
  case calDwellEnd => exact fun _ m => timed_next _ s _ r m
  case lcsTimeoutXoff | lcsTimeoutDown | down | laneAckTimeout | holdoffExpire | lightExit | trainingTimeout | indigoActive =>
    exact fun _ _ m wf => need_eq wf (timed_next _ s _ r m)
  case echoReq | feature | laneEffectRow | lightArrival | marginEval | calVisitStart | laserReady =>
    exact fun _ _ _ m wf => need_eq wf (timed_next _ s _ r m)
  case lcsSend | lcsReceive | echoResp | trainingCodeword | identityTimeout => exact fun _ _ _ _ m wf => need_eq wf (timed_next _ s _ r m)
  case moveAck | restoreAck | narrowAck | refuse | laneLost | identityRead | relockAttemptEnd =>
    exact fun _ _ _ _ _ m wf => need_eq wf (timed_next _ s _ r m)
  case move | restore | narrow => exact fun _ _ _ _ _ _ m wf => need_eq wf (timed_next _ s _ r m)
  case train | laneRequest | indigoCodewordPass => exact fun _ _ _ _ _ _ _ m wf => need_eq wf (timed_next _ s _ r m)
  case linkEnable | linkDisable | indigoDisable => exact fun _ _ m wf reach => need_eq wf (need_eq reach (timed_next _ s _ r m))
  case slotEnable => exact fun _ _ _ m wf reach => need_eq wf (need_eq reach (timed_next _ s _ r m))
  case indigoEnable => exact fun _ _ _ _ m wf reach => need_eq wf (need_eq reach (timed_next _ s _ r m))

end

section
/-! PROOFS. What a step does to the fuses (spec/17_boot_security.md R590 to R595), and what a full reset holds back. -/
namespace Sys2Proof.Machine

/-! Bits of a number. -/

theorem bit_eq_testBit (n k : Nat) : bit n k = n.testBit k := (Nat.testBit_eq_decide_div_mod_eq ..).symm

theorem bit_eq_bits (n k : Nat) : bit n k = decide (bits n k k = 1) := by
  simp [bit, bits]

/-- A bit set reads as one, and every other bit as before. -/
theorem bit_putBits_one (n i k : Nat) : bit (putBits n i i 1) k = (bit n k || k == i) := by
  rw [bit_eq_bits, bit_eq_bits]
  rcases Nat.lt_trichotomy k i with h | rfl | h
  · rw [bits_putBits_below _ _ _ _ _ _ h]
    simp [h.ne]
  · rw [bits_putBits]
    simp
  · rw [bits_putBits_above _ _ _ _ _ _ h le_rfl]
    simp [h.ne']

theorem land_putBits_one (n i : Nat) : Nat.land n (putBits n i i 1) = n := by
  refine Nat.eq_of_testBit_eq fun k => ?_
  have hset := bit_putBits_one n i k
  rw [bit_eq_testBit, bit_eq_testBit] at hset
  show (n &&& putBits n i i 1).testBit k = n.testBit k
  rw [Nat.testBit_and, hset]
  cases n.testBit k <;> rfl

/-! The ways of commands, by their kind. -/

theorem passing_next {now : Nat} {s t : State} {k : Res} (h : passing now s k = .next t) : k = .next t := predictable_next h

namespace Way

/-- While a full reset lasts only the pins have an effect. -/
theorem reset_next {s : State} {kd : Instr.Kind} {r : Res} (w : Way s kd r) (h : s.dev.inReset = true) (hkd : kd ≠ .pin) : r = .next s := by
  induction w with
  | act f => rw [act_eq, State.effect_reset s f h]
  | always => exact absurd rfl hkd
  | actFuse f => simp [Machine.actFuse, h]
  | need ok _ ih =>
    cases ok with
    | true => exact ih hkd
    | false => rfl
  | predictable bad _ ih => rw [predictable_reset s bad _ h, ih hkd]

/-- Only the commands of one kind blow fuses. -/
theorem fuse_next {s t : State} {kd : Instr.Kind} {r : Res} (w : Way s kd r) (hr : r = .next t) (hkd : kd ≠ .fuse) : t.fuse = s.fuse := by
  induction w with
  | act f => exact (act_fuse hr).1
  | always now f =>
    unfold Machine.always at hr
    cases passing_next hr
    rfl
  | actFuse => exact absurd rfl hkd
  | need ok _ ih =>
    rcases need_next hr with ⟨-, hk⟩ | ⟨-, rfl⟩
    · exact ih hk hkd
    · rfl
  | predictable bad _ ih => exact ih (predictable_next hr) hkd

end Way

/-- A command that blows no fuse by its kind. -/
theorem exec_fuse {c : Instr} {s t : State} (h : exec c s = .next t) (hc : c.kind ≠ .fuse) : t.fuse = s.fuse := by
  obtain ⟨k, e, w⟩ := exec_way c s
  exact (w.need c.wellFormed).fuse_next (e.symm.trans h) hc

theorem Dev.fuseDone_idle (d : Dev) (u : Fuses) (h : d.mgmt.fuseBusy = none) : d.fuseDone u = (d, u) := by
  rw [fuseDone, h]

/-- The fuses that a step leaves: those there were, those after the fuse operation in progress, or those with a minimum security version raised. -/
inductive FuseStep (s : State) : Fuses → Prop
  | kept : FuseStep s s.fuse
  | blown (now op index : Nat) (key : List Byte) (busy : (s.dev.advance now).mgmt.fuseBusy = some (op, index, key)) :
    FuseStep s (Dev.blown s.fuse op index key)
  | firmware : FuseStep s (s.dev.svnFirmware s.fuse)
  | recipe : FuseStep s (s.dev.svnRecipe s.fuse)

theorem exec_fuseProgramDone (now : Nat) (s : State) :
    exec (.fuseProgramDone now) s = passing now s (actFuse s fun d u => (d.advance now).fuseDone u) := rfl

/-- A command that can blow fuses, in reset or with its effect. -/
theorem FuseStep.of_actFuse {s t : State} {f : Dev → Fuses → Dev × Fuses} (h : actFuse s f = .next t) (hf : FuseStep s (f s.dev s.fuse).2) : FuseStep s t.fuse := by
  rcases actFuse_next h with ⟨-, rfl⟩ | ⟨-, rfl⟩
  · exact .kept
  · exact hf

theorem FuseStep.of_need {s t : State} {ok : Bool} {k : Res} (h : need ok s k = .next t) (hk : k = .next t → FuseStep s t.fuse) : FuseStep s t.fuse := by
  rcases need_next h with ⟨-, h⟩ | ⟨-, rfl⟩
  · exact hk h
  · exact .kept

theorem fuseDone_fuseStep (s : State) (now : Nat) : FuseStep s ((s.dev.advance now).fuseDone s.fuse).2 := by
  cases busy : (s.dev.advance now).mgmt.fuseBusy with
  | none =>
    rw [Dev.fuseDone_idle _ _ busy]
    exact .kept
  | some x =>
    obtain ⟨op, index, key⟩ := x
    rw [Dev.fuseDone, busy]
    exact .blown now op index key busy

theorem exec_fuseStep {c : Instr} {s t : State} (h : exec c s = .next t) : FuseStep s t.fuse := by
  by_cases hc : c.kind = .fuse
  case neg =>
    rw [exec_fuse h hc]
    exact .kept
  unfold Instr.kind at hc
  split at hc
  case h_10 now =>
    rw [exec_fuseProgramDone] at h
    exact .of_actFuse (passing_next h) (fuseDone_fuseStep s now)
  case h_11 n seq =>
    refine .of_need h fun h => .of_actFuse h ?_
    dsimp only
    split_ifs
    · exact .firmware
    · exact .kept
  case h_12 n seq =>
    refine .of_need h fun h => .of_actFuse h ?_
    dsimp only
    split_ifs
    · exact .recipe
    · exact .kept
  all_goals cases hc

/-- A step carries a command out or lets one count pass; either way the fuses become as `FuseStep` says, of a state with the same fuses and device. -/
theorem step_fuseStep {s t : State} (h : step s = .next t) : ∃ q, FuseStep { s with pending := q } t.fuse := by
  unfold step at h
  split at h
  · exact ⟨_, exec_fuseStep h⟩
  · unfold idle timed at h
    exact ⟨s.pending, (act_fuse (passing_next h)).1 ▸ .kept⟩

theorem Fuses.legal_iff (u : Fuses) :
    u.legal = true ↔ u.fwMin ≤ 64 ∧ u.rcpMin ≤ 64 ∧ u.fRev < 16 ∧ u.rRev < 16 ∧ (u.owned = true ∨ u.owner = []) := by
  simp [legal, and_assoc]

/-- The fuse operation in progress, whatever it is, leaves legal fuses legal. -/
theorem Dev.legal_blown {u : Fuses} (h : u.legal = true) (op index : Nat) (key : List Byte) : (Dev.blown u op index key).legal = true := by
  rw [Fuses.legal_iff] at h
  obtain ⟨hfw, hrcp, hf, hr, howner⟩ := h
  have hbit {n : Nat} (hn : n < 16) (hi : index < 4) : putBits n index index 1 < 16 := putBits_lt n index index 1 4 hn le_rfl hi
  unfold Dev.blown
  split
  · exact (Fuses.legal_iff _).mpr ⟨hfw, hrcp, hf, hr, .inl rfl⟩
  · split_ifs <;> exact (Fuses.legal_iff _).mpr ⟨hfw, hrcp, hf, hr, howner⟩
  · split_ifs with hi
    · exact (Fuses.legal_iff _).mpr ⟨hfw, hrcp, hbit hf hi, hr, howner⟩
    · exact (Fuses.legal_iff _).mpr ⟨hfw, hrcp, hf, hr, howner⟩
  · split_ifs with hi
    · exact (Fuses.legal_iff _).mpr ⟨hfw, hrcp, hf, hbit hr hi, howner⟩
    · exact (Fuses.legal_iff _).mpr ⟨hfw, hrcp, hf, hr, howner⟩
  · exact (Fuses.legal_iff _).mpr ⟨hfw, hrcp, hf, hr, howner⟩

theorem FuseStep.legal {s : State} {u : Fuses} (w : FuseStep s u) (h : s.fuse.legal = true) : u.legal = true := by
  have ⟨hfw, hrcp, hf, hr, howner⟩ := (Fuses.legal_iff _).mp h
  cases w with
  | kept => exact h
  | blown now op index key => exact Dev.legal_blown h op index key
  | firmware => exact (Fuses.legal_iff _).mpr ⟨max_le hfw (min_le_left ..), hrcp, hf, hr, howner⟩
  | recipe => exact (Fuses.legal_iff _).mpr ⟨hfw, max_le hrcp (min_le_left ..), hf, hr, howner⟩

end Sys2Proof.Machine

open Sys2Proof Sys2Proof.Machine

/-- Settles O1: by the definition of a step. -/
theorem frontCommandIsRun : Obligations.FrontCommandIsRun := fun _ _ => rfl

/-- Settles O9, by the fuses of the reset state. -/
theorem fusesLegalAtReset : Obligations.FusesLegalAtReset := by
  unfold Obligations.FusesLegalAtReset
  decide

/-- Settles O4: the commands that the statement leaves out are those of the pins. -/
theorem nothingHappensInFullReset : Obligations.NothingHappensInFullReset := by
  intro c s hreset hpor hfull hrelease hlost hback htrip huv hin hout
  obtain ⟨k, e, w⟩ := exec_way c s
  refine e.trans ((w.need c.wellFormed).reset_next hreset fun hpin => ?_)
  unfold Instr.kind at hpin
  split at hpin
  case h_1 => exact hpor _ rfl
  case h_2 => exact hfull _ _ rfl
  case h_3 => exact hrelease _ rfl
  case h_4 => exact hlost _ rfl
  case h_5 => exact hback _ rfl
  case h_6 => exact htrip _ _ _ rfl
  case h_7 => exact huv _ _ _ rfl
  case h_8 => exact hin _ _ rfl
  case h_9 => exact hout _ _ rfl
  all_goals cases hpin

/-- Settles O7: the commands that the statement leaves out are those that blow fuses. -/
theorem onlyFuseCommandsBlowFuses : Obligations.OnlyFuseCommandsBlowFuses := by
  intro c s t h hdone hfirmware hrecipe
  refine exec_fuse h fun hfuse => ?_
  unfold Instr.kind at hfuse
  split at hfuse
  case h_10 => exact hdone _ rfl
  case h_11 => exact hfirmware _ _ rfl
  case h_12 => exact hrecipe _ _ rfl
  all_goals cases hfuse

/-- Settles O8: each way in which a step leaves the fuses keeps them within their fields. -/
theorem fusesStayLegal : Obligations.FusesStayLegal := by
  intro s t h hstep
  obtain ⟨q, w⟩ := step_fuseStep hstep
  exact w.legal h

end

section
/-! PROOFS. The commands of fuses and SVN_COMMIT (spec/17_boot_security.md R590 to R595), and a command refused for its session's privilege while another session polls. -/
namespace Sys2Proof.Machine
namespace Dev

/-! A field of one bit. -/

theorem on_setMgmt (d : Dev) (m : Mgmt) (a : Nat) (f : FR) : ({ d with mgmt := m } : Dev).on a f = d.on a f := rfl

theorem on_setFld_one (d : Dev) (a : Nat) (f : FR) (hf : f.lo = f.hi) (h : f.hi < 32) : (d.setFld a f 1).on a f = true := by
  rw [on, fld_setFld_same _ _ _ _ hf.le h, hf]
  simp

theorem on_setFld_zero (d : Dev) (a : Nat) (f : FR) (hf : f.lo = f.hi) (h : f.hi < 32) : (d.setFld a f 0).on a f = false := by
  rw [on, fld_setFld_same _ _ _ _ hf.le h]
  simp

/-! SVN_COMMIT (R591). -/

theorem svnFirmware_eq (d : Dev) (u : Fuses) (h0 : d.slotSvn 0 ≤ 64) :
    d.svnFirmware u = { u with fwMin := max u.fwMin (min (d.slotSvn 0) (d.slotSvn 1)) } := by
  rw [svnFirmware, Nat.min_eq_right (Nat.le_trans (Nat.min_le_left ..) h0)]

theorem svnRecipe_eq (d : Dev) (u : Fuses) (h : leNat (slice d.vat.image 8 4) ≤ 64) :
    d.svnRecipe u = { u with rcpMin := max u.rcpMin (leNat (slice d.vat.image 8 4)) } := by
  rw [svnRecipe, Nat.min_eq_right h]

theorem begin'_vat (d : Dev) (n seq op : Nat) (b : List Byte) : (d.begin' n seq op b).vat = d.vat := rfl

/-- SVN_COMMIT that runs replies with the minimum in force; of a recipe image with none loaded it is refused. -/
theorem opSvn_runs (d : Dev) (u : Fuses) (n seq kind min : Nat) (h : d.cmdRuns u n seq 0x070A [BitVec.ofNat 8 kind, 0, 0, 0] = true) :
    d.opSvn u n seq kind min =
      let e := d.begin' n seq 0x070A [BitVec.ofNat 8 kind, 0, 0, 0]
      if kind = 2 ∧ d.vat.image = [] then e.reply n seq 0x070A 3 4 [] else e.reply n seq 0x070A 0 0 (beBytes min 4) := by
  rw [opSvn, runCmd_runs _ _ _ _ _ _ _ h, begin'_vat]

/-! An operation through SB_FUSECMD (R594, R595). -/

/-- The staged key and the images decide whether an operation is refused; SB_FUSECMD does not. -/
theorem stagedKey_congr {d e : Dev} (h : ∀ a, a ≠ R.SB_FUSECMD → e.reg a = d.reg a) : e.stagedKey = d.stagedKey := by
  have hkey : ∀ n ∈ List.range 13, leBytes (e.reg (R.SB_KEYPROG n)).toNat 4 = leBytes (d.reg (R.SB_KEYPROG n)).toNat 4 := fun n hn => by
    rw [h _ (by have := List.mem_range.mp hn; simp only [R.SB_KEYPROG, R.SB_FUSECMD]; omega)]
  rw [stagedKey, stagedKey, List.flatMap_congr hkey]

theorem fuseRefused_congr {d e : Dev} (hkey : e.stagedKey = d.stagedKey) (hm : e.mgmt = d.mgmt) (hv : e.vat = d.vat) (u : Fuses) (op index : Nat) :
    e.fuseRefused u op index = d.fuseRefused u op index := by
  simp only [fuseRefused, hkey, hm, hv]

/-- The device with an operation and its index written to SB_FUSECMD. -/
def fuseNamed (d : Dev) (op index : Nat) : Dev := (d.setFld R.SB_FUSECMD F.SB_FUSECMD_OP op).setFld R.SB_FUSECMD F.SB_FUSECMD_INDEX index

theorem fuseNamed_regsOnly (d : Dev) (op index : Nat) : RegsOnly [R.SB_FUSECMD] d (d.fuseNamed op index) :=
  ((RegsOnly.refl _ d).setFld _ _ (by simp)).setFld _ _ (by simp)

theorem stagedKey_fuseNamed (d : Dev) (op index : Nat) : (d.fuseNamed op index).stagedKey = d.stagedKey :=
  stagedKey_congr fun a ha => (d.fuseNamed_regsOnly op index).1 a (by simpa using ha)

theorem fuseRefused_fuseNamed (d : Dev) (u : Fuses) (op index : Nat) : (d.fuseNamed op index).fuseRefused u op index = d.fuseRefused u op index :=
  fuseRefused_congr (d.stagedKey_fuseNamed op index) rfl rfl u op index

theorem fuseBusyBit_fuseNamed (d : Dev) (op index : Nat) :
    (d.fuseNamed op index).on R.SB_FUSECMD F.SB_FUSECMD_BUSY = d.on R.SB_FUSECMD F.SB_FUSECMD_BUSY := by
  unfold fuseNamed
  rw [on_setFld_other _ _ _ _ _ (by decide) (by decide) (.inr (by decide)), on_setFld_other _ _ _ _ _ (by decide) (by decide) (.inr (by decide))]

theorem fuseGo_refused (d : Dev) (u : Fuses) {op index : Nat} (hop : 1 ≤ op ∧ op ≤ 4) (h : d.fuseRefused u op index = true) :
    d.fuseGo u op index = (d.fuseNamed op index).setFld R.SB_FUSECMD F.SB_FUSECMD_REFUSED 1 := by
  unfold fuseGo
  exact (if_neg (not_not.mpr hop)).trans (if_pos ((d.fuseRefused_fuseNamed u op index).trans h))

theorem fuseGo_busy (d : Dev) (u : Fuses) {op index : Nat} (hop : 1 ≤ op ∧ op ≤ 4) (h : d.fuseRefused u op index = false) :
    d.fuseGo u op index =
      { (d.fuseNamed op index).setFld R.SB_FUSECMD F.SB_FUSECMD_BUSY 1 with mgmt := { d.mgmt with fuseBusy := some (op, index, d.stagedKey) } } := by
  rw [← d.stagedKey_fuseNamed op index]
  unfold fuseGo
  exact (if_neg (not_not.mpr hop)).trans (if_neg (ne_true_of_eq_false ((d.fuseRefused_fuseNamed u op index).trans h)))

/-- A frame holds as well with the same management complex on both sides. -/
theorem RegsOnly.setMgmt {l : List Nat} {d e : Dev} (h : RegsOnly l d e) (m : Mgmt) : RegsOnly l { d with mgmt := m } { e with mgmt := m } := by
  obtain ⟨hreg, hctrs, hrwb, hsnap, hlatch, harm, hrest⟩ := h
  exact ⟨hreg, hctrs, hrwb, hsnap, hlatch, harm, congrArg (fun x : Dev => { x with mgmt := m }) hrest⟩

theorem fuseGo_refused_spec (d : Dev) (u : Fuses) {op index : Nat} (hop : 1 ≤ op ∧ op ≤ 4) (h : d.fuseRefused u op index = true)
    (idle : d.on R.SB_FUSECMD F.SB_FUSECMD_BUSY = false) :
    RegsOnly [R.SB_FUSECMD] d (d.fuseGo u op index) ∧ (d.fuseGo u op index).on R.SB_FUSECMD F.SB_FUSECMD_REFUSED = true ∧
      (d.fuseGo u op index).on R.SB_FUSECMD F.SB_FUSECMD_BUSY = false := by
  rw [fuseGo_refused d u hop h]
  refine ⟨(d.fuseNamed_regsOnly op index).setFld _ _ (List.mem_singleton.mpr rfl), on_setFld_one _ _ _ rfl (by decide), ?_⟩
  rw [on_setFld_other _ _ _ _ _ (by decide) (by decide) (by decide), fuseBusyBit_fuseNamed, idle]

theorem fuseGo_busy_spec (d : Dev) (u : Fuses) {op index : Nat} (hop : 1 ≤ op ∧ op ≤ 4) (h : d.fuseRefused u op index = false) :
    RegsOnly [R.SB_FUSECMD] { d with mgmt := { d.mgmt with fuseBusy := some (op, index, d.stagedKey) } } (d.fuseGo u op index) ∧
      (d.fuseGo u op index).on R.SB_FUSECMD F.SB_FUSECMD_BUSY = true := by
  rw [fuseGo_busy d u hop h]
  exact ⟨((d.fuseNamed_regsOnly op index).setFld _ _ (List.mem_singleton.mpr rfl)).setMgmt _,
    (on_setMgmt ..).trans (on_setFld_one (d.fuseNamed op index) _ _ rfl (by decide))⟩

/-! The end of an operation (R590, R594). -/

theorem fuseBusy_closeSess (d : Dev) (n cause : Nat) : (d.closeSess n cause).mgmt.fuseBusy = d.mgmt.fuseBusy := by
  unfold closeSess
  dsimp only
  split_ifs <;> rfl

/-- BUSY is zero and no operation is in progress. -/
def fuseIdle (d : Dev) : Prop := d.on R.SB_FUSECMD F.SB_FUSECMD_BUSY = false ∧ d.mgmt.fuseBusy = none

theorem fuseIdle_closeWhere {d : Dev} (h : d.fuseIdle) (f : Sess → Bool) (cause : Nat) : (d.closeWhere f cause).fuseIdle := by
  obtain ⟨hbit, hnone⟩ := h
  have hcsr : (d.closeWhere f cause).csr = d.csr := foldl_closeIf_keeps (fun d => d.csr) csr_closeSess f cause (List.range 8) d
  have hbusy : (d.closeWhere f cause).mgmt.fuseBusy = d.mgmt.fuseBusy :=
    foldl_closeIf_keeps (fun d => d.mgmt.fuseBusy) fuseBusy_closeSess f cause (List.range 8) d
  refine ⟨?_, hbusy.trans hnone⟩
  rwa [on, fld, reg, hcsr]

theorem fuseIdle_setMgmt (d : Dev) {m : Mgmt} (h : m.fuseBusy = none) : ({ d.setFld R.SB_FUSECMD F.SB_FUSECMD_BUSY 0 with mgmt := m } : Dev).fuseIdle :=
  ⟨(on_setMgmt ..).trans (on_setFld_zero d _ _ rfl (by decide)), h⟩

theorem fuseDone_busy (d : Dev) (u : Fuses) {op index : Nat} {key : List Byte} (h : d.mgmt.fuseBusy = some (op, index, key)) :
    ∃ e : Dev, e.fuseIdle ∧ d.fuseDone u = (e, blown u op index key) := by
  simp only [fuseDone, h]
  refine ⟨_, ?_, rfl⟩
  split_ifs
  · exact fuseIdle_closeWhere (fuseIdle_setMgmt d rfl) _ _
  · exact fuseIdle_setMgmt d rfl

end Dev

/-- The end of a fuse operation on a device that runs. -/
theorem exec_fuseProgramDone_run (s : State) (now : Nat) (r : s.dev.inReset = false) (m : s.dev.mrdTrap now = false) :
    exec (.fuseProgramDone now) s = let d := (s.dev.advance now).fuseDone s.fuse; .next { s with fuse := d.2, dev := d.1.settle d.2 } := by
  rw [exec_fuseProgramDone, passing_eq now s _ m, actFuse_run s _ r]

theorem exec_svnCommitFirmware (s : State) (r : s.dev.inReset = false) {n : Nat} (seq : Nat) (hn : n < 8) {v : Fuses}
    (hv : (if s.dev.svnRuns s.fuse n seq 1 then s.dev.svnFirmware s.fuse else s.fuse) = v) :
    exec (.svnCommitFirmware n seq) s = .next { s with fuse := v, dev := (s.dev.opSvn s.fuse n seq 1 v.fwMin).settle v } := by
  rw [← hv]
  exact need_eq (decide_eq_true hn) (actFuse_run s _ r)

theorem exec_svnCommitRecipe (s : State) (r : s.dev.inReset = false) {n : Nat} (seq : Nat) (hn : n < 8) {v : Fuses}
    (hv : (if s.dev.svnRuns s.fuse n seq 2 then s.dev.svnRecipe s.fuse else s.fuse) = v) :
    exec (.svnCommitRecipe n seq) s = .next { s with fuse := v, dev := (s.dev.opSvn s.fuse n seq 2 v.rcpMin).settle v } := by
  rw [← hv]
  exact need_eq (decide_eq_true hn) (actFuse_run s _ r)

/-- The command that starts fuse operation `op`, outside an operation in progress. -/
theorem exec_fuseOperation (s : State) (now : Nat) {op index : Nat} (r : s.dev.inReset = false) (m : s.dev.mrdTrap now = false) (h1 : 1 ≤ op) (h4 : op ≤ 4)
    (hindex : index < 16) (idle : (s.dev.advance now).on R.SB_FUSECMD F.SB_FUSECMD_BUSY = false) :
    exec (if op = 1 then .programOwner now index else if op = 2 then .programRkey now index
      else if op = 3 then .revokeFkey now index else .revokeRkey now index) s = .next (s.after ((s.dev.advance now).fuseGo s.fuse op index)) := by
  have hgo (k : Nat) : predictable s (fun d _ => (d.advance now).on R.SB_FUSECMD F.SB_FUSECMD_BUSY) (timed now s fun d u => d.fuseGo u k (index % 16)) =
      .next (s.after ((s.dev.advance now).fuseGo s.fuse k index)) := by
    rw [Nat.mod_eq_of_lt hindex]
    exact predictable_eq idle (timed_next now s _ r m)
  have hop : op = 1 ∨ op = 2 ∨ op = 3 ∨ op = 4 := by omega
  rcases hop with rfl | rfl | rfl | rfl
  · rw [if_pos rfl]
    exact hgo 1
  · rw [if_neg (by decide), if_pos rfl]
    exact hgo 2
  · rw [if_neg (by decide), if_neg (by decide), if_pos rfl]
    exact hgo 3
  · rw [if_neg (by decide), if_neg (by decide), if_neg (by decide)]
    exact hgo 4

/-! A command refused while another session polls a word of the ring window: the errors that come with the command are those that the poll's read meets. -/

/-- An owned device out of reset with ring 0 of 1 MiB on an active channel; session 0, of no privilege, may begin a command, and session 1 runs a CSR_POLL of the ring window. -/
def pollingState : State :=
  let poll := beBytes 0x0A002000 4 ++ beBytes 0 4 ++ beBytes 1 4 ++ beBytes 100 4
  let d : Dev := { power := { resetLow := false }, mgmt := { ready := true, sess := [{ state := 2, next := 7 },
    { state := 2, priv := 2, next := 4, run := some (⟨3, 0x0104, poll⟩, 0) }] } }
  { fuse := { owned := true }
    dev := (((d.setPw 0).setFld (R.TM_RING_CTRL 0) F.TM_RING_CTRL_SIZE_MIB 1).setNum (R.QSTAT_CH 0) 0).setNum (R.DD_CHSTAT 0) 0 }

/-- CSR_READ of session 0, with one symbol in error in the burst that the ring window shows. -/
def deniedRead : Instr := .csrRead 0 7 [] [(0x8000000, [1])]

end Sys2Proof.Machine

open Sys2Proof Sys2Proof.Machine

/-- Settles O11: SVN_COMMIT of kind 1 and of kind 2, with a recipe image loaded and without. -/
theorem svnCommitRaisesTheMinimum : Obligations.SvnCommitRaisesTheMinimum := by
  intro s n seq r hn
  refine ⟨fun runs h0 _ => ?firmware, fun runs himage hsvn => ?recipe, fun runs himage => ?refused⟩
  case firmware =>
    intro v u
    have hblows : s.dev.svnRuns s.fuse n seq 1 = true := (Bool.and_eq_true ..).mpr ⟨runs, rfl⟩
    rw [exec_svnCommitFirmware s r seq hn ((if_pos hblows).trans (s.dev.svnFirmware_eq s.fuse h0)), Dev.opSvn_runs _ _ _ _ _ _ runs]
    rfl
  case recipe =>
    intro v u
    have hblows : s.dev.svnRuns s.fuse n seq 2 = true := (Bool.and_eq_true ..).mpr ⟨runs, by simpa using himage⟩
    rw [exec_svnCommitRecipe s r seq hn ((if_pos hblows).trans (s.dev.svnRecipe_eq s.fuse hsvn)), Dev.opSvn_runs _ _ _ _ _ _ runs]
    simp only [himage, and_false, if_false]
    rfl
  case refused =>
    have hblows : s.dev.svnRuns s.fuse n seq 2 = false := by simp [Dev.svnRuns, himage]
    rw [exec_svnCommitRecipe s r seq hn (if_neg (ne_true_of_eq_false hblows)), Dev.opSvn_runs _ _ _ _ _ _ runs]
    simp only [himage, and_self, if_true]
    rfl

/-- Settles O12: the operation refused, and the operation begun. -/
theorem fuseOperationRefusedOrBusy : Obligations.FuseOperationRefusedOrBusy := by
  intro s now op index r h1 h4 hindex m c d idle
  have hexec : exec c s = .next (s.after (d.fuseGo s.fuse op index)) := exec_fuseOperation s now r m h1 h4 hindex idle
  refine ⟨fun h => ⟨_, hexec, ?refused⟩, fun h => ⟨_, hexec, ?busy⟩⟩
  case refused => exact d.fuseGo_refused_spec s.fuse ⟨h1, h4⟩ h idle
  case busy => exact d.fuseGo_busy_spec s.fuse ⟨h1, h4⟩ h

/-- Settles O13: the operation in progress blows its fuse, and where there is none nothing ends. -/
theorem fuseOperationBlowsItsFuse : Obligations.FuseOperationBlowsItsFuse := by
  intro s now index key r hindex m d blows
  have hdone {op i : Nat} (h : d.mgmt.fuseBusy = some (op, i, key)) : blows (Dev.blown s.fuse op i key) := by
    obtain ⟨e, ⟨hbit, hnone⟩, he⟩ := d.fuseDone_busy s.fuse h
    exact ⟨e, by rw [exec_fuseProgramDone_run s now r m, he], hbit, hnone⟩
  refine ⟨fun h => hdone h, fun h => hdone h, fun h => hdone h, fun h => ⟨_, ?_, fun k => bit_putBits_one ..⟩, fun h => ⟨_, ?_, fun k => bit_putBits_one ..⟩, fun h => ?_⟩
  · simpa [Dev.blown, hindex] using hdone h
  · simpa [Dev.blown, hindex] using hdone h
  · rw [exec_fuseProgramDone_run s now r m, Dev.fuseDone_idle _ _ h]
    rfl

/-- Refutes O28: the error in the burst that CSR_READ carries is met by the read of another session's poll in the same step (DD_CORR counts it), though the command itself is
denied. -/
theorem not_lowerPrivilegeIsDenied : ¬ Obligations.LowerPrivilegeIsDenied := by
  intro h
  have hdenied := h pollingState deniedRead 0 7 0x0101 2 [] (by decide) (by decide) rfl (by decide +kernel) (by decide) (by decide +kernel)
  have hcounts : (match exec deniedRead pollingState with | .next t => t.dev.ctr R.DD_CORR | _ => 0) = 1 := by decide +kernel
  have hcalm : (pollingState.after ((pollingState.dev.begin' 0 7 0x0101 []).reply 0 7 0x0101 3 2 [])).dev.ctr R.DD_CORR = 0 := by decide +kernel
  rw [hdenied] at hcounts
  exact absurd (hcalm.symm.trans hcounts) (by decide)

end

section
/-! PROOFS. The commands of the management port, the UCP, errors, sparing, health, telemetry, LPDDR6, power, reset, boot and fuses complete. -/
open Sys2Proof Sys2Proof.Machine

/-- Settles O56: each command composed as its definition composes it, from its conditions and the way of its effect. -/
theorem controlProtocolCommandsComplete : Obligations.ControlProtocolCommandsComplete := by
  intro s r
  dsimp only [exec]
  refine ⟨?mgmtPortLinkChange, ?mgmtFrameReceive, ?neighborSolicitation, ?echoRequest, ?hello, ?finish, ?helloTimeout, ?command, ?eventAck, ?eventResend,
    ?sessionIdleTimeout, ?deviceInfo, ?sessionClose, ?sessionFlush, ?sessionHistory, ?eventSubscribe, ?nopCommand, ?csrRead, ?csrWrite, ?csrRmw, ?csrPoll,
    ?csrPollTimeout, ?tblRead, ?tblWrite, ?tblInvalidate, ?bankCopy, ?emInsert, ?emDelete, ?emFind, ?emFlush, ?tblWriteAll, ?ceRead, ?ceWrite,
    ?ceInvalidate, ?partitionAbort, ?ceStatus, ?portStatus, ?portEnable, ?portQuiesce, ?indigoSet, ?laneStatus, ?slotCtrl, ?timeStatus, ?tpoArm,
    ?tpoCancel, ?portHold, ?laserService, ?oeSelftest, ?vatRetire, ?sliceSwap, ?ddrRetire, ?bankSelftest, ?maintStop, ?maintStatus, ?errRead, ?errAck,
    ?fwStatus, ?imgBegin, ?imgData, ?firmwareImageCommit, ?recipeLoad, ?fwActivate, ?getCerts, ?attest, ?credRead, ?credWrite, ?svnCommitFirmware,
    ?svnCommitRecipe, ?ctrSnapshot, ?telemSubscribe, ?flightRead, ?powerStatus, ?thermalStatus, ?umberEnter⟩
  case mgmtPortLinkChange => exact fun _ _ _ _ m => timed_next _ s _ r m
  case mgmtFrameReceive => exact fun _ _ _ m => timed_next _ s _ r m
  case neighborSolicitation | echoRequest | hello | finish | command | eventAck | csrPollTimeout => exact fun _ _ _ m wf => need_eq wf (timed_next _ s _ r m)
  case helloTimeout | eventResend | sessionIdleTimeout => exact fun _ _ m wf => need_eq wf (timed_next _ s _ r m)
  case csrRead | csrPoll | fwActivate | flightRead => exact fun _ _ _ _ wf => need_eq wf (act_next s _ r)
  case csrWrite | portEnable | portQuiesce | indigoSet | slotCtrl => exact fun _ _ _ wf good => need_eq wf (predictable_eq good (act_next s _ r))
  case csrRmw => exact fun _ _ _ _ wf good => need_eq wf (predictable_eq good (act_next s _ r))
  case firmwareImageCommit | recipeLoad => exact fun _ _ wf => need_eq wf (act_next s _ r)
  case svnCommitFirmware => exact fun _ seq hn => exec_svnCommitFirmware s r seq hn rfl
  case svnCommitRecipe => exact fun _ seq hn => exec_svnCommitRecipe s r seq hn rfl
  case deviceInfo | sessionClose | sessionFlush | sessionHistory | eventSubscribe | nopCommand | tblRead | tblWrite | tblInvalidate | bankCopy | emInsert
    | emDelete | emFind | emFlush | tblWriteAll | ceRead | ceWrite | ceInvalidate | partitionAbort | ceStatus | portStatus | laneStatus | timeStatus
    | tpoArm | tpoCancel | portHold | laserService | oeSelftest | vatRetire | sliceSwap | ddrRetire | bankSelftest | maintStop | maintStatus | errRead
    | errAck | fwStatus | imgBegin | imgData | getCerts | attest | credRead | credWrite | ctrSnapshot | telemSubscribe | powerStatus | thermalStatus
    | umberEnter => exact fun _ _ _ wf => need_eq wf (act_next s _ r)

/-- Settles O57: each command composed as its definition composes it, from its conditions and the way of its effect. -/
theorem faultAndTelemetryCommandsComplete : Obligations.FaultAndTelemetryCommandsComplete := by
  intro s r
  dsimp only [exec]
  refine ⟨?erAck, ?vatHardFault, ?vatDrainEnd, ?vatSpareTestEnd, ?sliceSwapSwitchover, ?wireSpareSwitch, ?deferredRowRepair, ?segmentMoveComplete,
    ?selftestComplete, ?healthDecay, ?hsRelease, ?pmClear, ?telemetryReport, ?ringDump, ?flightFreeze, ?patrolScrub, ?zqCalibration, ?imgCommitComplete,
    ?railLeavesTolerance, ?announceReceiptTimeout⟩
  case erAck | railLeavesTolerance => exact fun _ _ m wf => need_eq wf (timed_next _ s _ r m)
  case vatHardFault => exact fun _ _ _ _ m wf => need_eq wf (timed_next _ s _ r m)
  case vatDrainEnd | vatSpareTestEnd | segmentMoveComplete => exact fun _ _ _ m wf => need_eq wf (timed_next _ s _ r m)
  case patrolScrub => exact fun _ _ _ _ _ m wf => need_eq wf (timed_next _ s _ r m)
  case sliceSwapSwitchover | deferredRowRepair | selftestComplete => exact fun _ _ _ m => timed_next _ s _ r m
  case wireSpareSwitch | imgCommitComplete => exact fun _ _ m => timed_next _ s _ r m
  case healthDecay | telemetryReport | ringDump | flightFreeze | zqCalibration | announceReceiptTimeout => exact fun _ m => timed_next _ s _ r m
  case hsRelease => exact fun _ _ _ m good => predictable_eq good (timed_next _ s _ r m)
  case pmClear => exact fun _ _ m wf reach => need_eq wf (need_eq reach (timed_next _ s _ r m))

/-- Settles O58: each command composed as its definition composes it, from its conditions and the way of its effect. -/
theorem powerAndBootCommandsComplete : Obligations.PowerAndBootCommandsComplete := by
  intro s
  dsimp only [exec]
  refine ⟨?thermalTrip, ?undervoltageReset, ?powerOnReset, ?fullReset, ?resetRelease, fun r => ⟨?umberEntryComplete, ?wakeReqWrite, ?grantInstant,
    ?rampStep, ?wakeComplete, ?bistDone, ?thermalWarn, ?railWarn, ?powerOver, ?bootRetry, ?firmwareReady, ?watchdogExpire, ?trialConfirm, ?coreFault,
    ?mgmtReset, ?datapathReset, ?datapathResetDone, ?programOwner, ?programRkey, ?revokeFkey, ?revokeRkey, ?fuseProgramDone⟩⟩
  case thermalTrip | undervoltageReset => exact fun _ _ _ m wf => need_eq wf (always_next _ s _ m)
  case powerOnReset | resetRelease => exact fun _ m => always_next _ s _ m
  case fullReset => exact fun _ _ m => always_next _ s _ m
  case umberEntryComplete | grantInstant | bootRetry | firmwareReady | trialConfirm | mgmtReset | datapathReset | datapathResetDone =>
    exact fun _ m => timed_next _ s _ r m
  case wakeReqWrite | rampStep | powerOver | watchdogExpire => exact fun _ _ m => timed_next _ s _ r m
  case wakeComplete => exact fun _ _ m wf => need_eq wf (timed_next _ s _ r m)
  case thermalWarn | railWarn | coreFault => exact fun _ _ _ m wf => need_eq wf (timed_next _ s _ r m)
  case bistDone => exact fun _ _ _ _ _ m wf => need_eq wf (timed_next _ s _ r m)
  case programOwner | programRkey | revokeFkey | revokeRkey => exact fun _ _ m idle => predictable_eq idle (timed_next _ s _ r m)
  case fuseProgramDone => exact fun now m => exec_fuseProgramDone_run s now r m

end

section
/-! PROOFS. Time that passes within a beat, and fabric time (spec/13_time.md R438). -/
namespace Sys2Proof.Machine
namespace Dev

/-- The device `e` is `d` but for counters and the notes that the queues keep for their report. -/
def CountsOnly (d e : Dev) : Prop := ∃ m q, e = { d with csr := { d.csr with ctrs := m }, core := { d.core with qstat := q } }

namespace CountsOnly

theorem refl (d : Dev) : CountsOnly d d := ⟨_, _, rfl⟩

theorem trans {d e f : Dev} (h : CountsOnly d e) (g : CountsOnly e f) : CountsOnly d f := by
  obtain ⟨m, q, rfl⟩ := h
  obtain ⟨m, q, rfl⟩ := g
  exact ⟨m, q, rfl⟩

theorem foldl {α : Type} {f : Dev → α → Dev} (hf : ∀ d x, CountsOnly d (f d x)) (l : List α) (d : Dev) : CountsOnly d (l.foldl f d) :=
  List.foldlRecOn (motive := CountsOnly d) l f (refl d) fun e he x _ => he.trans (hf e x)

theorem incBy (d : Dev) (a n : Nat) : CountsOnly d (d.incBy a n) := by
  obtain ⟨m, h⟩ := d.incBy_csr a n
  exact ⟨m, d.core.qstat, h⟩

/-- Counted where a condition holds. -/
theorem incIf (d : Dev) (b : Bool) (a n : Nat) : CountsOnly d (if b then d.incBy a n else d) := by
  cases b with
  | true => exact incBy d a n
  | false => exact refl d

theorem noteFlags (d : Dev) (now q : Nat) : CountsOnly d (d.noteFlags now q) := by
  unfold Dev.noteFlags
  dsimp only
  split
  · exact refl d
  · exact ⟨d.csr.ctrs, _, rfl⟩

theorem noteAll (d : Dev) (now : Nat) : CountsOnly d (d.noteAll now) := foldl (fun d q => noteFlags d now q) _ d

theorem xoffCycles (d : Dev) (core : Nat) : CountsOnly d (d.xoffCycles core) := by
  refine foldl (fun d x => ?_) _ d
  split
  · exact foldl (fun d v => (incIf d _ _ core).trans (incIf _ _ _ core)) _ d
  · exact refl d

theorem pmCycles (d : Dev) (core vat now : Nat) : CountsOnly d (d.pmCycles core vat now) := by
  unfold Dev.pmCycles
  split
  · exact refl d
  · exact (foldl (fun d u => incBy d _ _) _ d).trans (foldl (fun d x => incBy d _ _) _ _)

end CountsOnly

theorem tick_past (d : Dev) {now : Nat} (h : now ≤ d.lc) : d.tick now = d := if_pos h

/-- The count moves on after the counts and notes of the cycles on the way. -/
theorem tick_future (d : Dev) {now : Nat} (h : ¬ now ≤ d.lc) : ∃ e, CountsOnly d e ∧ d.tick now = { e with time := { e.time with lc := now } } := by
  unfold tick
  rw [if_neg h]
  refine ⟨_, ?_, rfl⟩
  split
  · exact ((CountsOnly.pmCycles d _ _ now).trans (.xoffCycles _ _)).trans (.noteAll _ now)
  · exact .refl d

/-! Fabric time. -/

/-- The units of 2^-16 ns that have passed since BASE_LC. -/
def sinceBase (d : Dev) (c : Nat) : Int := (c - d.time.baseLc : Nat) * 262144 * (2 ^ 48 + d.time.rate) / (5 * 2 ^ 48)

theorem sinceBase_nonneg (d : Dev) (c : Nat) (hrate : -(2 ^ 48) < d.time.rate) : 0 ≤ d.sinceBase c :=
  Int.ediv_nonneg (mul_nonneg (mul_nonneg (Int.natCast_nonneg _) (by decide)) (by omega)) (by decide)

theorem sinceBase_mono (d : Dev) {c c' : Nat} (h : c ≤ c') (hrate : -(2 ^ 48) < d.time.rate) : d.sinceBase c ≤ d.sinceBase c' := by
  refine Int.ediv_le_ediv (by decide) (mul_le_mul_of_nonneg_right (mul_le_mul_of_nonneg_right ?_ (by decide)) (by omega))
  exact Int.ofNat_le.mpr (Nat.sub_le_sub_right h _)

theorem fabAt_eq (d : Dev) (c : Nat) (hrate : -(2 ^ 48) < d.time.rate) (hbase : 0 ≤ d.time.baseT) : (d.fabAt c : Int) = d.time.baseT + d.sinceBase c :=
  Int.toNat_of_nonneg (add_nonneg hbase (d.sinceBase_nonneg c hrate))

end Dev
end Sys2Proof.Machine

open Sys2Proof Sys2Proof.Machine

/-- Settles O5: the count that is past already, and the count that is still to come. -/
theorem timePassingOnlyCounts : Obligations.TimePassingOnlyCounts := by
  intro d now
  by_cases h : now ≤ d.lc
  case pos =>
    refine ⟨d.csr.ctrs, d.core.qstat, ?_⟩
    rw [d.tick_past h, Nat.max_eq_left h]
    rfl
  case neg =>
    obtain ⟨e, ⟨m, q, rfl⟩, he⟩ := d.tick_future h
    refine ⟨m, q, ?_⟩
    rw [he, Nat.max_eq_right (Nat.le_of_not_le h)]

/-- Settles O27: the count since BASE_LC in units of 2^-16 ns is a quotient, which its product with the divisor does not exceed and the next one's does. -/
theorem fabricTimeFollowsItsRate : Obligations.FabricTimeFollowsItsRate := by
  intro d c hrate hbase _ exact'
  have hc := d.fabAt_eq c hrate hbase
  have hlow : 5 * 2 ^ 48 * d.sinceBase c ≤ exact' := Int.mul_ediv_self_le (by decide)
  have hhigh : exact' < 5 * 2 ^ 48 * d.sinceBase c + 5 * 2 ^ 48 := Int.lt_mul_ediv_self_add (by decide)
  refine ⟨by rw [hc]; linarith, by rw [hc]; linarith, fun c' h => ?_⟩
  have hmono := d.sinceBase_mono h hrate
  have hc' := d.fabAt_eq c' hrate hbase
  omega

end

section
/-! PROOFS. GO of a time pulse output. -/
namespace Sys2Proof.Machine
namespace Dev

/-! What GO decides on (spec/13_time.md R460, R461). -/

/-- The start of an output in fabric time: the next second that START_SEC names, and START_NS in it. -/
def tpoStart (d : Dev) (n : Nat) : Nat :=
  (d.fabT / secUnits + ((d.reg (R.TPO_START_SEC n)).toNat + 2 ^ 32 - d.fabT / secUnits % 2 ^ 32) % 2 ^ 32) * secUnits + (d.reg (R.TPO_START_NS n)).toNat * 65536

/-- Whether GO arms an output in PERIODIC mode (`m` one) or not. -/
def tpoReady (d : Dev) (n m : Nat) : Bool :=
  !d.on (R.TPO_CTRL n) F.TPO_CTRL_ARMED && decide (d.fabT + 1000 * 65536 ≤ d.tpoStart n ∧ d.tpoStart n < d.fabT + 2 ^ 31 * secUnits ∧
    (m = 1 → (d.reg (R.TPO_WIDTH_NS n)).toNat < (d.reg (R.TPO_PERIOD_NS n)).toNat))

/-- Whether the period of an output is a free value. -/
def tpoWild (d : Dev) (n m : Nat) : Bool := decide (m = 1 ∧ (d.reg (R.TPO_PERIOD_NS n)).toNat < 16)

/-- The output as it is armed, with a period. -/
def tpoOut (d : Dev) (n m p : Nat) : Tpo :=
  { next := d.tpoStart n, period := p, width := (d.reg (R.TPO_WIDTH_NS n)).toNat * 65536, periodic := m = 1, high := (d.tpoAt n).high,
    cancel := (d.tpoAt n).high.isSome }

/-- The device with a free value drawn where one is needed. -/
def drawIf (d : Dev) (b : Bool) : Dev := { d with free := if b then d.free + 1 else d.free }

theorem tpoGo_refused (d : Dev) {n : Nat} (h : d.tpoReady n (d.fld (R.TPO_CTRL n) F.TPO_CTRL_MODE) = false) :
    d.tpoGo n = d.setFld (R.TPO_CTRL n) F.TPO_CTRL_GO_REFUSED 1 := by
  unfold tpoGo
  dsimp only
  refine if_neg fun ⟨harmed, hlow, hhigh, hwidth⟩ => ne_true_of_eq_false h ?_
  simp only [tpoReady, Bool.and_eq_true, Bool.not_eq_true', decide_eq_true_eq]
  exact ⟨Bool.eq_false_of_not_eq_true harmed, hlow, hhigh, fun hm => hwidth (decide_eq_true hm)⟩

theorem tpoGo_ready (d : Dev) {n : Nat} (h : d.tpoReady n (d.fld (R.TPO_CTRL n) F.TPO_CTRL_MODE) = true) :
    let m := d.fld (R.TPO_CTRL n) F.TPO_CTRL_MODE
    ∃ p, 0 < (if d.tpoWild n m then p else 1) ∧ (d.tpoWild n m = false → p = (d.reg (R.TPO_PERIOD_NS n)).toNat * 65536) ∧
      d.tpoGo n = ((d.drawIf (d.tpoWild n m)).setTpo n (d.tpoOut n m p)).setFld (R.TPO_CTRL n) F.TPO_CTRL_ARMED 1 := by
  intro m
  simp only [tpoReady, Bool.and_eq_true, Bool.not_eq_true', decide_eq_true_eq] at h
  obtain ⟨harmed, hlow, hhigh, hwidth⟩ := h
  have hgo : ¬ d.on (R.TPO_CTRL n) F.TPO_CTRL_ARMED = true ∧ d.fabT + 1000 * 65536 ≤ d.tpoStart n ∧ d.tpoStart n < d.fabT + 2 ^ 31 * secUnits ∧
      (d.on (R.TPO_CTRL n) F.TPO_CTRL_MODE = true → (d.reg (R.TPO_WIDTH_NS n)).toNat < (d.reg (R.TPO_PERIOD_NS n)).toNat) :=
    ⟨ne_true_of_eq_false harmed, hlow, hhigh, fun hm => hwidth (of_decide_eq_true hm)⟩
  have hper : (d.on (R.TPO_CTRL n) F.TPO_CTRL_MODE = true ∧ (d.reg (R.TPO_PERIOD_NS n)).toNat < 16) ↔ d.tpoWild n m = true := by
    simp [tpoWild, on, m]
  by_cases wild : d.tpoWild n m = true
  case pos =>
    refine ⟨(Config.free d.free).toNat + 1, by simp [wild], fun hw => absurd wild (ne_true_of_eq_false hw), ?_⟩
    unfold tpoGo drawIf
    refine (if_pos hgo).trans ?_
    rw [if_pos (hper.mpr wild), if_pos wild]
    rfl
  case neg =>
    refine ⟨(d.reg (R.TPO_PERIOD_NS n)).toNat * 65536, by simp [wild], fun _ => rfl, ?_⟩
    unfold tpoGo drawIf
    refine (if_pos hgo).trans ?_
    rw [if_neg (wild ∘ hper.mp), if_neg wild]
    rfl

/-! MODE and POL are written first. -/

/-- The ball shows a new idle level. -/
def tpoShown (d : Dev) (n pol : Nat) : Dev :=
  if d.fld (R.TPO_CTRL n) F.TPO_CTRL_POL = pol then d else d.emit (.pulse n (decide (pol = 1) != (d.tpoAt n).high.isSome) d.lc)

/-- The device with MODE and POL written. -/
def tpoModed (d : Dev) (n mode pol : Nat) : Dev :=
  ((d.tpoShown n pol).setFld (R.TPO_CTRL n) F.TPO_CTRL_MODE mode).setFld (R.TPO_CTRL n) F.TPO_CTRL_POL pol

theorem tpoWrite_go (d : Dev) (n mode pol : Nat) : d.tpoWrite n mode pol false true = (d.tpoModed n mode pol).tpoGo n := rfl

theorem csr_tpoShown (d : Dev) (n pol : Nat) : (d.tpoShown n pol).csr = d.csr := by
  unfold tpoShown
  split <;> rfl

theorem time_tpoShown (d : Dev) (n pol : Nat) : (d.tpoShown n pol).time = d.time := by
  unfold tpoShown
  split <;> rfl

theorem tpoModed_regsOnly (d : Dev) (n mode pol : Nat) : RegsOnly [R.TPO_CTRL n] (d.tpoShown n pol) (d.tpoModed n mode pol) :=
  ((RegsOnly.refl _ _).setFld _ _ (List.mem_singleton.mpr rfl)).setFld _ _ (List.mem_singleton.mpr rfl)

theorem time_tpoModed (d : Dev) (n mode pol : Nat) : (d.tpoModed n mode pol).time = d.time := d.time_tpoShown n pol

theorem reg_tpoModed (d : Dev) (n mode pol : Nat) {a : Nat} (h : a ≠ R.TPO_CTRL n) : (d.tpoModed n mode pol).reg a = d.reg a := by
  rw [(d.tpoModed_regsOnly n mode pol).1 a (by simpa using h), reg, csr_tpoShown, reg]

theorem fld_tpoModed_mode (d : Dev) (n pol : Nat) {mode : Nat} (h : mode < 2) : (d.tpoModed n mode pol).fld (R.TPO_CTRL n) F.TPO_CTRL_MODE = mode := by
  rw [tpoModed, fld_setFld_other _ _ F.TPO_CTRL_POL F.TPO_CTRL_MODE _ (by decide) (by decide) (by decide),
    fld_setFld_same _ _ _ _ (by decide) (by decide)]
  exact Nat.mod_eq_of_lt h

theorem fld_tpoModed_pol (d : Dev) (n mode : Nat) {pol : Nat} (h : pol < 2) : (d.tpoModed n mode pol).fld (R.TPO_CTRL n) F.TPO_CTRL_POL = pol := by
  rw [tpoModed, fld_setFld_same _ _ _ _ (by decide) (by decide)]
  exact Nat.mod_eq_of_lt h

/-- ARMED and GO_REFUSED stand above MODE and POL. -/
theorem on_tpoModed_above (d : Dev) (n mode pol : Nat) {f : FR} (h : 1 < f.lo) : (d.tpoModed n mode pol).on (R.TPO_CTRL n) f = d.on (R.TPO_CTRL n) f := by
  rw [tpoModed, on_setFld_other _ _ F.TPO_CTRL_POL f _ (by decide) (by decide) (.inr h),
    on_setFld_other _ _ F.TPO_CTRL_MODE f _ (by decide) (by decide) (.inr (Nat.lt_trans Nat.zero_lt_one h)), on, fld, reg, csr_tpoShown, on, fld, reg]

/-- Start, period and width stand in other words than the control word. -/
theorem tpo_words_ne (n : Nat) : R.TPO_START_SEC n ≠ R.TPO_CTRL n ∧ R.TPO_START_NS n ≠ R.TPO_CTRL n ∧ R.TPO_PERIOD_NS n ≠ R.TPO_CTRL n ∧
    R.TPO_WIDTH_NS n ≠ R.TPO_CTRL n := by
  simp only [R.TPO_START_SEC, R.TPO_START_NS, R.TPO_PERIOD_NS, R.TPO_WIDTH_NS, R.TPO_CTRL]
  omega

theorem tpoStart_tpoModed (d : Dev) (n mode pol : Nat) : (d.tpoModed n mode pol).tpoStart n = d.tpoStart n := by
  obtain ⟨hsec, hns, -, -⟩ := tpo_words_ne n
  simp only [tpoStart, fabT, lc, fabAt, time_tpoModed, reg_tpoModed _ _ _ _ hsec, reg_tpoModed _ _ _ _ hns]

theorem tpoReady_tpoModed (d : Dev) (n mode pol m : Nat) : (d.tpoModed n mode pol).tpoReady n m = d.tpoReady n m := by
  obtain ⟨-, -, hper, hwidth⟩ := tpo_words_ne n
  have hfab : (d.tpoModed n mode pol).fabT = d.fabT := by simp only [fabT, lc, fabAt, time_tpoModed]
  rw [tpoReady, on_tpoModed_above d n mode pol (by decide), tpoReady, hfab, tpoStart_tpoModed, reg_tpoModed _ _ _ _ hper, reg_tpoModed _ _ _ _ hwidth]

theorem tpoWild_tpoModed (d : Dev) (n mode pol m : Nat) : (d.tpoModed n mode pol).tpoWild n m = d.tpoWild n m := by
  obtain ⟨-, -, hper, -⟩ := tpo_words_ne n
  simp only [tpoWild, reg_tpoModed _ _ _ _ hper]

theorem tpoOut_tpoModed (d : Dev) (n mode pol m p : Nat) : (d.tpoModed n mode pol).tpoOut n m p = d.tpoOut n m p := by
  obtain ⟨-, -, -, hwidth⟩ := tpo_words_ne n
  simp only [tpoOut, tpoStart_tpoModed, tpoAt, time_tpoModed, reg_tpoModed _ _ _ _ hwidth]

/-- A frame holds as well with a free value drawn and an output replaced on both sides. -/
theorem RegsOnly.setTpo {l : List Nat} {d e : Dev} (h : RegsOnly l d e) (b : Bool) (n : Nat) (t : Tpo) :
    RegsOnly l ((d.drawIf b).setTpo n t) ((e.drawIf b).setTpo n t) := by
  obtain ⟨hreg, hctrs, hrwb, hsnap, hlatch, harm, hrest⟩ := h
  exact ⟨hreg, hctrs, hrwb, hsnap, hlatch, harm, congrArg (fun x : Dev => (x.drawIf b).setTpo n t) hrest⟩

/-- GO with MODE and POL just written, where it arms. -/
theorem tpoGo_tpoModed_ready (d : Dev) {n mode : Nat} (pol : Nat) (hmode : mode < 2) (h : d.tpoReady n mode = true) :
    ∃ p, 0 < (if d.tpoWild n mode then p else 1) ∧ (d.tpoWild n mode = false → p = (d.reg (R.TPO_PERIOD_NS n)).toNat * 65536) ∧
      (d.tpoModed n mode pol).tpoGo n =
        (((d.tpoModed n mode pol).drawIf (d.tpoWild n mode)).setTpo n (d.tpoOut n mode p)).setFld (R.TPO_CTRL n) F.TPO_CTRL_ARMED 1 := by
  have hgo := (d.tpoModed n mode pol).tpoGo_ready (n := n)
  simp only [fld_tpoModed_mode d n pol hmode, tpoReady_tpoModed, tpoWild_tpoModed, tpoOut_tpoModed, reg_tpoModed d n mode pol (tpo_words_ne n).2.2.1] at hgo
  exact hgo h

theorem tpoGo_tpoModed_refused (d : Dev) {n mode : Nat} (pol : Nat) (hmode : mode < 2) (h : d.tpoReady n mode = false) :
    (d.tpoModed n mode pol).tpoGo n = (d.tpoModed n mode pol).setFld (R.TPO_CTRL n) F.TPO_CTRL_GO_REFUSED 1 :=
  tpoGo_refused _ (by rw [fld_tpoModed_mode d n pol hmode, tpoReady_tpoModed, h])

end Dev

theorem exec_tpoGo (s : State) (now : Nat) (r : s.dev.inReset = false) (m : s.dev.mrdTrap now = false) {n mode pol : Nat} (hn : n < 4) (hmode : mode < 2)
    (hpol : pol < 2) : exec (.tpoGo now n mode pol) s = .next (s.after (((s.dev.advance now).tpoModed n mode pol).tpoGo n)) := by
  dsimp only [exec, execTpoGo]
  rw [Nat.mod_eq_of_lt hmode, Nat.mod_eq_of_lt hpol]
  exact need_eq (decide_eq_true hn) (timed_next now s _ r m)

end Sys2Proof.Machine

open Sys2Proof Sys2Proof.Machine

/-- Settles O44: the output armed, and GO refused. -/
theorem pulseOutputGo : Obligations.PulseOutputGo := by
  intro s now n mode pol r m hn hmode hpol d a sec start per ok f wild out
  rw [exec_tpoGo s now r m hn hmode hpol]
  cases hgo : ok
  case true =>
    obtain ⟨p, hpos, hper, he⟩ := d.tpoGo_tpoModed_ready pol hmode hgo
    have hwild : wild = d.tpoWild n mode := by rw [show wild = (ok && d.tpoWild n mode) from rfl, hgo, Bool.true_and]
    rw [hwild, he]
    refine ⟨_, p, rfl, hpos, hper, (((d.tpoModed_regsOnly n mode pol).setTpo _ n _).setFld _ _ (List.mem_singleton.mpr rfl)), ?mode, ?pol, ?armed, ?refused⟩
    case mode => exact (Dev.fld_setFld_other _ _ _ _ _ (by decide) (by decide) (by decide)).trans (d.fld_tpoModed_mode n pol hmode)
    case pol => exact (Dev.fld_setFld_other _ _ _ _ _ (by decide) (by decide) (by decide)).trans (d.fld_tpoModed_pol n mode hpol)
    case armed => rw [Bool.or_true, Dev.on_setFld_one _ _ _ rfl (by decide)]
    case refused =>
      rw [Bool.not_true, Bool.or_false]
      exact (Dev.on_setFld_other _ _ _ _ _ (by decide) (by decide) (by decide)).trans (d.on_tpoModed_above n mode pol (by decide))
  case false =>
    have hwild : wild = false := by rw [show wild = (ok && d.tpoWild n mode) from rfl, hgo, Bool.false_and]
    rw [hwild, d.tpoGo_tpoModed_refused pol hmode hgo]
    refine ⟨_, per * 65536, rfl, Nat.one_pos, fun _ => rfl, (d.tpoModed_regsOnly n mode pol).setFld _ _ (List.mem_singleton.mpr rfl), ?mode, ?pol, ?armed, ?refused⟩
    case mode => exact (Dev.fld_setFld_other _ _ _ _ _ (by decide) (by decide) (by decide)).trans (d.fld_tpoModed_mode n pol hmode)
    case pol => exact (Dev.fld_setFld_other _ _ _ _ _ (by decide) (by decide) (by decide)).trans (d.fld_tpoModed_pol n mode hpol)
    case armed =>
      rw [Bool.or_false]
      exact (Dev.on_setFld_other _ _ _ _ _ (by decide) (by decide) (by decide)).trans (d.on_tpoModed_above n mode pol (by decide))
    case refused => rw [Bool.not_false, Bool.or_true, Dev.on_setFld_one _ _ _ rfl (by decide)]

end

section
/-! PROOFS. Acknowledged records and the wake. -/
namespace Sys2Proof.Machine
namespace Dev

/-! An acknowledgement (spec/15_faults_sparing.md R511). -/

theorem reg_lt (d : Dev) (a : Nat) : (d.reg a).toNat < 2 ^ 32 := (d.reg a).isLt

theorem toNat_reg_setNum {d : Dev} {a n : Nat} (h : n < 2 ^ 32) : ((d.setNum a n).reg a).toNat = n := by
  rw [reg_setNum_same, BitVec.toNat_ofNat, Nat.mod_eq_of_lt h]

theorem ackRecord_open (d : Dev) {n : Nat} (h : (d.recValid n && !d.recAcked n) = true) :
    d.ackRecord n = d.setNum (R.ER_REC n 1) (putBits (d.erw n 1) 22 22 1) :=
  if_pos (by simpa using h)

theorem ackRecord_other (d : Dev) {n : Nat} (h : (d.recValid n && !d.recAcked n) = false) : d.ackRecord n = d :=
  if_neg (by simpa using h)

theorem erw_acked (d : Dev) (n : Nat) : (d.setNum (R.ER_REC n 1) (putBits (d.erw n 1) 22 22 1)).erw n 1 = putBits (d.erw n 1) 22 22 1 :=
  toNat_reg_setNum (putBits_lt _ 22 22 1 32 (d.reg_lt _) le_rfl (by decide))

theorem RegsOnly.setNum {l : List Nat} {d e : Dev} (h : RegsOnly l d e) {a : Nat} (n : Nat) (ha : a ∈ l) : RegsOnly l d (e.setNum a n) := h.setReg _ ha

/-! The grant and the ramp (spec/16_power_umber.md R562, R563). -/

/-- The registers at the grant instant. -/
def grantRegs (d : Dev) : Dev :=
  (((d.setNum R.PW_GRANT_LO (d.fabNs % 2 ^ 32)).setNum R.PW_GRANT_HI (d.fabNs / 2 ^ 32 % 2 ^ 32)).setFld R.PW_STAT F.PW_STAT_STEP 0).setPw 3

/-- The instant that the ramp steps count from. -/
def setBegun (d : Dev) (c : Nat) : Dev := { d with power := { d.power with begun := c } }

/-- The device at the grant instant. -/
def granted (d : Dev) : Dev := d.grantRegs.setBegun d.lc

theorem reg_setBegun (d : Dev) (c a : Nat) : (d.setBegun c).reg a = d.reg a := rfl

theorem lc_grantRegs (d : Dev) : d.grantRegs.lc = d.lc := by
  rw [grantRegs, setPw, lc_setFld, lc_setFld, lc_setNum, lc_setNum]

theorem grant_umber (d : Dev) (hpw : d.pwState = 2) (hreq : d.on R.PW_STAT F.PW_STAT_REQ_PIN = true) : d.grant = d.granted := by
  rw [granted, ← d.lc_grantRegs]
  exact if_pos ⟨hpw, hreq⟩

theorem grant_other (d : Dev) (h : d.pwState ≠ 2 ∨ d.on R.PW_STAT F.PW_STAT_REQ_PIN = false) : d.grant = d :=
  if_neg fun ⟨hpw, hreq⟩ => h.elim (· hpw) (ne_true_of_eq_false · hreq)

theorem RegsOnly.setBegun {l : List Nat} {d e : Dev} (h : RegsOnly l d e) (c : Nat) : RegsOnly l (d.setBegun c) (e.setBegun c) := by
  obtain ⟨hreg, hctrs, hrwb, hsnap, hlatch, harm, hrest⟩ := h
  exact ⟨hreg, hctrs, hrwb, hsnap, hlatch, harm, congrArg (Dev.setBegun · c) hrest⟩

theorem reg_granted (d : Dev) (a : Nat) : d.granted.reg a = d.grantRegs.reg a := d.grantRegs.reg_setBegun d.lc a

theorem grantRegs_regsOnly (d : Dev) : RegsOnly [R.PW_STAT, R.PW_GRANT_LO, R.PW_GRANT_HI] d d.grantRegs := by
  have hmem : R.PW_STAT ∈ [R.PW_STAT, R.PW_GRANT_LO, R.PW_GRANT_HI] := .head _
  exact ((((RegsOnly.refl _ d).setNum _ (.tail _ (.head _))).setNum _ (.tail _ (.tail _ (.head _)))).setFld _ _ hmem).setFld _ _ hmem

theorem granted_regsOnly (d : Dev) :
    RegsOnly [R.PW_STAT, R.PW_GRANT_LO, R.PW_GRANT_HI] (d.setBegun d.lc) d.granted :=
  d.grantRegs_regsOnly.setBegun _

theorem pwState_granted (d : Dev) : d.granted.pwState = 3 := by
  rw [pwState, fld, reg_granted, grantRegs, setPw, ← fld, fld_setFld_same _ _ _ _ (by decide) (by decide)]
  rfl

theorem step_granted (d : Dev) : d.granted.fld R.PW_STAT F.PW_STAT_STEP = 0 := by
  rw [fld, reg_granted, grantRegs, setPw, ← fld, fld_setFld_other _ _ _ _ _ (by decide) (by decide) (by decide),
    fld_setFld_same _ _ _ _ (by decide) (by decide)]
  rfl

theorem reg_grantRegs (d : Dev) {a : Nat} (h : a ≠ R.PW_STAT) :
    d.grantRegs.reg a = ((d.setNum R.PW_GRANT_LO (d.fabNs % 2 ^ 32)).setNum R.PW_GRANT_HI (d.fabNs / 2 ^ 32 % 2 ^ 32)).reg a := by
  rw [grantRegs, setPw, reg_setFld_other _ _ _ _ _ h, reg_setFld_other _ _ _ _ _ h]

theorem grantLo_granted (d : Dev) : (d.granted.reg R.PW_GRANT_LO).toNat = d.fabNs % 2 ^ 32 := by
  rw [reg_granted, reg_grantRegs _ (by decide), reg_setNum_other _ _ _ _ (by decide)]
  exact toNat_reg_setNum (Nat.mod_lt _ (Nat.two_pow_pos 32))

theorem grantHi_granted (d : Dev) : (d.granted.reg R.PW_GRANT_HI).toNat = d.fabNs / 2 ^ 32 % 2 ^ 32 := by
  rw [reg_granted, reg_grantRegs _ (by decide)]
  exact toNat_reg_setNum (Nat.mod_lt _ (Nat.two_pow_pos 32))

theorem rampStep_eq (d : Dev) : d.rampStep = let k := d.fld R.PW_STAT F.PW_STAT_STEP + 1
    if d.pwState = 3 ∧ k ≤ 32 ∧ d.power.begun + (500 + 400 * k) * 1250 ≤ d.lc then d.setFld R.PW_STAT F.PW_STAT_STEP k else d := by
  unfold rampStep
  refine if_congr ?_ rfl rfl
  have htime (k : Nat) : d.power.begun + (500 + 400 * k) * 1250 = d.power.begun + 625000 + 500000 * k := by ring
  rw [htime]

end Dev
end Sys2Proof.Machine

open Sys2Proof Sys2Proof.Machine

/-- Settles O47: the open record and any other slot. -/
theorem acknowledgingARecord : Obligations.AcknowledgingARecord := by
  intro s now k r m hk d
  have hexec : exec (.erAck now k) s = .next (s.after (d.ackRecord k)) := need_eq (decide_eq_true hk) (timed_next now s _ r m)
  refine ⟨fun h => ?_, fun h => by rw [hexec, d.ackRecord_other h]⟩
  have hvalid : d.recValid k = true := (Bool.and_eq_true_iff.mp h).1
  refine ⟨_, by rw [hexec, d.ackRecord_open h], ?valid, ?acked, (Dev.RegsOnly.refl _ d).setNum _ (List.mem_singleton.mpr rfl)⟩
  case valid => rw [Dev.recValid, d.erw_acked, bit_putBits_one, ← Dev.recValid, hvalid, Bool.true_or]
  case acked => rw [Dev.recAcked, d.erw_acked, bit_putBits_one, beq_self_eq_true, Bool.or_true]

/-- Settles O48: the grant in Umber, the grant in any other state, the ramp step. -/
theorem wakeFollowsItsGrant : Obligations.WakeFollowsItsGrant := by
  intro s now r m d k
  have hexec : exec (.grantInstant now) s = .next (s.after d.grant) := timed_next now s (fun d _ => d.grant) r m
  refine ⟨fun hpw hreq => ?grant, fun h => ?other, ?ramp⟩
  case grant =>
    rw [hexec, d.grant_umber hpw hreq]
    exact ⟨_, rfl, d.pwState_granted, d.step_granted, d.grantLo_granted, d.grantHi_granted, d.granted_regsOnly⟩
  case other => rw [hexec, d.grant_other h]
  case ramp => exact (timed_next now s (fun d _ => d.ramp none) r m).trans (congrArg (fun e => Host.Outcome.next (s.after e)) d.rampStep_eq)

end

section
/-! PROOFS. The decay of health scores (spec/15_faults_sparing.md R537). -/
namespace Sys2Proof.Machine

/-! Registers that reset to zero. -/

/-- A register family whose fields all reset to zero. -/
def RegFam.Zero (f : RegFam) : Prop := f.kind = .const ∧ ∀ x ∈ f.flds, x.rst = 0

/-- A family of one column that ends at an offset or below it. -/
def RegFam.EndsBy (f : RegFam) (lo : Nat) : Prop := f.s1 = 0x1000000 ∧ 0 < f.s2 ∧ f.base + f.n2 * f.s2 ≤ lo

theorem not_famIndex_of_endsBy {f : RegFam} {lo off i j : Nat} (h : f.EndsBy lo) (hlo : lo ≤ off) (hoff : off < 0x1000000) :
    famIndex f.base f.n1 f.s1 f.n2 f.s2 off ≠ some (i, j) := by
  obtain ⟨hs1, hs2, hend⟩ := h
  intro hidx
  unfold famIndex at hidx
  split at hidx
  · cases hidx
  · dsimp only at hidx
    split at hidx
    · next hin =>
      obtain ⟨-, -, hlt⟩ := hin
      rw [hs1, Nat.mod_eq_of_lt (by omega), Nat.div_lt_iff_lt_mul hs2] at hlt
      omega
    · cases hidx

theorem resetWord_of_zero {a : Nat} (h : ∀ f i j, regAt a = some (f, i, j) → f.Zero) : resetWord a = 0 := by
  unfold resetWord
  split
  · rfl
  · next f i j hf =>
    obtain ⟨hkind, hzero⟩ := h f i j hf
    have hfields : f.flds.map (fun x => fldReset f.kind i j x * 2 ^ x.lo) = f.flds.map fun _ => 0 := by
      refine List.map_congr_left fun x hx => ?_
      rw [hkind, fldReset, hzero x hx, Nat.zero_mul]
    rw [hfields]
    simp

/-- A register above the families of its block that do not reset to zero resets to zero. -/
theorem resetWord_above {a lo : Nat} {fs : List RegFam} {cs : List CtrFam} (hblock : blockOf a = some (fs, cs))
    (hplace : ∀ f ∈ fs, f.Zero ∨ f.EndsBy lo) (hlo : lo ≤ a % 0x1000000) : resetWord a = 0 := by
  refine resetWord_of_zero fun f i j hf => ?_
  unfold regAt at hf
  rw [hblock] at hf
  obtain ⟨hmem, hidx⟩ := mem_of_findFam hf
  exact (hplace f hmem).resolve_right fun hend => not_famIndex_of_endsBy hend hlo (Nat.mod_lt _ (by decide)) hidx

theorem famsER_zero_or_endsBy : ∀ f ∈ famsER, f.Zero ∨ f.EndsBy 0x1000 := by
  unfold RegFam.Zero RegFam.EndsBy
  decide

theorem nodup_eraseDups : ∀ l : List Nat, l.eraseDups.Nodup
  | [] => List.nodup_nil
  | a :: l => by
    rw [List.eraseDups_cons, List.nodup_cons, List.mem_eraseDups]
    exact ⟨by simp, nodup_eraseDups (l.filter fun b => !b == a)⟩
  termination_by l => l.length
  decreasing_by exact Nat.lt_succ_of_le (List.length_filter_le _ _)

namespace Dev

/-- The address of a score register: of a port or of a physical vat. -/
def IsScore (a : Nat) : Prop := (R.HS_PORT 0 ≤ a ∧ a < R.HS_PORT 512) ∨ (R.HS_VAT 0 ≤ a ∧ a < R.HS_VAT 1600)

theorem isScore_port {p : Nat} (hp : p < 512) : IsScore (R.HS_PORT p) := by
  unfold IsScore R.HS_PORT R.HS_VAT
  omega

theorem isScore_vat {v : Nat} (hv : v < 1600) : IsScore (R.HS_VAT v) := by
  unfold IsScore R.HS_PORT R.HS_VAT
  omega

theorem IsScore.bounds {a : Nat} (h : IsScore a) : 0x09002000 ≤ a ∧ a < 0x0A000000 := by
  unfold IsScore R.HS_PORT R.HS_VAT at h
  omega

theorem IsScore.resetWord {a : Nat} (h : IsScore a) : resetWord a = 0 := by
  have hbounds := h.bounds
  have hnine : a / 0x1000000 = 9 := by omega
  refine resetWord_above (fs := famsER) (cs := ctrsER) ?_ famsER_zero_or_endsBy (by omega)
  unfold blockOf
  rw [hnine]
  rfl

theorem mem_scoreRegs {d : Dev} {a : Nat} : a ∈ d.scoreRegs ↔ a ∈ d.csr.regs.map (·.1) ∧ IsScore a := by
  simp [scoreRegs, IsScore]

/-- A score register that is not listed is at reset. -/
theorem reg_eq_zero_of_not_mem {d : Dev} {a : Nat} (ha : IsScore a) (h : a ∉ d.scoreRegs) : d.reg a = 0 := by
  have hkey : a ∉ d.csr.regs.map (·.1) := fun hmem => h (mem_scoreRegs.mpr ⟨hmem, ha⟩)
  have hfind : Sparse.find d.csr.regs a = none := by
    refine Option.eq_none_iff_forall_ne_some.mpr fun w hw => hkey ?_
    exact List.mem_map_of_mem (Sparse.mem_of_find hw)
  rw [reg, Csr.word, hfind]
  exact ha.resetWord

theorem fld_of_reg {d e : Dev} {a : Nat} (h : d.reg a = e.reg a) (f : FR) : d.fld a f = e.fld a f := congrArg (fget · f) h

theorem on_of_reg {d e : Dev} {a : Nat} (h : d.reg a = e.reg a) (f : FR) : d.on a f = e.on a f :=
  congrArg (fun n : Nat => decide (n = 1)) (fld_of_reg h f)

/-! One score decays. -/

theorem reg_decayOne_other (d : Dev) {a b : Nat} (h : b ≠ a) : (d.decayOne a).reg b = d.reg b := by
  unfold decayOne
  dsimp only
  split
  · rw [reg_setFld_other _ _ _ _ _ h, reg_setFld_other _ _ _ _ _ h]
  · rw [reg_setFld_other _ _ _ _ _ h]

theorem score_decayOne (d : Dev) (a : Nat) : (d.decayOne a).fld a F.HS_PORT_SCORE = d.fld a F.HS_PORT_SCORE * 15 / 16 := by
  have hlt : d.fld a F.HS_PORT_SCORE * 15 / 16 < 2 ^ 16 := by
    have hold : d.fld a F.HS_PORT_SCORE < 2 ^ 16 := bits_lt ..
    omega
  have hscore : (d.setFld a F.HS_PORT_SCORE (d.fld a F.HS_PORT_SCORE * 15 / 16)).fld a F.HS_PORT_SCORE = d.fld a F.HS_PORT_SCORE * 15 / 16 := by
    rw [fld_setFld_same _ _ _ _ (by decide) (by decide)]
    exact Nat.mod_eq_of_lt hlt
  unfold decayOne
  dsimp only
  split
  · rw [fld_setFld_other _ _ _ _ _ (by decide) (by decide) (by decide), hscore]
  · exact hscore

theorem quarantined_decayOne (d : Dev) (a : Nat) : (d.decayOne a).on a F.HS_PORT_QUARANTINED = d.on a F.HS_PORT_QUARANTINED := by
  unfold decayOne
  dsimp only
  split
  · rw [on_setFld_other _ _ _ _ _ (by decide) (by decide) (by decide), on_setFld_other _ _ _ _ _ (by decide) (by decide) (by decide)]
  · rw [on_setFld_other _ _ _ _ _ (by decide) (by decide) (by decide)]

/-! All listed scores decay. -/

theorem reg_decay_other (l : List Nat) (d : Dev) {b : Nat} (h : b ∉ l) : (l.foldl decayOne d).reg b = d.reg b := by
  induction l generalizing d with
  | nil => rfl
  | cons a l ih => rw [List.foldl_cons, ih _ (List.not_mem_of_not_mem_cons h), reg_decayOne_other _ (List.ne_of_not_mem_cons h)]

/-- One register of the list takes one decay. -/
theorem decay_of_mem (l : List Nat) (hl : l.Nodup) (d : Dev) {b : Nat} (h : b ∈ l) :
    (l.foldl decayOne d).fld b F.HS_PORT_SCORE = d.fld b F.HS_PORT_SCORE * 15 / 16 ∧
      (l.foldl decayOne d).on b F.HS_PORT_QUARANTINED = d.on b F.HS_PORT_QUARANTINED := by
  induction l generalizing d with
  | nil => exact absurd h List.not_mem_nil
  | cons a l ih =>
    obtain ⟨ha, hl⟩ := List.nodup_cons.mp hl
    rw [List.foldl_cons]
    by_cases hb : b = a
    · subst hb
      have hreg := reg_decay_other l (d.decayOne b) ha
      exact ⟨(fld_of_reg hreg _).trans (d.score_decayOne b), (on_of_reg hreg _).trans (d.quarantined_decayOne b)⟩
    · obtain ⟨hscore, hquar⟩ := ih hl (d.decayOne a) ((List.mem_cons.mp h).resolve_left hb)
      have hreg := d.reg_decayOne_other hb
      rw [hscore, hquar, fld_of_reg hreg, on_of_reg hreg]
      exact ⟨rfl, rfl⟩

theorem decay_scores (d : Dev) {a : Nat} (ha : IsScore a) :
    (d.scoreRegs.foldl decayOne (d.act1 2)).fld a F.HS_PORT_SCORE = d.fld a F.HS_PORT_SCORE * 15 / 16 ∧
      (d.scoreRegs.foldl decayOne (d.act1 2)).on a F.HS_PORT_QUARANTINED = d.on a F.HS_PORT_QUARANTINED := by
  by_cases h : a ∈ d.scoreRegs
  · exact decay_of_mem _ (nodup_eraseDups _) (d.act1 2) h
  · have hzero : d.fld a F.HS_PORT_SCORE = 0 := by
      rw [fld, reg_eq_zero_of_not_mem ha h]
      rfl
    have hreg : (d.scoreRegs.foldl decayOne (d.act1 2)).reg a = d.reg a := reg_decay_other _ (d.act1 2) h
    rw [fld_of_reg hreg, on_of_reg hreg, hzero]
    exact ⟨rfl, rfl⟩

theorem healthDecay_due (d : Dev) (hbeat : d.beatNo % 2 ^ 24 = 0) (hfirst : d.actedIn 2 = false) : d.healthDecay = d.scoreRegs.foldl decayOne (d.act1 2) :=
  if_pos ⟨hbeat, ne_true_of_eq_false hfirst⟩

theorem healthDecay_idle (d : Dev) (h : d.beatNo % 2 ^ 24 ≠ 0 ∨ d.actedIn 2 = true) : d.healthDecay = d :=
  if_neg fun ⟨hbeat, hfirst⟩ => h.elim (· hbeat) (hfirst ·)

end Dev
end Sys2Proof.Machine

open Sys2Proof Sys2Proof.Machine

/-- Settles O45: beats at which nothing decays, and a listed or unlisted score at one that does. -/
theorem healthScoresDecay : Obligations.HealthScoresDecay := by
  intro s now r m d
  have hexec : exec (.healthDecay now) s = .next (s.after d.healthDecay) := timed_next now s (fun d _ => d.healthDecay) r m
  refine ⟨fun h => ?idle, fun hbeat hfirst => ?due⟩
  case idle => rw [hexec, d.healthDecay_idle h]
  case due =>
    refine ⟨_, by rw [hexec, d.healthDecay_due hbeat hfirst], fun p hp => ?_, fun v hv => ?_⟩
    · exact d.decay_scores (Dev.isScore_port hp)
    · exact d.decay_scores (Dev.isScore_vat hv)

end

section
/-! PROOFS. What a power-on reset and a full reset leave (spec/17_boot_security.md R573, R574, R577). -/
namespace Sys2Proof.Machine
namespace Dev

/-- What stands at reset in a device held in reset: everything but registers, fuses, boot storage, the reference and the outputs. -/
structure Wiped (m : Mgmt) (e : Dev) : Prop where
  core : e.core = {}
  tab : e.tab = {}
  ce : e.ce = {}
  vat : e.vat = {}
  link : e.link = {}
  faults : e.faults = {}
  ddr : e.ddr = {}
  seen : e.seen = {}
  inbox : e.time.inbox = []
  mgmt : e.mgmt = storage m
  held : e.power.resetLow = true
  ctrs : e.csr.ctrs = []

theorem Wiped.setReg {m : Mgmt} {e : Dev} (h : Wiped m e) (a : Nat) (w : Word) : Wiped m (e.setReg a w) :=
  ⟨h.core, h.tab, h.ce, h.vat, h.link, h.faults, h.ddr, h.seen, h.inbox, h.mgmt, h.held, h.ctrs⟩

theorem Wiped.setFld {m : Mgmt} {e : Dev} (h : Wiped m e) (a : Nat) (f : FR) (v : Nat) : Wiped m (e.setFld a f v) := h.setReg ..

theorem Wiped.emit {m : Mgmt} {e : Dev} (h : Wiped m e) (o : Out) : Wiped m (e.emit o) :=
  ⟨h.core, h.tab, h.ce, h.vat, h.link, h.faults, h.ddr, h.seen, h.inbox, h.mgmt, h.held, h.ctrs⟩

theorem storage_inbox (m : Mgmt) : (storage m).inbox = [] := rfl

theorem storage_sess (m : Mgmt) : (storage m).sess = List.replicate 8 {} := rfl

/-- A wiped device in Umber waits for nothing. -/
theorem Wiped.quiet {m : Mgmt} {e : Dev} (h : Wiped m e) (hpw : e.pwState = 2) : e.quiet = true := by
  unfold Dev.quiet
  rw [h.core, h.faults, h.mgmt, storage_inbox, storage_sess, h.inbox, h.ddr, h.seen, hpw]
  decide

theorem Wiped.inReset {m : Mgmt} {e : Dev} (h : Wiped m e) : e.inReset = true := by
  unfold Dev.inReset
  rw [h.held]
  rfl

theorem powered_umber {e : Dev} (hpw : e.pwState = 2) : e.powered = false := by
  unfold Dev.powered
  rw [hpw]
  rfl

/-! PRESENT of the laser slots. -/

theorem ohSlotStat_injective : Function.Injective R.OH_SLOT_STAT := by
  intro k l h
  unfold R.OH_SLOT_STAT at h
  omega

/-- PRESENT of one slot is carried over a reset. -/
def keepSlot (old d : Dev) (k : Nat) : Dev :=
  if old.on (R.OH_SLOT_STAT k) F.OH_SLOT_STAT_PRESENT then d.setFld (R.OH_SLOT_STAT k) F.OH_SLOT_STAT_PRESENT 1 else d

theorem keepPresent_eq (old d : Dev) : keepPresent old d = (List.range 16).foldl (keepSlot old) d := rfl

theorem reg_keepSlot_other (old d : Dev) {k a : Nat} (h : a ≠ R.OH_SLOT_STAT k) : (keepSlot old d k).reg a = d.reg a := by
  unfold keepSlot
  split
  · exact reg_setFld_other _ _ _ _ _ h
  · rfl

theorem reg_keepSlots_other (old d : Dev) (l : List Nat) {a : Nat} (h : ∀ k ∈ l, a ≠ R.OH_SLOT_STAT k) : (l.foldl (keepSlot old) d).reg a = d.reg a := by
  induction l generalizing d with
  | nil => rfl
  | cons k l ih => rw [List.foldl_cons, ih _ fun j hj => h j (.tail _ hj), reg_keepSlot_other _ _ (h k (.head _))]

theorem reg_keepSlots_mem (old d : Dev) (l : List Nat) (hl : l.Nodup) {k : Nat} (h : k ∈ l) :
    (l.foldl (keepSlot old) d).reg (R.OH_SLOT_STAT k) = (keepSlot old d k).reg (R.OH_SLOT_STAT k) := by
  induction l generalizing d with
  | nil => exact absurd h List.not_mem_nil
  | cons j l ih =>
    obtain ⟨hj, hl⟩ := List.nodup_cons.mp hl
    rw [List.foldl_cons]
    by_cases hk : k = j
    · subst hk
      exact reg_keepSlots_other old _ l fun i hi he => hj (ohSlotStat_injective he ▸ hi)
    · rw [ih _ hl ((List.mem_cons.mp h).resolve_left hk)]
      have hother : (keepSlot old d j).reg (R.OH_SLOT_STAT k) = d.reg (R.OH_SLOT_STAT k) :=
        reg_keepSlot_other old d fun he => hk (ohSlotStat_injective he)
      unfold keepSlot
      split
      · rw [reg_setFld_same, reg_setFld_same]
        exact congrArg (fput · _ 1) hother
      · exact hother

theorem resetWord_slotStat {k : Nat} (hk : k < 16) : resetWord (R.OH_SLOT_STAT k) = 0 := by
  have hall : ∀ k < 16, resetWord (R.OH_SLOT_STAT k) = 0 := by decide +kernel
  exact hall k hk

/-- In a slot whose word is at reset PRESENT alone is carried over. -/
theorem reg_keepSlot_same (old d : Dev) {k : Nat} (hk : k < 16) (h : d.reg (R.OH_SLOT_STAT k) = resetWord (R.OH_SLOT_STAT k)) :
    (keepSlot old d k).reg (R.OH_SLOT_STAT k) =
      fput (resetWord (R.OH_SLOT_STAT k)) F.OH_SLOT_STAT_PRESENT (old.fld (R.OH_SLOT_STAT k) F.OH_SLOT_STAT_PRESENT) := by
  have hbit : old.fld (R.OH_SLOT_STAT k) F.OH_SLOT_STAT_PRESENT < 2 := bits_lt ..
  unfold keepSlot
  split
  · next hon =>
    rw [reg_setFld_same, h, of_decide_eq_true hon]
  · next hon =>
    have hzero : old.fld (R.OH_SLOT_STAT k) F.OH_SLOT_STAT_PRESENT = 0 := by
      have hone : old.fld (R.OH_SLOT_STAT k) F.OH_SLOT_STAT_PRESENT ≠ 1 := fun he => hon (decide_eq_true he)
      omega
    rw [h, hzero, resetWord_slotStat hk]
    rfl

theorem reg_keepPresent_other (old d : Dev) {a : Nat} (h : ∀ k < 16, a ≠ R.OH_SLOT_STAT k) : (keepPresent old d).reg a = d.reg a :=
  reg_keepSlots_other old d _ fun k hk => h k (List.mem_range.mp hk)

theorem reg_keepPresent_slot (old d : Dev) {k : Nat} (hk : k < 16) (h : d.reg (R.OH_SLOT_STAT k) = resetWord (R.OH_SLOT_STAT k)) :
    (keepPresent old d).reg (R.OH_SLOT_STAT k) =
      fput (resetWord (R.OH_SLOT_STAT k)) F.OH_SLOT_STAT_PRESENT (old.fld (R.OH_SLOT_STAT k) F.OH_SLOT_STAT_PRESENT) :=
  (reg_keepSlots_mem old d _ List.nodup_range (List.mem_range.mpr hk)).trans (reg_keepSlot_same old d hk h)

/-! The two resets. -/

/-- The device at the start of a reset, which the pins LM_PRESENT and the registers kept are put on. -/
def blank (d : Dev) (p : Power) : Dev := { mgmt := storage d.mgmt, time := { refPresent := d.time.refPresent }, out := d.out, free := d.free, power := p }

theorem wiped_blank (d : Dev) {p : Power} (hp : p.resetLow = true) : Wiped d.mgmt (d.blank p) :=
  ⟨rfl, rfl, rfl, rfl, rfl, rfl, rfl, rfl, rfl, rfl, hp, rfl⟩

theorem reg_blank (d : Dev) (p : Power) (a : Nat) : (d.blank p).reg a = resetWord a := rfl

theorem Wiped.keepPresent {m : Mgmt} {e : Dev} (h : Wiped m e) (old : Dev) : Wiped m (keepPresent old e) := by
  rw [keepPresent_eq]
  refine List.foldlRecOn _ _ h fun e he k _ => ?_
  unfold keepSlot
  split
  · exact he.setFld ..
  · exact he

theorem Wiped.lmDrop {m : Mgmt} {e : Dev} (h : Wiped m e) (old : Dev) : Wiped m (lmDrop old e) := by
  refine List.foldlRecOn _ _ h fun e he k _ => ?_
  split
  · exact he.emit _
  · exact he

theorem csr_lmDrop (old d : Dev) : (lmDrop old d).csr = d.csr := by
  refine List.foldlRecOn (motive := fun e : Dev => e.csr = d.csr) _ _ rfl fun e he k _ => ?_
  split
  · exact he
  · exact he

theorem reg_lmDrop (old d : Dev) (a : Nat) : (lmDrop old d).reg a = d.reg a := congrArg (Csr.word · a) (csr_lmDrop old d)

/-- A wiped device is still so when the pins of the old one are put on it. -/
theorem Wiped.pins {m : Mgmt} {e : Dev} (h : Wiped m e) (old : Dev) : Wiped m (Dev.lmDrop old (Dev.keepPresent old e)) :=
  (h.keepPresent old).lmDrop old

/-- A wiped device whose power register is at reset does nothing at the end of the step. -/
theorem Wiped.settle {m : Mgmt} {e : Dev} (h : Wiped m e) (hreg : e.reg R.PW_STAT = resetWord R.PW_STAT) (u : Fuses) : e.settle u = e := by
  have hpw : e.pwState = 2 := by
    rw [pwState, fld, hreg]
    decide +kernel
  exact (quietDeviceUpdatesFlowControlOnly e u (h.quiet hpw)).1 (powered_umber hpw)

/-- A device cleared by a reset, but for the registers in a list: what the resets leave of the device before, `d` (R573, R574, R577). -/
def Clean (d : Dev) (kept : List Nat) (e : Dev) : Prop :=
  e.inReset = true ∧ e.mgmt.slots = d.mgmt.slots ∧ e.mgmt.slotBad = d.mgmt.slotBad ∧ e.mgmt.sel = d.mgmt.sel ∧ e.csr.ctrs = [] ∧ e.core = {} ∧ e.tab = {} ∧ e.ce = {} ∧
    e.vat = {} ∧ e.link = {} ∧ e.faults = {} ∧ e.ddr = {} ∧ e.mgmt.sess = List.replicate 8 {} ∧
    (∀ a, a ∉ kept → (∀ k < 16, a ≠ R.OH_SLOT_STAT k) → e.reg a = resetWord a) ∧
    (∀ k < 16, e.reg (R.OH_SLOT_STAT k) =
      fput (resetWord (R.OH_SLOT_STAT k)) F.OH_SLOT_STAT_PRESENT (d.fld (R.OH_SLOT_STAT k) F.OH_SLOT_STAT_PRESENT))

/-- A wiped device with the pins of the old one put on it is clean. -/
theorem Wiped.clean {d n : Dev} (h : Wiped d.mgmt n) {kept : List Nat} (hkept : ∀ k < 16, R.OH_SLOT_STAT k ∉ kept)
    (hreg : ∀ a, a ∉ kept → n.reg a = resetWord a) : Clean d kept (Dev.lmDrop d (Dev.keepPresent d n)) := by
  have hw := h.pins d
  refine ⟨hw.inReset, (congrArg Mgmt.slots hw.mgmt).trans rfl, (congrArg Mgmt.slotBad hw.mgmt).trans rfl, (congrArg Mgmt.sel hw.mgmt).trans rfl, hw.ctrs, hw.core, hw.tab, hw.ce,
    hw.vat, hw.link, hw.faults, hw.ddr, congrArg Mgmt.sess hw.mgmt, fun a ha hslot => ?_, fun k hk => ?_⟩
  · rw [reg_lmDrop, reg_keepPresent_other _ _ hslot, hreg a ha]
  · rw [reg_lmDrop, reg_keepPresent_slot _ _ hk (hreg _ (hkept k hk))]

/-- Registers other than PRESENT's are not changed by the pins. -/
theorem reg_pins (old d : Dev) {a : Nat} (h : ∀ k < 16, a ≠ R.OH_SLOT_STAT k) : (lmDrop old (keepPresent old d)).reg a = d.reg a := by
  rw [reg_lmDrop, reg_keepPresent_other _ _ h]

theorem ne_ohSlotStat {a : Nat} (h : a < R.OH_SLOT_STAT 0 ∨ R.OH_SLOT_STAT 16 ≤ a) : ∀ k < 16, a ≠ R.OH_SLOT_STAT k := by
  intro k hk
  unfold R.OH_SLOT_STAT at *
  omega

theorem srStat_ne_slot : ∀ k < 16, R.SR_STAT ≠ R.OH_SLOT_STAT k := ne_ohSlotStat (by decide)

theorem sbStat_ne_slot : ∀ k < 16, R.SB_STAT ≠ R.OH_SLOT_STAT k := ne_ohSlotStat (by decide)

theorem pwStat_ne_slot : ∀ k < 16, R.PW_STAT ≠ R.OH_SLOT_STAT k := ne_ohSlotStat (by decide)

/-! Power-on reset. -/

theorem powerOnReset_clean (d : Dev) : Clean d [] d.powerOnReset :=
  (d.wiped_blank rfl).clean (fun _ _ => List.not_mem_nil) fun a _ => d.reg_blank _ a

theorem reg_powerOnReset (d : Dev) {a : Nat} (h : ∀ k < 16, a ≠ R.OH_SLOT_STAT k) : d.powerOnReset.reg a = resetWord a :=
  (reg_pins _ _ h).trans (d.reg_blank { resetLow := true } a)

theorem settle_powerOnReset (d : Dev) (u : Fuses) : d.powerOnReset.settle u = d.powerOnReset :=
  ((d.wiped_blank rfl).pins d).settle (d.reg_powerOnReset pwStat_ne_slot) u

/-! Full reset. -/

/-- The registers that a full reset starts with: soft repairs and the cause stand, the rest is at reset. -/
def fullBlank (d : Dev) (p : Power) (cause : Nat) : Dev :=
  ((d.blank p).setReg R.SR_STAT (d.reg R.SR_STAT)).setFld R.SB_STAT F.SB_STAT_BOOT_CAUSE cause

theorem reg_fullBlank (d : Dev) (p : Power) (cause : Nat) {a : Nat} (h : a ∉ [R.SR_STAT, R.SB_STAT]) : (d.fullBlank p cause).reg a = resetWord a := by
  rw [List.mem_cons, List.mem_singleton, not_or] at h
  rw [fullBlank, reg_setFld_other _ _ _ _ _ h.2, reg_setReg_other _ _ _ _ h.1, reg_blank]

theorem srStat_fullBlank (d : Dev) (p : Power) (cause : Nat) : (d.fullBlank p cause).reg R.SR_STAT = d.reg R.SR_STAT := by
  rw [fullBlank, reg_setFld_other _ _ _ _ _ (by decide), reg_setReg_same]

theorem sbStat_fullBlank (d : Dev) (p : Power) (cause : Nat) :
    (d.fullBlank p cause).reg R.SB_STAT = fput (resetWord R.SB_STAT) F.SB_STAT_BOOT_CAUSE cause := by
  rw [fullBlank, reg_setFld_same, reg_setReg_other _ _ _ _ (by decide), reg_blank]

/-- The power state that a full reset leaves. -/
def fullPower (p : Power) : Power := { resetLow := p.resetLow, pwrGood := p.pwrGood, uvHold := p.uvHold, tripped := p.tripped }

theorem fullReset_eq (d : Dev) (cause : Nat) : d.fullReset cause = lmDrop d (keepPresent d (d.fullBlank (fullPower d.power) cause)) := rfl

theorem wiped_fullBlank (d : Dev) (cause : Nat) (h : d.power.resetLow = true) : Wiped d.mgmt (d.fullBlank (fullPower d.power) cause) :=
  ((d.wiped_blank (p := fullPower d.power) h).setReg _ _).setFld _ _ _

theorem fullReset_clean (d : Dev) (cause : Nat) (h : d.power.resetLow = true) : Clean d [R.SR_STAT, R.SB_STAT] (d.fullReset cause) := by
  rw [fullReset_eq]
  refine (d.wiped_fullBlank cause h).clean (fun k hk => ?_) fun a ha => d.reg_fullBlank _ _ ha
  rw [List.mem_cons, List.mem_singleton, not_or]
  exact ⟨(srStat_ne_slot k hk).symm, (sbStat_ne_slot k hk).symm⟩

theorem settle_fullReset (d : Dev) (cause : Nat) (h : d.power.resetLow = true) (u : Fuses) : (d.fullReset cause).settle u = d.fullReset cause := by
  rw [fullReset_eq]
  exact ((d.wiped_fullBlank cause h).pins d).settle ((reg_pins _ _ pwStat_ne_slot).trans (d.reg_fullBlank _ _ (by decide))) u

theorem srStat_fullReset (d : Dev) (cause : Nat) : (d.fullReset cause).reg R.SR_STAT = d.reg R.SR_STAT :=
  (reg_pins _ _ srStat_ne_slot).trans (d.srStat_fullBlank _ _)

theorem sbStat_fullReset (d : Dev) (cause : Nat) : (d.fullReset cause).reg R.SB_STAT = fput (resetWord R.SB_STAT) F.SB_STAT_BOOT_CAUSE cause :=
  (reg_pins _ _ sbStat_ne_slot).trans (d.sbStat_fullBlank _ _)

/-! RESET_N or PWRGOOD goes low. -/

/-- THERMTRIP_N is released where PWRGOOD ends a thermal trip. -/
def tripEnd (d : Dev) (pwrgood : Bool) : Dev :=
  if pwrgood ∧ d.power.pwrGood ∧ d.power.tripped then d.emit (.pin "THERMTRIP_N" 0 true d.lc) else d

/-- The device that RESET_N or PWRGOOD going low puts in full reset. -/
def assertFrom (d : Dev) (pwrgood : Bool) : Dev :=
  { d with power := { d.power with resetLow := true, refHold := false, pwrGood := d.power.pwrGood && !pwrgood, uvHold := d.power.uvHold && !pwrgood } }

/-- The cause that a full reset by RESET_N or PWRGOOD leaves in BOOT_CAUSE. -/
def assertCause (d : Dev) : Nat :=
  if d.power.uvHold then 3 else if d.power.resetLow || d.power.tripped then d.fld R.SB_STAT F.SB_STAT_BOOT_CAUSE else 2

theorem resetAssert_eq (d : Dev) (pwrgood : Bool) : d.resetAssert pwrgood = ((d.tripEnd pwrgood).assertFrom pwrgood).fullReset d.assertCause := by
  have hcause : d.assertCause = if d.power.uvHold then 3 else if d.power.resetLow ∨ d.power.tripped then d.fld R.SB_STAT F.SB_STAT_BOOT_CAUSE else 2 := by
    simp only [assertCause, Bool.or_eq_true]
  rw [hcause]
  unfold resetAssert tripEnd
  split
  · rfl
  · rfl

theorem reg_assertFrom (d : Dev) (pwrgood : Bool) (a : Nat) : (d.assertFrom pwrgood).reg a = d.reg a := rfl

theorem reg_tripEnd (d : Dev) (pwrgood : Bool) (a : Nat) : (d.tripEnd pwrgood).reg a = d.reg a := by
  unfold tripEnd
  split
  · rfl
  · rfl

theorem mgmt_tripEnd (d : Dev) (pwrgood : Bool) : (d.tripEnd pwrgood).mgmt = d.mgmt := by
  unfold tripEnd
  split
  · rfl
  · rfl

theorem reg_assertStart (d : Dev) (pwrgood : Bool) (a : Nat) : ((d.tripEnd pwrgood).assertFrom pwrgood).reg a = d.reg a := by
  rw [reg_assertFrom, reg_tripEnd]

/-- Being clean speaks of the device before by its boot storage and PRESENT alone. -/
theorem Clean.of_same {d e t : Dev} {kept : List Nat} (h : Clean d kept t) (hm : d.mgmt = e.mgmt) (hreg : ∀ a, d.reg a = e.reg a) : Clean e kept t := by
  obtain ⟨hreset, hslots, hbad, hsel, hctrs, hcore, htab, hce, hvat, hlink, hfaults, hddr, hsess, hrest, hpresent⟩ := h
  rw [hm] at hslots hbad hsel
  exact ⟨hreset, hslots, hbad, hsel, hctrs, hcore, htab, hce, hvat, hlink, hfaults, hddr, hsess, hrest,
    fun k hk => by rw [hpresent k hk, fld_of_reg (hreg _)]⟩

theorem resetAssert_clean (d : Dev) (pwrgood : Bool) : Clean d [R.SR_STAT, R.SB_STAT] (d.resetAssert pwrgood) := by
  rw [resetAssert_eq]
  exact (fullReset_clean _ _ rfl).of_same (mgmt_tripEnd d pwrgood) (d.reg_assertStart pwrgood)

theorem settle_resetAssert (d : Dev) (pwrgood : Bool) (u : Fuses) : (d.resetAssert pwrgood).settle u = d.resetAssert pwrgood := by
  rw [resetAssert_eq]
  exact settle_fullReset _ _ rfl u

theorem srStat_resetAssert (d : Dev) (pwrgood : Bool) : (d.resetAssert pwrgood).reg R.SR_STAT = d.reg R.SR_STAT := by
  rw [resetAssert_eq, srStat_fullReset, reg_assertStart]

theorem sbStat_resetAssert (d : Dev) (pwrgood : Bool) :
    (d.resetAssert pwrgood).reg R.SB_STAT = fput (resetWord R.SB_STAT) F.SB_STAT_BOOT_CAUSE d.assertCause := by
  rw [resetAssert_eq, sbStat_fullReset]

end Dev
end Sys2Proof.Machine

open Sys2Proof Sys2Proof.Machine

/-- Settles O49: both resets leave a wiped device in Umber, which the end of the step leaves as it is. -/
theorem resetsClearTheDevice : Obligations.ResetsClearTheDevice := by
  intro s now h d
  refine ⟨⟨_, always_next now s (fun d _ => d.powerOnReset) h, ?power⟩, fun pg => ⟨_, always_next now s (fun d _ => d.resetAssert pg) h, ?full⟩⟩
  case power =>
    rw [State.after, d.settle_powerOnReset]
    refine ⟨⟨rfl, d.powerOnReset_clean⟩, ?_⟩
    dsimp only
    rw [Dev.fld, d.reg_powerOnReset Dev.sbStat_ne_slot]
    decide +kernel
  case full =>
    rw [State.after, d.settle_resetAssert]
    exact ⟨⟨rfl, d.resetAssert_clean pg⟩, d.srStat_resetAssert pg, d.sbStat_resetAssert pg⟩

end

section
/-! PROOFS. Performance monitor sets that a boundary clears (spec/18_telemetry.md R600, R605). -/
namespace Sys2Proof.Machine
namespace Dev

/-! A write of CLEAR. -/

/-- What the decoder says of PM_CTRL: CLEAR is its one field, and it is none of the registers that a write treats apart. -/
theorem pmCtrl_decoded : ∀ u ∈ pmUnits, fieldsAt u.base = [⟨0, 0, .wo, 0⟩] ∧ mrdAt u.base = none ∧ gclAt u.base = none ∧
    u.base % 0x1000000 = 0xF00000 ∧ pmUnits.any (fun p => p.base = u.base) = true := by decide +kernel

/-- Whether a performance monitor set waits for its CLEAR. -/
def pmClearAsked (d : Dev) (a : Nat) : Dev :=
  if d.tel.pmClear.contains a then d else { d with tel := { d.tel with pmClear := d.tel.pmClear ++ [a] } }

theorem actOn_pmCtrl (d : Dev) (u : Fuses) {a : Nat} (w : Nat) (hoff : a % 0x1000000 = 0xF00000) (hunit : pmUnits.any (fun p => p.base = a) = true) :
    d.actOn u a 1 w = d.pmClearAsked a := by
  have hword {b : Nat} (hb : b % 0x1000000 ≠ 0xF00000) : a ≠ b := fun he => hb (he ▸ hoff)
  unfold actOn
  simp only [hoff]
  rw [if_neg (by omega), if_neg (by omega), if_neg (hword (by decide)), if_neg (hword (by decide)), if_neg (hword (by decide)), if_neg (hword (by decide)),
    if_neg (hword (by decide)), if_neg (hword (by decide)), if_neg (hword (by decide)), if_pos ⟨trivial, hunit⟩]
  unfold pmClearAsked
  cases hasked : d.tel.pmClear.contains a
  · rw [if_pos ⟨by decide, by decide⟩]
    rfl
  · rw [if_neg fun h => h.2 rfl]
    rfl

theorem csrWrite_pmCtrl (d : Dev) (u : Fuses) {p : PmUnit} (hp : p ∈ pmUnits) : d.csrWrite u p.base 1 1 = d.pmClearAsked p.base := by
  obtain ⟨hfields, hmrd, hgcl, hoff, hunit⟩ := pmCtrl_decoded p hp
  have htpo : ¬(R.TPO_CTRL 0 ≤ p.base ∧ p.base < R.TPO_CTRL 4 ∧ (p.base - R.TPO_CTRL 0) % 0x20 = 0) := by
    simp only [R.TPO_CTRL]
    omega
  have hw1c : typeMask p.base (fun t => t = .w1c) = 0 := typeMask_of_fieldsAt hfields _
  have hrwb : typeMask p.base (fun t => t = .rwb) = 0 := typeMask_of_fieldsAt hfields _
  have hrw : typeMask p.base (fun t => t = .rw || t = .rws) = 0 := typeMask_of_fieldsAt hfields _
  unfold csrWrite
  dsimp only
  rw [w1c_none _ _ _ hw1c, rwbPend_none _ _ _ _ hrwb, hmrd, hgcl, hrw]
  dsimp only
  rw [if_neg htpo]
  exact d.actOn_pmCtrl u _ hoff hunit

/-! The boundary: snapshot, then clear. -/

/-- The counters of a performance monitor set: PM_CYCLES and the eight counters. -/
def pmCtrs (base : Nat) : List Nat := [base + 8] ++ (List.range 8).map fun n => base + 0x40 + 8 * n

/-- Counters set to zero. -/
def clearCtrs (d : Dev) (l : List Nat) : Dev := l.foldl clearCtr d

theorem ctr_clearCtr_zero {d : Dev} {a b : Nat} (h : d.ctr b = 0) : (d.clearCtr a).ctr b = 0 := by
  by_cases hb : b = a
  · subst hb
    exact ctr_clearCtr_same ..
  · rw [ctr_clearCtr_other _ _ _ hb, h]

theorem ctr_clearCtrs_zero {d : Dev} (l : List Nat) {b : Nat} (h : d.ctr b = 0) : (d.clearCtrs l).ctr b = 0 :=
  List.foldlRecOn (motive := fun e : Dev => e.ctr b = 0) l clearCtr h fun _ he _ _ => ctr_clearCtr_zero he

theorem ctr_clearCtrs_mem (d : Dev) {l : List Nat} {b : Nat} (h : b ∈ l) : (d.clearCtrs l).ctr b = 0 := by
  induction l generalizing d with
  | nil => exact absurd h List.not_mem_nil
  | cons a l ih =>
    obtain rfl | h := List.mem_cons.mp h
    · exact ctr_clearCtrs_zero l (ctr_clearCtr_same ..)
    · exact ih (d.clearCtr a) h

/-- The counters that the sets of a list clear. -/
theorem pmClears_eq (d : Dev) :
    d.pmClears = { (d.clearCtrs (d.tel.pmClear.flatMap pmCtrs)) with tel := { (d.clearCtrs (d.tel.pmClear.flatMap pmCtrs)).tel with pmClear := [] } } := by
  rw [clearCtrs, List.foldl_flatMap]
  rfl

theorem ctr_pmClears (d : Dev) {base a : Nat} (hbase : base ∈ d.tel.pmClear) (ha : a ∈ pmCtrs base) : d.pmClears.ctr a = 0 := by
  rw [pmClears_eq]
  exact ctr_clearCtrs_mem d (List.mem_flatMap.mpr ⟨base, hbase, ha⟩)

/-- Clearing counters changes the counters and nothing else. -/
theorem clearCtrs_ctrs (d : Dev) (l : List Nat) : ∃ m, d.clearCtrs l = { d with csr := { d.csr with ctrs := m } } := by
  refine List.foldlRecOn (motive := fun e : Dev => ∃ m, e = { d with csr := { d.csr with ctrs := m } }) l clearCtr ⟨d.csr.ctrs, rfl⟩ fun e he a _ => ?_
  obtain ⟨m, rfl⟩ := he
  exact ⟨Sparse.del m a, rfl⟩

theorem snap_pmClears (d : Dev) : d.pmClears.csr.snap = d.csr.snap := by
  rw [pmClears_eq]
  obtain ⟨m, hm⟩ := d.clearCtrs_ctrs (d.tel.pmClear.flatMap pmCtrs)
  rw [hm]

theorem powered_pmClears (d : Dev) : d.pmClears.powered = d.powered := by
  rw [pmClears_eq]
  obtain ⟨m, hm⟩ := d.clearCtrs_ctrs (d.tel.pmClear.flatMap pmCtrs)
  rw [hm]
  rfl

theorem snapshot_awake (d : Dev) (h : d.pwState ≠ 2) : d.snapshot = { d with csr := { d.csr with snap := d.csr.ctrs } } := if_pos h

theorem beatSample_eq (d : Dev) (h : d.pwState ≠ 2) :
    d.beatSample = if d.snapshot.pmClears.powered then d.snapshot.pmClears.sampleAll.reportsBuild.ringQueues else d.snapshot.pmClears := by
  have hpowered : d.snapshot.pmClears.powered = d.powered := by
    rw [powered_pmClears, d.snapshot_awake h]
    rfl
  rw [hpowered]
  rfl

end Dev
end Sys2Proof.Machine

open Sys2Proof Sys2Proof.Machine

/-- Settles O50: the write of CLEAR, and the counters after the snapshot of a boundary. -/
theorem clearedMonitorsKeepTheirSnapshot : Obligations.ClearedMonitorsKeepTheirSnapshot := by
  refine ⟨fun s now u r m hu awake => ?write, fun d u awake hu hbase => ⟨d.snapshot.pmClears, ?snap, ?cycles, fun n hn => ?counters, d.beatSample_eq awake⟩⟩
  case write =>
    have hunit : u ∈ Dev.pmUnits := List.contains_iff_mem.mp hu
    have hreach : s.dev.reaches u.base = true := by
      rw [Dev.reaches, decide_eq_true awake, Bool.true_or]
    refine (need_eq hu (need_eq hreach (timed_next now s (fun d f => d.csrWrite f u.base 1 1) r m))).trans ?_
    rw [Dev.csrWrite_pmCtrl _ _ hunit]
    rfl
  case snap => rw [Dev.snap_pmClears, d.snapshot_awake awake]
  case cycles =>
    rw [d.snapshot_awake awake]
    exact Dev.ctr_pmClears _ hbase (.head _)
  case counters =>
    rw [d.snapshot_awake awake]
    exact Dev.ctr_pmClears _ hbase (.tail _ (List.mem_map.mpr ⟨n, List.mem_range.mpr hn, rfl⟩))

end

section
/-! PROOFS. What an occurrence does to the error record queue (spec/15_faults_sparing.md R506 to R510). -/
namespace Sys2Proof.Machine

theorem bit_of_bits {m n k : Nat} (h : bits m k k = bits n k k) : bit m k = bit n k := by
  unfold bits at h
  rw [Nat.add_sub_cancel_left, pow_one] at h
  unfold bit
  rw [h]

namespace Dev

/-! Addresses of the queue. -/

theorem erRec_lt {n k : Nat} (hn : n < 64) (hk : k < 16) : 0x09001000 ≤ R.ER_REC n k ∧ R.ER_REC n k < 0x09002000 := by
  unfold R.ER_REC
  omega

theorem erRec_inj {n m k j : Nat} (hk : k < 16) (hj : j < 16) : R.ER_REC n k = R.ER_REC m j ↔ n = m ∧ k = j := by
  unfold R.ER_REC
  omega

theorem erRec_ne_of_slot {n m k j : Nat} (hk : k < 16) (hj : j < 16) (h : m ≠ n) : R.ER_REC m k ≠ R.ER_REC n j :=
  fun he => h ((erRec_inj hk hj).mp he).1

theorem erRec_ne_of_word {n m k j : Nat} (hk : k < 16) (hj : j < 16) (h : k ≠ j) : R.ER_REC m k ≠ R.ER_REC n j :=
  fun he => h ((erRec_inj hk hj).mp he).2

theorem erNext_ne_erRec {n k : Nat} : R.ER_NEXT ≠ R.ER_REC n k := by
  unfold R.ER_NEXT R.ER_REC
  omega

theorem erw_lt (d : Dev) (n k : Nat) : d.erw n k < 2 ^ 32 := d.reg_lt _

theorem erw_setNum (d : Dev) (n k : Nat) {v : Nat} (h : v < 2 ^ 32) : (d.setNum (R.ER_REC n k) v).erw n k = v := toNat_reg_setNum h

theorem erw_of_reg {d e : Dev} {n k : Nat} (h : e.reg (R.ER_REC n k) = d.reg (R.ER_REC n k)) : e.erw n k = d.erw n k := congrArg BitVec.toNat h

/-! The parts of an occurrence leave every word alone but those they name. -/

theorem reg_recEvent (d : Dev) (n a : Nat) : (d.recEvent n).reg a = d.reg a := reg_event ..

theorem reg_flightTrigger (d : Dev) (sev a : Nat) : (d.flightTrigger sev).reg a = d.reg a := by
  unfold flightTrigger
  split
  · rfl
  · rfl

theorem reg_pushTodo (d : Dev) (x : Action) (a : Nat) : (d.pushTodo x).reg a = d.reg a := rfl

theorem reg_raiseSev (d : Dev) (n sev : Nat) {a : Nat} (h : a ≠ R.ER_REC n 1) : (d.raiseSev n sev).reg a = d.reg a := by
  unfold raiseSev
  split
  · rw [reg_flightTrigger, reg_recEvent, reg_setNum_other _ _ _ _ h]
  · rfl

/-- Raising a severity changes bits 31 to 28 of word 1 alone. -/
theorem bits_raiseSev (d : Dev) (n sev : Nat) {h l : Nat} (hb : h < 28) : bits ((d.raiseSev n sev).erw n 1) h l = bits (d.erw n 1) h l := by
  unfold raiseSev
  split
  · rw [erw_of_reg ((reg_flightTrigger _ _ _).trans (reg_recEvent _ _ _)),
      erw_setNum _ _ _ (putBits_lt _ 31 28 sev 32 (d.erw_lt n 1) (by decide) (by decide)), bits_putBits_below _ _ _ _ _ _ hb]
  · rfl

theorem reg_escalate (d : Dev) (n : Nat) {a : Nat} (h : a ≠ R.ER_REC n 1) : (d.escalate n).reg a = d.reg a := by
  unfold escalate
  dsimp only
  split
  · rfl
  · split
    · split
      · rw [reg_pushTodo, reg_raiseSev _ _ _ h, reg_setNum_other _ _ _ _ h]
      · rw [reg_raiseSev _ _ _ h, reg_setNum_other _ _ _ _ h]
    · rfl

/-- The escalation flag is bit 21 of word 1; what lies between it and the severity stands. -/
theorem bits_escalate (d : Dev) (n : Nat) {h l : Nat} (hb : h < 28) (hl : 21 < l) : bits ((d.escalate n).erw n 1) h l = bits (d.erw n 1) h l := by
  have hflag (sev : Nat) : bits (((d.setNum (R.ER_REC n 1) (putBits (d.erw n 1) 21 21 1)).raiseSev n sev).erw n 1) h l = bits (d.erw n 1) h l := by
    rw [bits_raiseSev _ _ _ hb, erw_setNum _ _ _ (putBits_lt _ 21 21 1 32 (d.erw_lt n 1) (by decide) (by decide)),
      bits_putBits_above _ _ _ _ _ _ hl le_rfl]
  unfold escalate
  dsimp only
  split
  · rfl
  · split
    · split
      · rw [erw_of_reg (reg_pushTodo _ _ _)]
        exact hflag _
      · exact hflag _
    · rfl

/-- An occurrence's element, where it has one, is a score register. -/
theorem isScore_of_healthOf {blk inst a k : Nat} {vat : Bool} (h1 : blk = 1 → inst < 1024) (h2 : blk = 2 → inst < 4608) (h9 : blk = 9 → inst < 1600)
    (h : healthOf blk inst = some (a, vat, k)) : IsScore a := by
  unfold healthOf at h
  split at h
  · next hb =>
    cases h
    have hinst := h1 hb
    exact isScore_port (by omega)
  · split at h
    · next hb =>
      cases h
      have hinst := h2 hb
      exact isScore_port (by omega)
    · split at h
      · next hb =>
        cases h
        exact isScore_vat (h9 hb)
      · cases h

/-! The end of an occurrence: the health score, and containment. -/

/-- What an occurrence does after its record has been made or folded. -/
def occurEnd (d : Dev) (blk inst w0 sev slot : Nat) : Dev :=
  let d := d.health blk inst (if slot < 64 then bits (d.erw slot 1) 31 28 else sev) (d.recRef slot)
  if sev = 5 then d.pushTodo (.deviceFatal w0) else d

theorem reg_health (d : Dev) (blk inst sev ref : Nat) {a : Nat} (h : ∀ x, healthOf blk inst = some x → a ≠ x.1) :
    (d.health blk inst sev ref).reg a = d.reg a := by
  unfold health
  split
  · rfl
  · next b vat k hx =>
    dsimp only
    split
    · rw [reg_pushTodo, reg_setFld_other _ _ _ _ _ (h _ hx)]
    · rw [reg_setFld_other _ _ _ _ _ (h _ hx)]

theorem ctr_health (d : Dev) (blk inst sev ref a : Nat) : (d.health blk inst sev ref).ctr a = d.ctr a := by
  unfold health
  split
  · rfl
  · dsimp only
    split
    · rfl
    · rfl

theorem reg_occurEnd (d : Dev) (blk inst w0 sev slot : Nat) {a : Nat} (h : ∀ x, healthOf blk inst = some x → a ≠ x.1) :
    (d.occurEnd blk inst w0 sev slot).reg a = d.reg a := by
  unfold occurEnd
  dsimp only
  split
  · rw [reg_pushTodo, reg_health _ _ _ _ _ h]
  · rw [reg_health _ _ _ _ _ h]

theorem ctr_occurEnd (d : Dev) (blk inst w0 sev slot a : Nat) : (d.occurEnd blk inst w0 sev slot).ctr a = d.ctr a := by
  unfold occurEnd
  dsimp only
  split
  · exact ctr_health ..
  · exact ctr_health ..

/-! The three forms of an occurrence. -/

theorem error_fold (d : Dev) {blk inst cause sev n : Nat} {det : List Nat} {part : Option Nat} (h : d.recOf (recW0 blk inst cause) = some n) :
    d.error blk inst cause sev det part =
      (((d.recFold n).raiseSev n (if sev = 5 then 5 else 0)).escalate n).occurEnd blk inst (recW0 blk inst cause) sev n := by
  unfold error occur
  dsimp only
  rw [h]
  rfl

theorem error_new (d : Dev) {blk inst cause sev n : Nat} {det : List Nat} {part : Option Nat} (h : d.recOf (recW0 blk inst cause) = none)
    (hslot : d.recSlot = some n) :
    d.error blk inst cause sev det part =
      ((d.recNew n (recW0 blk inst cause) sev det part).escalate n).occurEnd blk inst (recW0 blk inst cause) sev n := by
  unfold error occur
  dsimp only
  rw [h, hslot]
  rfl

theorem error_full (d : Dev) {blk inst cause sev : Nat} {det : List Nat} {part : Option Nat} (h : d.recOf (recW0 blk inst cause) = none)
    (hslot : d.recSlot = none) :
    d.error blk inst cause sev det part =
      ((d.setFld R.ER_STAT F.ER_STAT_OVF 1).inc R.ER_LOST).occurEnd blk inst (recW0 blk inst cause) sev 64 := by
  unfold error occur
  dsimp only
  rw [h, hslot]
  rfl

/-! A folded record (R507). -/

theorem reg_recFold (d : Dev) (n : Nat) {a : Nat} (h2 : a ≠ R.ER_REC n 2) (h6 : a ≠ R.ER_REC n 6) (h7 : a ≠ R.ER_REC n 7) :
    (d.recFold n).reg a = d.reg a := by
  unfold recFold
  dsimp only
  rw [reg_setNum_other _ _ _ _ h7, reg_setNum_other _ _ _ _ h6, reg_setNum_other _ _ _ _ h2]

theorem erw_recFold_recur (d : Dev) (n : Nat) : (d.recFold n).erw n 2 = min (d.erw n 2 + 1) (2 ^ 32 - 1) := by
  have hlt : min (d.erw n 2 + 1) (2 ^ 32 - 1) < 2 ^ 32 := by omega
  unfold recFold
  dsimp only
  rw [erw_of_reg (reg_setNum_other _ _ _ _ (erRec_ne_of_word (by decide) (by decide) (by decide))),
    erw_of_reg (reg_setNum_other _ _ _ _ (erRec_ne_of_word (by decide) (by decide) (by decide))), erw_setNum _ _ _ hlt]

theorem erw_recFold_hi (d : Dev) (n : Nat) : (d.recFold n).erw n 6 = d.fabNs / 2 ^ 32 % 2 ^ 32 := by
  unfold recFold
  dsimp only
  rw [erw_of_reg (reg_setNum_other _ _ _ _ (erRec_ne_of_word (by decide) (by decide) (by decide))), erw_setNum _ _ _ (Nat.mod_lt _ (Nat.two_pow_pos 32))]

theorem erw_recFold_lo (d : Dev) (n : Nat) : (d.recFold n).erw n 7 = d.fabNs % 2 ^ 32 := by
  unfold recFold
  dsimp only
  rw [erw_setNum _ _ _ (Nat.mod_lt _ (Nat.two_pow_pos 32))]

/-! A new record (R506, R508). -/

/-- Sixteen words written into a record slot, in order. -/
def putRec (d : Dev) (n : Nat) (w : Nat → Nat) (m : Nat) : Dev := (List.range m).foldl (fun d k => d.setNum (R.ER_REC n k) (w k)) d

theorem putRec_succ (d : Dev) (n : Nat) (w : Nat → Nat) (m : Nat) : d.putRec n w (m + 1) = (d.putRec n w m).setNum (R.ER_REC n m) (w m) := by
  rw [putRec, List.range_succ, List.foldl_append]
  rfl

theorem reg_putRec (d : Dev) (n : Nat) (w : Nat → Nat) {m a : Nat} (h : ∀ k < m, a ≠ R.ER_REC n k) : (d.putRec n w m).reg a = d.reg a := by
  induction m with
  | zero => rfl
  | succ m ih => rw [putRec_succ, reg_setNum_other _ _ _ _ (h m m.lt_succ_self), ih fun k hk => h k (Nat.lt_succ_of_lt hk)]

theorem erw_putRec (d : Dev) (n : Nat) (w : Nat → Nat) {m k : Nat} (hm : m ≤ 16) (hk : k < m) (hw : w k < 2 ^ 32) : (d.putRec n w m).erw n k = w k := by
  induction m with
  | zero => omega
  | succ m ih =>
    rw [putRec_succ]
    by_cases hkm : k = m
    · subst hkm
      exact erw_setNum _ _ _ hw
    · rw [erw_of_reg (reg_setNum_other _ _ _ _ (erRec_ne_of_word (by omega) (by omega) hkm)), ih (by omega) (by omega)]

/-- Word 1 of a new record: severity, first severity, VALID and the partition. -/
def newW1 (sev : Nat) (part : Option Nat) : Nat :=
  sev * 2 ^ 28 + sev * 2 ^ 24 + 2 ^ 23 + (match part with | some p => 2 ^ 12 + p % 4096 | none => 0)

/-- The words of a new record. -/
def newWord (d : Dev) (w0 sev : Nat) (det : List Nat) (part : Option Nat) (k : Nat) : Nat :=
  ([w0, newW1 sev part, 1, (d.reg R.ER_NEXT).toNat, d.fabNs / 2 ^ 32 % 2 ^ 32, d.fabNs % 2 ^ 32, d.fabNs / 2 ^ 32 % 2 ^ 32, d.fabNs % 2 ^ 32, 0]
    ++ (List.range 7).map fun k => det.getD k 0 % 2 ^ 32).getD k 0

theorem newWord_detail (d : Dev) (w0 sev : Nat) (det : List Nat) (part : Option Nat) {k : Nat} (hk : k < 7) :
    d.newWord w0 sev det part (9 + k) = det.getD k 0 % 2 ^ 32 := by
  rw [newWord, List.getD_append_right _ _ _ _ (Nat.le_add_right 9 k)]
  simp [hk]

theorem newW1_lt {sev : Nat} (hsev : sev ≤ 5) (part : Option Nat) : newW1 sev part < 2 ^ 32 := by
  unfold newW1
  split
  · omega
  · omega

theorem newW1_fields {sev : Nat} (hsev : sev ≤ 5) (part : Option Nat) :
    bits (newW1 sev part) 27 24 = sev ∧ bits (newW1 sev part) 23 23 = 1 ∧ bits (newW1 sev part) 22 22 = 0 := by
  unfold newW1 bits
  split
  · omega
  · omega

theorem recNew_eq (d : Dev) (n w0 sev : Nat) (det : List Nat) (part : Option Nat) :
    d.recNew n w0 sev det part =
      (((d.putRec n (d.newWord w0 sev det part) 16).setNum R.ER_NEXT (((d.reg R.ER_NEXT).toNat + 1) % 2 ^ 32)).recEvent n).flightTrigger sev := rfl

theorem reg_recNew (d : Dev) (n w0 sev : Nat) (det : List Nat) (part : Option Nat) (a : Nat) :
    (d.recNew n w0 sev det part).reg a =
      ((d.putRec n (d.newWord w0 sev det part) 16).setNum R.ER_NEXT (((d.reg R.ER_NEXT).toNat + 1) % 2 ^ 32)).reg a := by
  rw [recNew_eq, reg_flightTrigger, reg_recEvent]

theorem erw_recNew_other (d : Dev) (n w0 sev : Nat) (det : List Nat) (part : Option Nat) {m k : Nat} (hk : k < 16) (h : m ≠ n) :
    (d.recNew n w0 sev det part).erw m k = d.erw m k := by
  refine erw_of_reg ?_
  rw [reg_recNew, reg_setNum_other _ _ _ _ erNext_ne_erRec.symm, reg_putRec _ _ _ fun j hj => erRec_ne_of_slot hk hj h]

theorem erw_recNew (d : Dev) (n w0 sev : Nat) (det : List Nat) (part : Option Nat) {k : Nat} (hk : k < 16) (hw : d.newWord w0 sev det part k < 2 ^ 32) :
    (d.recNew n w0 sev det part).erw n k = d.newWord w0 sev det part k := by
  rw [erw_of_reg (reg_recNew d n w0 sev det part _), erw_of_reg (reg_setNum_other _ _ _ _ erNext_ne_erRec.symm), erw_putRec _ _ _ le_rfl hk hw]

theorem next_recNew (d : Dev) (n w0 sev : Nat) (det : List Nat) (part : Option Nat) :
    ((d.recNew n w0 sev det part).reg R.ER_NEXT).toNat = ((d.reg R.ER_NEXT).toNat + 1) % 2 ^ 32 := by
  rw [reg_recNew]
  exact toNat_reg_setNum (Nat.mod_lt _ (Nat.two_pow_pos 32))

/-! The slot of an occurrence. -/

/-- A record that is VALID and not acknowledged. -/
def recOpen (d : Dev) (n : Nat) : Bool := d.recValid n && !d.recAcked n

theorem recOpen_iff {d : Dev} {n : Nat} : d.recOpen n = true ↔ d.recValid n = true ∧ d.recAcked n = false := by
  simp [recOpen]

theorem recOf_first {d : Dev} {w0 n : Nat} (hn : n < 64) (hopen : d.recOpen n = true) (hsrc : d.erw n 0 = w0)
    (hfirst : ∀ m < n, ¬(d.recOpen m = true ∧ d.erw m 0 = w0)) : d.recOf w0 = some n := by
  obtain ⟨hvalid, hacked⟩ := recOpen_iff.mp hopen
  refine List.find?_range_eq_some.mpr ⟨by simp [hsrc, hvalid, hacked], List.mem_range.mpr hn, fun m hm => ?_⟩
  have hnot := hfirst m hm
  rw [recOpen_iff] at hnot
  simp only [Bool.not_eq_true', decide_eq_false_iff_not, Bool.not_eq_true]
  exact fun ⟨hs, hv, ha⟩ => hnot ⟨⟨hv, ha⟩, hs⟩

theorem recOf_none {d : Dev} {w0 : Nat} (h : ∀ m < 64, ¬(d.recOpen m = true ∧ d.erw m 0 = w0)) : d.recOf w0 = none := by
  refine List.find?_eq_none.mpr fun m hm => ?_
  have hnot := h m (List.mem_range.mp hm)
  rw [recOpen_iff] at hnot
  simp only [decide_eq_true_eq, Bool.not_eq_true]
  exact fun ⟨hs, hv, ha⟩ => hnot ⟨⟨hv, ha⟩, hs⟩

theorem recSlot_free {d : Dev} {n : Nat} (hn : n < 64) (hfree : d.recValid n = false) (hfirst : ∀ m < n, d.recValid m = true) : d.recSlot = some n := by
  have hfind : ((List.range 64).find? fun n => ¬ d.recValid n) = some n :=
    List.find?_range_eq_some.mpr ⟨by simp [hfree], List.mem_range.mpr hn, fun m hm => by simp [hfirst m hm]⟩
  rw [recSlot, hfind]

/-- One slot in the search for the acknowledged record with the lowest RSEQ. -/
def ackBest (d : Dev) (best : Option Nat) (n : Nat) : Option Nat :=
  if d.recAcked n then
    match best with
    | none => some n
    | some m => if d.erw n 3 < d.erw m 3 then some n else best
  else best

theorem recSlot_full {d : Dev} (h : ∀ m < 64, d.recValid m = true) : d.recSlot = (List.range 64).foldl d.ackBest none := by
  have hfind : ((List.range 64).find? fun n => ¬ d.recValid n) = none :=
    List.find?_eq_none.mpr fun m hm => by simp [h m (List.mem_range.mp hm)]
  rw [recSlot, hfind]
  rfl

/-- Slot `n` comes before `m` in the choice of the record that gives way: a lower RSEQ, or the same and a lower number. -/
def AckBefore (d : Dev) (n m : Nat) : Prop := d.erw n 3 < d.erw m 3 ∨ (d.erw n 3 = d.erw m 3 ∧ n ≤ m)

/-- What the search has found among the first `m` slots. -/
def AckFound (d : Dev) (m : Nat) : Option Nat → Prop
  | none => ∀ j < m, d.recAcked j = false
  | some b => b < m ∧ d.recAcked b = true ∧ ∀ j < m, d.recAcked j = true → d.AckBefore b j

theorem ackFound_succ {d : Dev} {m : Nat} {best : Option Nat} (h : d.AckFound m best) : d.AckFound (m + 1) (d.ackBest best m) := by
  unfold ackBest
  split
  · next hm =>
    match best, h with
    | none, h => exact ⟨m.lt_succ_self, hm, fun j hj ha => by
        obtain rfl : j = m := by
          have hjm : ¬ j < m := fun hlt => ne_true_of_eq_false (h j hlt) ha
          omega
        exact .inr ⟨rfl, le_rfl⟩⟩
    | some b, ⟨hb, hacked, hbefore⟩ =>
      dsimp only
      split
      · next hlt =>
        refine ⟨m.lt_succ_self, hm, fun j hj ha => ?_⟩
        obtain hjm | rfl := Nat.lt_succ_iff_lt_or_eq.mp hj
        · have hb := hbefore j hjm ha
          unfold AckBefore at hb ⊢
          omega
        · exact .inr ⟨rfl, le_rfl⟩
      · next hge =>
        refine ⟨Nat.lt_succ_of_lt hb, hacked, fun j hj ha => ?_⟩
        obtain hjm | rfl := Nat.lt_succ_iff_lt_or_eq.mp hj
        · exact hbefore j hjm ha
        · unfold AckBefore
          omega
  · next hm =>
    have hclear : d.recAcked m = false := by simpa using hm
    match best, h with
    | none, h => exact fun j hj => (Nat.lt_succ_iff_lt_or_eq.mp hj).elim (h j) fun he => he ▸ hclear
    | some b, ⟨hb, hacked, hbefore⟩ =>
      refine ⟨Nat.lt_succ_of_lt hb, hacked, fun j hj ha => (Nat.lt_succ_iff_lt_or_eq.mp hj).elim (hbefore j · ha) fun he => ?_⟩
      subst he
      exact absurd ha hm

theorem ackFound (d : Dev) (m : Nat) : d.AckFound m ((List.range m).foldl d.ackBest none) := by
  induction m with
  | zero => exact fun j hj => absurd hj (Nat.not_lt_zero j)
  | succ m ih =>
    rw [List.range_succ, List.foldl_append]
    exact ackFound_succ ih

theorem recSlot_acked {d : Dev} {n : Nat} (hn : n < 64) (hvalid : ∀ m < 64, d.recValid m = true) (hacked : d.recAcked n = true)
    (hbefore : ∀ m < 64, d.recAcked m = true → d.AckBefore n m) : d.recSlot = some n := by
  rw [recSlot_full hvalid]
  have hfound := d.ackFound 64
  match hbest : (List.range 64).foldl d.ackBest none, hfound with
  | none, h => exact absurd hacked (ne_true_of_eq_false (h n hn))
  | some b, ⟨hb, hab, hall⟩ =>
    have hnb := hbefore b hb hab
    have hbn := hall n hn hacked
    unfold AckBefore at hnb hbn
    rw [show b = n by omega]

theorem recSlot_none {d : Dev} (h : ∀ m < 64, d.recOpen m = true) : d.recSlot = none := by
  rw [recSlot_full fun m hm => (recOpen_iff.mp (h m hm)).1]
  have hfound := d.ackFound 64
  match hbest : (List.range 64).foldl d.ackBest none, hfound with
  | none, _ => rfl
  | some b, ⟨hb, hab, _⟩ => exact absurd hab (ne_true_of_eq_false (recOpen_iff.mp (h b hb)).2)

/-! Bounds of an occurrence's source, and the words that its end leaves alone. -/

/-- The bounds of the statement on the element of an occurrence. -/
def InBounds (blk inst : Nat) : Prop := (blk = 1 → inst < 1024) ∧ (blk = 2 → inst < 4608) ∧ (blk = 9 → inst < 1600)

theorem reg_occurEnd_below {blk inst : Nat} (hin : InBounds blk inst) (d : Dev) (w0 sev slot : Nat) {a : Nat} (ha : a < 0x09002000) :
    (d.occurEnd blk inst w0 sev slot).reg a = d.reg a := by
  refine d.reg_occurEnd blk inst w0 sev slot fun x hx he => ?_
  have hbounds := (isScore_of_healthOf (vat := x.2.1) (k := x.2.2) hin.1 hin.2.1 hin.2.2 hx).bounds
  omega

theorem erw_occurEnd {blk inst : Nat} (hin : InBounds blk inst) (d : Dev) (w0 sev slot : Nat) {m k : Nat} (hm : m < 64) (hk : k < 16) :
    (d.occurEnd blk inst w0 sev slot).erw m k = d.erw m k :=
  erw_of_reg (reg_occurEnd_below hin d w0 sev slot (erRec_lt hm hk).2)

theorem recW0_lt {blk inst cause : Nat} (hblk : blk < 256) (hcause : cause < 256) : recW0 blk inst cause < 2 ^ 32 := by
  unfold recW0
  omega

theorem erw_escalate (d : Dev) (n : Nat) {m k : Nat} (hk : k < 16) (h : m ≠ n ∨ k ≠ 1) : (d.escalate n).erw m k = d.erw m k :=
  erw_of_reg (d.reg_escalate n (h.elim (erRec_ne_of_slot hk (by decide)) (erRec_ne_of_word hk (by decide))))

theorem erw_raiseSev (d : Dev) (n sev : Nat) {m k : Nat} (hk : k < 16) (h : m ≠ n ∨ k ≠ 1) : (d.raiseSev n sev).erw m k = d.erw m k :=
  erw_of_reg (d.reg_raiseSev n sev (h.elim (erRec_ne_of_slot hk (by decide)) (erRec_ne_of_word hk (by decide))))

theorem erw_recFold (d : Dev) (n : Nat) {m k : Nat} (hk : k < 16) (h : m ≠ n ∨ (k ≠ 2 ∧ k ≠ 6 ∧ k ≠ 7)) : (d.recFold n).erw m k = d.erw m k := by
  have hne {j : Nat} (hj : j < 16) (hkj : m ≠ n ∨ k ≠ j) : R.ER_REC m k ≠ R.ER_REC n j := hkj.elim (erRec_ne_of_slot hk hj) (erRec_ne_of_word hk hj)
  exact erw_of_reg (d.reg_recFold n (hne (by decide) (by omega)) (hne (by decide) (by omega)) (hne (by decide) (by omega)))

/-! An occurrence that is folded. -/

section
variable {d : Dev} {blk inst cause sev n : Nat} (det : List Nat) (part : Option Nat) (hin : InBounds blk inst)
  (hof : d.recOf (recW0 blk inst cause) = some n)
include hin hof

theorem erw_folded {m k : Nat} (hm : m < 64) (hk : k < 16) (h : m ≠ n ∨ k ≠ 1) :
    (d.error blk inst cause sev det part).erw m k = (d.recFold n).erw m k := by
  rw [error_fold _ hof, erw_occurEnd hin _ _ _ _ hm hk, erw_escalate _ _ hk h, erw_raiseSev _ _ _ hk h]

/-- Between the severity and the flag of escalation word 1 stands. -/
theorem bit_folded (hn : n < 64) {k : Nat} (hlo : 21 < k) (hhi : k < 28) : bit ((d.error blk inst cause sev det part).erw n 1) k = bit (d.erw n 1) k := by
  refine bit_of_bits ?_
  rw [error_fold _ hof, erw_occurEnd hin _ _ _ _ hn (by decide), bits_escalate _ _ hhi hlo, bits_raiseSev _ _ _ hhi,
    erw_recFold _ _ (by decide) (.inr (by decide))]

theorem next_folded : (d.error blk inst cause sev det part).reg R.ER_NEXT = d.reg R.ER_NEXT := by
  rw [error_fold _ hof, reg_occurEnd_below hin _ _ _ _ (by decide), reg_escalate _ _ erNext_ne_erRec, reg_raiseSev _ _ _ erNext_ne_erRec,
    reg_recFold _ _ erNext_ne_erRec erNext_ne_erRec erNext_ne_erRec]

end

/-! An occurrence that makes a record. -/

section
variable {d : Dev} {blk inst cause sev n : Nat} (det : List Nat) (part : Option Nat) (hin : InBounds blk inst)
  (hof : d.recOf (recW0 blk inst cause) = none) (hslot : d.recSlot = some n)
include hin hof hslot

theorem erw_made_other {m k : Nat} (hm : m < 64) (hk : k < 16) (h : m ≠ n) : (d.error blk inst cause sev det part).erw m k = d.erw m k := by
  rw [error_new _ hof hslot, erw_occurEnd hin _ _ _ _ hm hk, erw_escalate _ _ hk (.inl h), erw_recNew_other _ _ _ _ _ _ hk h]

theorem erw_made (hn : n < 64) {k : Nat} (hk : k < 16) (h1 : k ≠ 1) (hw : d.newWord (recW0 blk inst cause) sev det part k < 2 ^ 32) :
    (d.error blk inst cause sev det part).erw n k = d.newWord (recW0 blk inst cause) sev det part k := by
  rw [error_new _ hof hslot, erw_occurEnd hin _ _ _ _ hn hk, erw_escalate _ _ hk (.inr h1), erw_recNew _ _ _ _ _ _ hk hw]

theorem bits_made (hn : n < 64) (hsev : sev ≤ 5) {h l : Nat} (hlo : 21 < l) (hhi : h < 28) :
    bits ((d.error blk inst cause sev det part).erw n 1) h l = bits (newW1 sev part) h l := by
  have hone : d.newWord (recW0 blk inst cause) sev det part 1 = newW1 sev part := rfl
  rw [error_new _ hof hslot, erw_occurEnd hin _ _ _ _ hn (by decide), bits_escalate _ _ hhi hlo, erw_recNew _ _ _ _ _ _ (by decide) (hone.symm ▸ newW1_lt hsev part), hone]

theorem next_made : ((d.error blk inst cause sev det part).reg R.ER_NEXT).toNat = ((d.reg R.ER_NEXT).toNat + 1) % 2 ^ 32 := by
  rw [error_new _ hof hslot, reg_occurEnd_below hin _ _ _ _ (by decide), reg_escalate _ _ erNext_ne_erRec, next_recNew]

end

/-! An occurrence that overflows. -/

section
variable {d : Dev} {blk inst cause sev : Nat} (det : List Nat) (part : Option Nat) (hin : InBounds blk inst)
  (hof : d.recOf (recW0 blk inst cause) = none) (hslot : d.recSlot = none)
include hin hof hslot

theorem reg_overflowed {a : Nat} (ha : a < 0x09002000) (hstat : a ≠ R.ER_STAT) : (d.error blk inst cause sev det part).reg a = d.reg a := by
  rw [error_full _ hof hslot, reg_occurEnd_below hin _ _ _ _ ha, reg_inc, reg_setFld_other _ _ _ _ _ hstat]

theorem ovf_overflowed : (d.error blk inst cause sev det part).on R.ER_STAT F.ER_STAT_OVF = true := by
  have hreg : (d.error blk inst cause sev det part).reg R.ER_STAT = (d.setFld R.ER_STAT F.ER_STAT_OVF 1).reg R.ER_STAT := by
    rw [error_full _ hof hslot, reg_occurEnd_below hin _ _ _ _ (by decide), reg_inc]
  rw [on_of_reg hreg]
  exact on_setFld_one _ _ _ rfl (by decide)

omit hin in
theorem lost_overflowed (awake : d.pwState ≠ 2) (h : d.ctr R.ER_LOST < 2 ^ 64) :
    (d.error blk inst cause sev det part).ctr R.ER_LOST = (d.ctr R.ER_LOST + 1) % 2 ^ 64 := by
  have hpw : (d.setFld R.ER_STAT F.ER_STAT_OVF 1).pwState = d.pwState := fld_setFld_elsewhere _ _ _ _ _ _ (by decide)
  have hctr : (d.setFld R.ER_STAT F.ER_STAT_OVF 1).ctr R.ER_LOST = d.ctr R.ER_LOST := ctr_setFld ..
  rw [error_full _ hof hslot, ctr_occurEnd, ctr_inc_same _ (hctr.trans_lt h) fun hu => awake (hpw.symm.trans hu), hctr]

end

end Dev
end Sys2Proof.Machine

open Sys2Proof Sys2Proof.Machine

/-- Settles O59: the record that an occurrence is folded into, the one that it makes, and the overflow. -/
theorem occurrencesFoldMakeOrOverflow : Obligations.OccurrencesFoldMakeOrOverflow := by
  intro d blk inst cause sev det part hblk hcause _ hsev h1 h2 h9 e src same open' lastIs
  have hin : Dev.InBounds blk inst := ⟨h1, h2, h9⟩
  have hsrc : src < 2 ^ 32 := Dev.recW0_lt hblk hcause
  refine ⟨fun n hn hopen hw0 hfirst => ?fold, fun hnone n hn hcase => ?new, fun hall hno => ?full⟩
  case fold =>
    have hof : d.recOf src = some n := Dev.recOf_first hn hopen hw0 hfirst
    obtain ⟨hvalid, hacked⟩ := Dev.recOpen_iff.mp hopen
    have hword {m k : Nat} (hm : m < 64) (hk : k < 16) (h : m ≠ n ∨ k ≠ 1) : e.erw m k = (d.recFold n).erw m k :=
      Dev.erw_folded det part hin hof hm hk h
    have hkept {m k : Nat} (hm : m < 64) (hk : k < 16) (h : m ≠ n ∨ (k ≠ 1 ∧ k ≠ 2 ∧ k ≠ 6 ∧ k ≠ 7)) : e.erw m k = d.erw m k := by
      rw [hword hm hk (h.imp_right And.left), d.erw_recFold n hk (h.imp_right And.right)]
    refine ⟨(hkept hn (by decide) (.inr (by decide))).trans hw0, ?valid, ?acked, ?recur, ⟨?hi, ?lo⟩, fun k hk h => hkept hn hk (.inr (by omega)),
      fun m hm hne k hk => hkept hm hk (.inl hne), Dev.next_folded det part hin hof⟩
    case valid => exact (Dev.bit_folded det part hin hof hn (by decide) (by decide)).trans hvalid
    case acked => exact (Dev.bit_folded det part hin hof hn (by decide) (by decide)).trans hacked
    case recur => rw [hword hn (by decide) (.inr (by decide)), d.erw_recFold_recur]
    case hi => rw [hword hn (by decide) (.inr (by decide)), d.erw_recFold_hi]
    case lo => rw [hword hn (by decide) (.inr (by decide)), d.erw_recFold_lo]
  case new =>
    have hof : d.recOf src = none := Dev.recOf_none hnone
    have hslot : d.recSlot = some n := hcase.elim (fun ⟨hfree, hfirst⟩ => Dev.recSlot_free hn hfree hfirst)
      fun ⟨hvalid, hacked, hbefore⟩ => Dev.recSlot_acked hn hvalid hacked hbefore
    obtain ⟨hfield, hvalid, hacked⟩ := Dev.newW1_fields hsev part
    have hmade {k v : Nat} (hk : k < 16) (h1 : k ≠ 1) (hw : d.newWord src sev det part k = v) (hv : v < 2 ^ 32) : e.erw n k = v :=
      (Dev.erw_made det part hin hof hslot hn hk h1 (hw.symm ▸ hv)).trans hw
    have hmod (x : Nat) : x % 2 ^ 32 < 2 ^ 32 := Nat.mod_lt _ (Nat.two_pow_pos 32)
    have hhi := hmade (k := 6) (by decide) (by decide) rfl (hmod _)
    have hlo := hmade (k := 7) (by decide) (by decide) rfl (hmod _)
    have hw1 {h l : Nat} (hl : 21 < l) (hh : h < 28) : bits (e.erw n 1) h l = bits (Dev.newW1 sev part) h l :=
      Dev.bits_made det part hin hof hslot hn hsev hl hh
    refine ⟨hmade (by decide) (by decide) rfl hsrc, ?valid, ?acked, hmade (by decide) (by decide) rfl (by decide),
      hmade (by decide) (by decide) rfl (d.reg_lt _), Dev.next_made det part hin hof hslot, ⟨hhi, hlo⟩,
      (hmade (by decide) (by decide) rfl (hmod _)).trans hhi.symm, (hmade (by decide) (by decide) rfl (hmod _)).trans hlo.symm,
      (hw1 (by decide) (by decide)).trans hfield, fun k hk => hmade (by omega) (by omega) (d.newWord_detail src sev det part hk) (hmod _),
      fun m hm hne k hk => Dev.erw_made_other det part hin hof hslot hm hk hne⟩
    case valid =>
      have hbit := (hw1 (h := 23) (l := 23) (by decide) (by decide)).trans hvalid
      exact (bit_of_bits (n := 2 ^ 23) hbit).trans (by decide)
    case acked =>
      have hbit := (hw1 (h := 22) (l := 22) (by decide) (by decide)).trans hacked
      exact (bit_of_bits (n := 0) hbit).trans (by decide)
  case full =>
    have hof : d.recOf src = none := Dev.recOf_none fun m hm ⟨_, hs⟩ => hno m hm hs
    have hslot : d.recSlot = none := Dev.recSlot_none hall
    exact ⟨Dev.ovf_overflowed det part hin hof hslot,
      fun m hm k hk => Dev.erw_of_reg (Dev.reg_overflowed det part hin hof hslot (Dev.erRec_lt hm hk).2 (by unfold R.ER_STAT R.ER_REC; omega)),
      Dev.reg_overflowed det part hin hof hslot (by decide) (by decide), Dev.lost_overflowed det part hof hslot⟩

end

section
/-! PROOFS. What the end of a link leaves of the laser slots and of the other links (spec/10_links.md R387, R388). -/
namespace Sys2Proof.Machine
open Dev

/-- The words of the links, the rings and the laser slots. -/
def LinkWord (a : Nat) : Prop := 0x05000000 ≤ a ∧ a < 0x05100000

theorem not_linkWord_above {a : Nat} (h : 0x05100000 ≤ a) : ¬ LinkWord a := fun hw => absurd hw.2 (Nat.not_lt.mpr h)

theorem not_linkWord_below {a : Nat} (h : a < 0x05000000) : ¬ LinkWord a := fun hw => absurd hw.1 (Nat.not_le.mpr h)

/-- What concerns neither links nor lasers: these words, the power state and the fuse operation in progress are as they were. -/
structure LinkFrame (d e : Dev) : Prop where
  reg : ∀ a, LinkWord a → e.reg a = d.reg a
  power : e.power = d.power
  fuseBusy : e.mgmt.fuseBusy = d.mgmt.fuseBusy

namespace LinkFrame

/-- An update beside the registers, power and the management complex. -/
theorem of_eq {d e : Dev} (hcsr : e.csr = d.csr) (hpower : e.power = d.power) (hmgmt : e.mgmt = d.mgmt) : LinkFrame d e where
  reg a _ := by rw [Dev.reg, hcsr, Dev.reg]
  power := hpower
  fuseBusy := congrArg Mgmt.fuseBusy hmgmt

theorem refl (d : Dev) : LinkFrame d d := .of_eq rfl rfl rfl

theorem trans {d e f : Dev} (h : LinkFrame d e) (k : LinkFrame e f) : LinkFrame d f where
  reg a ha := (k.reg a ha).trans (h.reg a ha)
  power := k.power.trans h.power
  fuseBusy := k.fuseBusy.trans h.fuseBusy

theorem foldl {α : Type} {f : Dev → α → Dev} {l : List α} (h : ∀ e x, LinkFrame e (f e x)) (d : Dev) : LinkFrame d (l.foldl f d) :=
  List.foldlRecOn (motive := LinkFrame d) l f (.refl d) fun e he x _ => he.trans (h e x)

theorem ite {p : Prop} [Decidable p] {d e f : Dev} (h : LinkFrame d e) (k : LinkFrame d f) : LinkFrame d (if p then e else f) := by
  split
  · exact h
  · exact k

theorem setReg (d : Dev) {a : Nat} (w : Word) (ha : ¬ LinkWord a) : LinkFrame d (d.setReg a w) where
  reg _ hb := reg_setReg_other _ _ _ _ fun h => ha (h ▸ hb)
  power := rfl
  fuseBusy := rfl

theorem setNum (d : Dev) {a : Nat} (n : Nat) (ha : ¬ LinkWord a) : LinkFrame d (d.setNum a n) := .setReg d _ ha
theorem setFld (d : Dev) {a : Nat} (f : FR) (v : Nat) (ha : ¬ LinkWord a) : LinkFrame d (d.setFld a f v) := .setReg d _ ha

theorem incBy (d : Dev) (a n : Nat) : LinkFrame d (d.incBy a n) where
  reg _ _ := reg_incBy ..
  power := incBy_power ..
  fuseBusy := congrArg Mgmt.fuseBusy (incBy_mgmt ..)

theorem inc (d : Dev) (a : Nat) : LinkFrame d (d.inc a) := .incBy d a 1

theorem pm (d : Dev) (u : PmUnit) (ev : Nat) (vc : Option Nat) (n : Nat) : LinkFrame d (d.pm u ev vc n) := by
  unfold Dev.pm
  exact .ite (.refl d) (.foldl (fun e k => .ite (.incBy e _ n) (.refl e)) d)

/-! Events and error records. -/

theorem sendUcp (d : Dev) (ep : Ep) (slot : Nat) (frame : List Byte) : LinkFrame d (d.sendUcp ep slot frame) := by
  unfold Dev.sendUcp
  dsimp only
  exact .ite (.of_eq rfl rfl rfl) (.ite (.of_eq rfl rfl rfl) (.of_eq rfl rfl rfl))

theorem setSess (d : Dev) (n : Nat) (s : Sess) : LinkFrame d (d.setSess n s) := ⟨fun _ _ => rfl, rfl, rfl⟩

theorem eventOn (d : Dev) (n cls code : Nat) (data : List Byte) : LinkFrame d (d.eventOn n cls code data) := by
  unfold Dev.eventOn
  exact .ite (.ite ((setSess ..).trans (.inc ..)) ((setSess ..).trans (.sendUcp ..))) (.refl d)

theorem event (d : Dev) (cls code : Nat) (data : List Byte) : LinkFrame d (d.event cls code data) := by
  unfold Dev.event
  exact .foldl (fun e n => .eventOn e n cls code data) d

theorem not_linkWord_erRec (n k : Nat) : ¬ LinkWord (R.ER_REC n k) := by
  refine not_linkWord_above ?_
  unfold R.ER_REC
  omega

theorem pushTodo (d : Dev) (a : Action) : LinkFrame d (d.pushTodo a) := .of_eq rfl rfl rfl

theorem recEvent (d : Dev) (n : Nat) : LinkFrame d (d.recEvent n) := .event ..

theorem flightTrigger (d : Dev) (sev : Nat) : LinkFrame d (d.flightTrigger sev) := by
  unfold Dev.flightTrigger
  exact .ite (.of_eq rfl rfl rfl) (.refl d)

theorem raiseSev (d : Dev) (n sev : Nat) : LinkFrame d (d.raiseSev n sev) := by
  unfold Dev.raiseSev
  exact .ite (((setNum d _ (not_linkWord_erRec n 1)).trans (.recEvent ..)).trans (.flightTrigger ..)) (.refl d)

theorem escalate (d : Dev) (n : Nat) : LinkFrame d (d.escalate n) := by
  unfold Dev.escalate
  dsimp only
  split
  · exact .refl d
  · next sev _ =>
    refine .ite ?_ (.refl d)
    have hraised := (setNum d (putBits (d.erw n 1) 21 21 1) (not_linkWord_erRec n 1)).trans (.raiseSev _ n sev)
    split
    · exact hraised.trans (.pushTodo ..)
    · exact hraised

theorem recNew (d : Dev) (n w0 sev : Nat) (det : List Nat) (part : Option Nat) : LinkFrame d (d.recNew n w0 sev det part) := by
  unfold Dev.recNew
  exact (((foldl (fun e k => .setNum _ _ (not_linkWord_erRec n k)) d).trans (.setNum _ _ (not_linkWord_above (by decide)))).trans (.recEvent ..)).trans
    (.flightTrigger ..)

theorem recFold (d : Dev) (n : Nat) : LinkFrame d (d.recFold n) := by
  unfold Dev.recFold
  exact ((setNum d _ (not_linkWord_erRec n 2)).trans (.setNum _ _ (not_linkWord_erRec n 6))).trans (.setNum _ _ (not_linkWord_erRec n 7))

theorem not_linkWord_health {blk inst a k : Nat} {vat : Bool} (h : healthOf blk inst = some (a, vat, k)) : ¬ LinkWord a := by
  refine not_linkWord_above ?_
  unfold healthOf R.HS_PORT R.HS_VAT at h
  split_ifs at h <;> cases h <;> omega

theorem health (d : Dev) (blk inst sev ref : Nat) : LinkFrame d (d.health blk inst sev ref) := by
  unfold Dev.health
  split
  · exact .refl d
  · next a _ _ h =>
    have hset := setFld d F.HS_PORT_SCORE (min (d.fld a F.HS_PORT_SCORE + healthWeight sev) 65535) (not_linkWord_health h)
    exact .ite (hset.trans (.pushTodo ..)) hset

theorem occurEnd (d : Dev) (blk inst w0 sev slot : Nat) : LinkFrame d (d.occurEnd blk inst w0 sev slot) := by
  unfold Dev.occurEnd
  exact .ite ((health ..).trans (.pushTodo ..)) (.health ..)

theorem error (d : Dev) (blk inst cause sev : Nat) (det : List Nat) (part : Option Nat) : LinkFrame d (d.error blk inst cause sev det part) := by
  cases hof : d.recOf (recW0 blk inst cause) with
  | some n =>
    rw [d.error_fold hof]
    exact (((recFold d n).trans (.raiseSev ..)).trans (.escalate ..)).trans (.occurEnd ..)
  | none =>
    cases hslot : d.recSlot with
    | some n =>
      rw [d.error_new hof hslot]
      exact ((recNew d ..).trans (.escalate ..)).trans (.occurEnd ..)
    | none =>
      rw [d.error_full hof hslot]
      exact ((setFld d _ _ (not_linkWord_above (by decide))).trans (.inc ..)).trans (.occurEnd ..)

/-! The end of a maintenance activity. -/

theorem setMaint (d : Dev) (l : List Maint) : LinkFrame d (d.setMaint l) := .of_eq rfl rfl rfl

theorem maintEnd (d : Dev) (handle result data : Nat) : LinkFrame d (d.maintEnd handle result data) := by
  have hact (e : Dev) (r : Nat) : LinkFrame e ((e.setNum (R.MT_ACT_A r) 0).setNum (R.MT_ACT_B r) 0) :=
    (setNum e 0 (not_linkWord_above (by unfold R.MT_ACT_A; omega))).trans (.setNum _ 0 (not_linkWord_above (by unfold R.MT_ACT_B; omega)))
  have hwaited (e : Dev) : LinkFrame e { e with faults := { e.faults with todo := e.faults.todo ++ e.faults.waitWear, waitWear := [] } } :=
    .of_eq rfl rfl rfl
  unfold Dev.maintEnd
  split
  · exact .refl d
  · next m _ =>
    exact (((setMaint ..).trans (.ite (hact _ m.reg) (.refl _))).trans (.event ..)).trans (hwaited _)

/-! The flight recorder. -/

theorem ringGapCount (d : Dev) (r : Nat) : LinkFrame d (d.ringGapCount r) :=
  .setNum _ _ (not_linkWord_above (by unfold R.TM_RING_GAP; omega))

theorem ddrWrite (d : Dev) (a n : Nat) : LinkFrame d (d.ddrWrite a n) := by
  unfold Dev.ddrWrite
  refine .trans ?_ (.pm ..)
  exact .of_eq rfl rfl rfl

theorem flightWrite (d : Dev) (r : Flight) : LinkFrame d (d.flightWrite r) := by
  unfold Dev.flightWrite
  dsimp only
  refine .ite (.refl d) (.ite (.trans ?_ (.ringGapCount ..)) (.trans (.trans (.trans ?_ (.ddrWrite ..)) (.inc ..)) (.setNum _ _ ?_)))
  · exact .of_eq rfl rfl rfl
  · exact .of_eq rfl rfl rfl
  · exact not_linkWord_above (by decide)

theorem capture (d : Dev) (unit : Nat) (raw : List Byte) (x : Bool) (arrT inPort outPort cause : Nat) :
    LinkFrame d (d.capture unit raw x arrT inPort outPort cause) := by
  unfold Dev.capture
  dsimp only
  refine .ite (.ite (.trans (.trans ?_ (.setNum _ _ ?_)) (.flightWrite ..)) (.inc ..)) (.refl d)
  · exact .of_eq rfl rfl rfl
  · exact not_linkWord_above (by decide)

theorem sampleNow (d : Dev) (k : Pkt) (out : Nat) : LinkFrame d (d.sampleNow k out) := by
  unfold Dev.sampleNow
  exact .ite (.capture ..) (.refl d)

theorem captureAt (d : Dev) (unit : Nat) (k : Pkt) (outPort cause : Nat) : LinkFrame d (d.captureAt unit k outPort cause) := by
  unfold Dev.captureAt
  exact .ite ((sampleNow ..).trans (.capture ..)) (.sampleNow ..)

theorem captureFree (d : Dev) (unit : Nat) (k : Pkt) (outPort : Nat) : LinkFrame d (d.captureFree unit k outPort) := by
  unfold Dev.captureFree Dev.draw
  refine .trans ?_ (.captureAt ..)
  exact .of_eq rfl rfl rfl

/-! Packets and their cells. -/

theorem setPkts (d : Dev) (l : List Pkt) : LinkFrame d (d.setPkts l) := .of_eq rfl rfl rfl
theorem putPkt (d : Dev) (k : Pkt) : LinkFrame d (d.putPkt k) := .setPkts ..
theorem setTx (d : Dev) (c : Nat) (t : PortTx) : LinkFrame d (d.setTx c t) := .of_eq rfl rfl rfl
theorem setRx (d : Dev) (c : Nat) (r : Option Rx) : LinkFrame d (d.setRx c r) := .of_eq rfl rfl rfl
theorem setLk (d : Dev) (c : Nat) (l : Lk) : LinkFrame d (d.setLk c l) := .of_eq rfl rfl rfl

theorem badPointer (d : Dev) (check : Nat) (gran : Bool) (addr unit : Nat) : LinkFrame d (d.badPointer check gran addr unit) := by
  unfold Dev.badPointer
  exact (((inc d _).trans (.setNum _ _ (not_linkWord_below (by decide)))).trans (.setNum _ _ (not_linkWord_below (by decide)))).trans (.error ..)

theorem cellBack (d : Dev) (unit addr : Nat) : LinkFrame d (d.cellBack unit addr) := by
  unfold Dev.cellBack
  exact .ite (.of_eq rfl rfl rfl) (.badPointer ..)

theorem takeWith (d : Dev) (id : Nat) (ptr : Option Nat) : LinkFrame d (d.takeWith id ptr) := by
  unfold Dev.takeWith
  split
  · exact .refl d
  · dsimp only
    split
    · exact (setPkts ..).trans (.putPkt ..)
    · exact (setPkts ..).trans (.foldl (fun e a => .cellBack e _ a) _)

theorem takePkt (d : Dev) (id : Nat) : LinkFrame d (d.takePkt id) := .takeWith ..

theorem dropWith (d : Dev) (k : Pkt) (o : Nat) (ptr : Option Nat) : LinkFrame d (d.dropWith k o ptr) := by
  unfold Dev.dropWith
  exact .ite (.takeWith ..) (.putPkt ..)

theorem dropCopy (d : Dev) (k : Pkt) (o : Nat) : LinkFrame d (d.dropCopy k o) := .dropWith ..

theorem truncate (d : Dev) (k : Pkt) (got : List Byte) : LinkFrame d (d.truncate k got) := by
  unfold Dev.truncate
  exact (foldl (fun e x => .inc e _) d).trans (.putPkt ..)

/-! What ends with a link: the packets towards it, the packet from it, its lane actions. -/

theorem flushPort (d : Dev) (c : Nat) : LinkFrame d (d.flushPort c) := by
  unfold Dev.flushPort
  refine (foldl (fun e id => ?_) d).trans (.setTx ..)
  split
  · exact .refl e
  · split
    · exact .refl e
    · exact .ite (.dropCopy ..) (((inc e _).trans (.captureAt ..)).trans (.dropCopy ..))

theorem cutSource (d : Dev) (c : Nat) : LinkFrame d (d.cutSource c) := by
  unfold Dev.cutSource
  refine (foldl (fun e k => ?_) d).trans (.setRx ..)
  split
  · exact .refl e
  · exact .ite (.truncate ..) ((captureFree ..).trans (.takePkt ..))

theorem dropActs (d : Dev) (c : Nat) : LinkFrame d (d.dropActs c) := by
  unfold Dev.dropActs
  exact .foldl (fun e h => .maintEnd e h 1 0) d

end LinkFrame

/-! Laser slots and link states. -/

theorem linkState_eq (d : Dev) (c : Nat) : d.linkState c = d.fld (statReg c) F.YZ_STAT_STATE := by
  unfold linkState statReg
  split <;> rfl

theorem statReg_bounds {c : Nat} (hc : c < 1024) : 0x05000000 ≤ statReg c ∧ statReg c < 0x05020000 := by
  unfold statReg R.YZ_STAT R.YZ_STAT1
  split <;> omega

theorem statReg_inj {b c : Nat} (h : statReg b = statReg c) : b = c := by
  unfold statReg R.YZ_STAT R.YZ_STAT1 at h
  split_ifs at h <;> omega

theorem slotStat_bounds {k : Nat} (hk : k < 16) : 0x050C0000 ≤ R.OH_SLOT_STAT k ∧ R.OH_SLOT_STAT k < 0x050C0100 ∧ R.OH_SLOT_STAT k % 16 = 4 := by
  unfold R.OH_SLOT_STAT
  omega

theorem slotCtrl_bounds {k : Nat} (hk : k < 16) : 0x050C0000 ≤ R.OH_SLOT_CTRL k ∧ R.OH_SLOT_CTRL k < 0x050C0100 ∧ R.OH_SLOT_CTRL k % 16 = 0 := by
  unfold R.OH_SLOT_CTRL
  omega

/-- The registers of the laser slots and LM_EN are as they were; of their control words EN is. -/
structure SlotFrame (d e : Dev) : Prop where
  stat : ∀ k < 16, e.reg (R.OH_SLOT_STAT k) = d.reg (R.OH_SLOT_STAT k)
  en : ∀ k < 16, e.on (R.OH_SLOT_CTRL k) F.OH_SLOT_CTRL_EN = d.on (R.OH_SLOT_CTRL k) F.OH_SLOT_CTRL_EN
  lmEn : e.power.lmEn = d.power.lmEn

theorem SlotFrame.refl (d : Dev) : SlotFrame d d := ⟨fun _ _ => rfl, fun _ _ => rfl, rfl⟩

theorem SlotFrame.trans {d e f : Dev} (h : SlotFrame d e) (k : SlotFrame e f) : SlotFrame d f :=
  ⟨fun i hi => (k.stat i hi).trans (h.stat i hi), fun i hi => (k.en i hi).trans (h.en i hi), k.lmEn.trans h.lmEn⟩

/-- And the state of every link is. -/
structure LampFrame (d e : Dev) : Prop extends SlotFrame d e where
  state : ∀ c < 1024, e.linkState c = d.linkState c

namespace LampFrame

theorem refl (d : Dev) : LampFrame d d := ⟨.refl d, fun _ _ => rfl⟩

theorem trans {d e f : Dev} (h : LampFrame d e) (k : LampFrame e f) : LampFrame d f :=
  ⟨h.toSlotFrame.trans k.toSlotFrame, fun c hc => (k.state c hc).trans (h.state c hc)⟩

theorem ite {p : Prop} [Decidable p] {d e f : Dev} (h : LampFrame d e) (k : LampFrame d f) : LampFrame d (if p then e else f) := by
  split
  · exact h
  · exact k

theorem foldl {α : Type} {f : Dev → α → Dev} {l : List α} (h : ∀ e x, LampFrame e (f e x)) (d : Dev) : LampFrame d (l.foldl f d) :=
  List.foldlRecOn (motive := LampFrame d) l f (.refl d) fun e he x _ => he.trans (h e x)

theorem of_link {d e : Dev} (h : LinkFrame d e) : LampFrame d e where
  stat k hk := h.reg _ (by have := slotStat_bounds hk; unfold LinkWord; omega)
  en k hk := on_of_reg (h.reg _ (by have := slotCtrl_bounds hk; unfold LinkWord; omega)) _
  lmEn := congrArg Power.lmEn h.power
  state c hc := by
    have hreg := h.reg (statReg c) (by have := statReg_bounds hc; unfold LinkWord; omega)
    rw [linkState_eq, linkState_eq, fld_of_reg hreg]

/-- An update beside registers and power. -/
theorem of_eq {d e : Dev} (hcsr : e.csr = d.csr) (hpower : e.power = d.power) (hmgmt : e.mgmt = d.mgmt) : LampFrame d e := of_link (.of_eq hcsr hpower hmgmt)

/-- A field, above the lowest bit, of a word that is no slot's status and no link's. -/
theorem setFld (d : Dev) {a : Nat} {f : FR} (v : Nat) (ha : a < 0x05000000 ∨ 0x05020000 ≤ a) (hslot : a % 16 ≠ 4 ∨ a < 0x050C0000) (hlo : 0 < f.lo)
    (hf : f.lo ≤ f.hi) (hhi : f.hi < 32) : LampFrame d (d.setFld a f v) where
  stat k hk := reg_setFld_other _ _ _ _ _ (by have := slotStat_bounds hk; omega)
  en k _ := by
    by_cases h : R.OH_SLOT_CTRL k = a
    · rw [h, on_setFld_other _ _ _ _ _ hf hhi (.inl hlo)]
    · rw [on_setFld_elsewhere _ _ _ _ _ _ h]
  lmEn := rfl
  state c hc := by
    rw [linkState_eq, linkState_eq, fld_setFld_elsewhere _ _ _ _ _ _ (by have := statReg_bounds hc; omega)]

theorem setRing (d : Dev) (p j : Nat) (rx : Bool) (s : Nat) : LampFrame d (d.setRing p j rx s) := by
  unfold Dev.setRing
  refine .ite (.of_eq rfl rfl rfl) ?_
  cases rx
  · exact .setFld d s (by unfold R.OH_RING; omega) (by unfold R.OH_RING; omega) (by decide) (by decide) (by decide)
  · exact .setFld d s (by unfold R.OH_RING; omega) (by unfold R.OH_RING; omega) (by decide) (by decide) (by decide)

theorem ringsOff (d : Dev) (c : Nat) : LampFrame d (d.ringsOff c) := by
  unfold Dev.ringsOff
  exact .foldl (fun e j => (setRing ..).trans (.setRing ..)) d

theorem readFrom (d : Dev) (p j : Nat) (rx : Bool) : LampFrame d (d.readFrom p j rx) := .of_eq rfl rfl rfl

theorem calRing (d : Dev) (p j : Nat) (rx : Bool) : LampFrame d (d.calRing p j rx) := by
  unfold Dev.calRing
  exact .ite ((setRing ..).trans (.readFrom ..)) (.refl d)

theorem setCal (d : Dev) (v : Option Cal) : LampFrame d (d.setCal v) := .of_eq rfl rfl rfl

theorem portWord (d : Dev) {c : Nat} {f : FR} (v : Nat) (hc : c < 1024) (hlo : 0 < f.lo) (hf : f.lo ≤ f.hi) (hhi : f.hi < 32) :
    LampFrame d (d.setFld (R.OH_PORT (c / 2)) f v) := by
  have hword : 0x05080000 ≤ R.OH_PORT (c / 2) ∧ R.OH_PORT (c / 2) < 0x050C0000 := by
    unfold R.OH_PORT
    omega
  exact .setFld d v (.inr (by omega)) (.inr hword.2) hlo hf hhi

theorem dropCal (d : Dev) {c : Nat} (hc : c < 1024) : LampFrame d (d.dropCal (c / 2)) := by
  unfold Dev.dropCal
  split
  · next v _ =>
    refine .ite ((((calRing ..).trans (.calRing ..)).trans (.portWord _ 0 hc ?_ ?_ ?_)).trans ((setCal ..).trans (of_link (.maintEnd ..)))) (.refl d)
    all_goals decide
  · exact .refl d

end LampFrame

/-- The link of a port code is down; the slots and the other links are as they were. -/
structure DownFrame (c : Nat) (d e : Dev) : Prop extends SlotFrame d e where
  others : ∀ b < 1024, b ≠ c → e.linkState b = d.linkState b
  down : e.linkState c = 0 ∨ 6 ≤ e.linkState c

namespace DownFrame

theorem after {c : Nat} {d e f : Dev} (h : LampFrame d e) (k : DownFrame c e f) : DownFrame c d f :=
  ⟨h.toSlotFrame.trans k.toSlotFrame, fun b hb hne => (k.others b hb hne).trans (h.state b hb), k.down⟩

theorem before {c : Nat} (hc : c < 1024) {d e f : Dev} (h : DownFrame c d e) (k : LampFrame e f) : DownFrame c d f :=
  ⟨h.toSlotFrame.trans k.toSlotFrame, fun b hb hne => (k.state b hb).trans (h.others b hb hne), by rw [k.state c hc]; exact h.down⟩

/-- A field of a link's status word. -/
theorem slots_setStat (d : Dev) {c : Nat} (hc : c < 1024) (f : FR) (v : Nat) : SlotFrame d (d.setStat c f v) where
  stat k hk := reg_setFld_other _ _ _ _ _ (by have := slotStat_bounds hk; have := statReg_bounds hc; omega)
  en k hk := on_setFld_elsewhere _ _ _ _ _ _ (by have := slotCtrl_bounds hk; have := statReg_bounds hc; omega)
  lmEn := rfl

theorem setState (d : Dev) {c s : Nat} (hc : c < 1024) (hs : s = 0 ∨ s = 6) : DownFrame c d (d.setState c s) where
  toSlotFrame := slots_setStat d hc _ s
  others b _ hne := by
    rw [linkState_eq, linkState_eq, Dev.setState, setStat, fld_setFld_elsewhere _ _ _ _ _ _ fun h => hne (statReg_inj h)]
  down := by
    rw [linkState_eq, Dev.setState, setStat, fld_setFld_same _ _ _ _ (by decide) (by decide)]
    obtain rfl | rfl := hs
    · exact .inl rfl
    · exact .inr le_rfl

end DownFrame

/-- DOWN_CAUSE stands beside the state. -/
theorem LampFrame.setCause (d : Dev) {c : Nat} (hc : c < 1024) (v : Nat) : LampFrame d (d.setStat c F.YZ_STAT_DOWN_CAUSE v) where
  toSlotFrame := DownFrame.slots_setStat d hc _ v
  state b _ := by
    rw [linkState_eq, linkState_eq, setStat]
    by_cases h : statReg b = statReg c
    · rw [h, fld_setFld_other _ _ _ _ _ (by decide) (by decide) (by decide)]
    · rw [fld_setFld_elsewhere _ _ _ _ _ _ h]

/-- The part of a link's end before its state changes: packets, the visit, lane actions, the count and the cause. -/
def linkEnd (d : Dev) (c cause : Nat) : Dev :=
  (((((d.flushPort c).cutSource c).dropCal (c / 2)).dropActs c).inc (R.YZ_LINK_DOWN (c / 2))).setStat c F.YZ_STAT_DOWN_CAUSE cause

theorem linkEnd_frame (d : Dev) {c : Nat} (hc : c < 1024) (cause : Nat) : LampFrame d (linkEnd d c cause) := by
  unfold linkEnd
  exact (((((LampFrame.of_link (.flushPort ..)).trans (.of_link (.cutSource ..))).trans (.dropCal _ hc)).trans (.of_link (.dropActs ..))).trans
    (.of_link (.inc ..))).trans (.setCause _ hc cause)

/-- The state after a link has gone down with a lost module or a disabled slot. -/
def downNext (d : Dev) (p : Nat) : Nat :=
  if ¬ d.on (R.YZ_CTRL p) F.YZ_CTRL_EN then 0 else if d.on (R.YZ_CTRL p) F.YZ_CTRL_AUTO_RETRAIN then 6 else 0

theorem downNext_cases (d : Dev) (p : Nat) : downNext d p = 0 ∨ downNext d p = 6 := by
  unfold downNext
  split
  · exact .inl rfl
  · split
    · exact .inr rfl
    · exact .inl rfl

/-- The part of a link's end from the change of its state on, for a lost module or a disabled slot. -/
def downAt (d : Dev) (c : Nat) : Dev :=
  let next := downNext d (c / 2)
  let d := if next = 0 then d.ringsOff c else d
  let d := (((d.setLk c { since := d.lc }).setState c next).setFld (R.SC_XOFF c) F.SC_XOFF_XOFF_RCVD 0).setFld (R.OH_PORT (c / 2)) F.OH_PORT_CMD_PENDING 0
  (d.error 0x01 c 0x10 2 [7]).event 1 0x8002 (beBytes c 2 ++ [BitVec.ofNat 8 next, BitVec.ofNat 8 7])

theorem linkDown_seven (d : Dev) {c : Nat} (h : ¬(d.linkState c = 0 ∨ 6 ≤ d.linkState c)) : d.linkDown c 7 = downAt (linkEnd d c 7) c := by
  have hsent : ¬(rowsOn (d.linkState c) = true ∧ (7 : Nat) ≠ 3 ∧ (7 : Nat) ≠ 7) := fun ⟨_, _, hne⟩ => hne rfl
  have hnext : ¬(7 : Nat) = 8 := by decide
  unfold linkDown downAt downNext linkEnd
  simp only [if_neg h, if_neg hsent, if_neg hnext, or_true, if_true]

theorem downAt_frame (d : Dev) {c : Nat} (hc : c < 1024) : DownFrame c d (downAt d c) := by
  have hrings : LampFrame d (if downNext d (c / 2) = 0 then d.ringsOff c else d) := .ite (.ringsOff ..) (.refl d)
  unfold downAt
  refine .before hc (.before hc (.before hc (.before hc (.after (hrings.trans (.of_link (.setLk ..))) (.setState _ hc (downNext_cases ..)))
    (.of_link (.setFld _ _ _ ?_))) (.portWord _ 0 hc ?_ ?_ ?_)) (.of_link (.error ..))) (.of_link (.event ..))
  · refine not_linkWord_below ?_
    unfold R.SC_XOFF
    omega
  all_goals decide

theorem linkDown_frame (d : Dev) {c : Nat} (hc : c < 1024) : DownFrame c d (d.linkDown c 7) := by
  by_cases h : d.linkState c = 0 ∨ 6 ≤ d.linkState c
  · rw [show d.linkDown c 7 = d from if_pos h]
    exact ⟨.refl d, fun _ _ _ => rfl, h⟩
  · rw [linkDown_seven d h]
    exact .after (linkEnd_frame d hc 7) (downAt_frame _ hc)

/-! The links of a slot, one after another. -/

/-- The first `n` links of a slot are down. -/
structure SlotDown (k n : Nat) (d e : Dev) : Prop extends SlotFrame d e where
  down : ∀ i < n, e.linkState (64 * k + i) = 0 ∨ 6 ≤ e.linkState (64 * k + i)

theorem slotDown_frame (d : Dev) {k : Nat} (hk : k < 16) : SlotDown k 64 d (d.slotDown k) := by
  have hlinks (n : Nat) (hn : n ≤ 64) : SlotDown k n d ((List.range n).foldl (fun d i => d.linkDown (64 * k + i) 7) d) := by
    induction n with
    | zero => exact ⟨.refl d, fun i hi => absurd hi (Nat.not_lt_zero i)⟩
    | succ n ih =>
      obtain ⟨hslots, hdown⟩ := ih (by omega)
      rw [List.range_succ, List.foldl_append]
      have hlast := linkDown_frame ((List.range n).foldl (fun d i => d.linkDown (64 * k + i) 7) d) (c := 64 * k + n) (by omega)
      refine ⟨hslots.trans hlast.toSlotFrame, fun i hi => ?_⟩
      obtain hin | rfl := Nat.lt_succ_iff_lt_or_eq.mp hi
      · rw [List.foldl_cons, List.foldl_nil, hlast.others _ (by omega) (by omega)]
        exact hdown i hin
      · exact hlast.down
  exact hlinks 64 le_rfl

/-! LM_EN of a slot. -/

/-- The device with LM_EN of a slot at a level, before what follows of it. -/
def lmPut (d : Dev) (k : Nat) (on : Bool) : Dev :=
  { d with power := { d.power with lmEn := d.power.lmEn.set k on }, optic := { d.optic with tapT := Sparse.del d.optic.tapT k } }

theorem getD_lmPut (d : Dev) {k : Nat} (on : Bool) (hk : k < d.power.lmEn.length) : (lmPut d k on).power.lmEn.getD k false = on := by
  simp [lmPut, hk]

theorem lmEn_setLmEn (d : Dev) {k : Nat} (on : Bool) (hk : k < d.power.lmEn.length) : (d.setLmEn k on).power.lmEn.getD k false = on := by
  unfold setLmEn
  split
  · next h => exact h
  · dsimp only
    split
    · next hon =>
      have hlast (l : List Nat) (e : Dev) : (l.foldl (fun d i => d.readFrom (32 * k + i / 9) (i % 9) false) e).power = e.power :=
        List.foldlRecOn (motive := fun f : Dev => f.power = e.power) l _ rfl fun f hf i _ => hf
      have hpilot (l : List Nat) (e : Dev) :
          (l.foldl (fun (d : Dev) i => d.emit (.pilot (2 * k + i / 9) (i % 9) d.lc (pilotFrame (i % 9)))) e).power = e.power :=
        List.foldlRecOn (motive := fun f : Dev => f.power = e.power) l _ rfl fun f hf i _ => hf
      rw [hlast, hpilot]
      exact getD_lmPut d on hk
    · exact getD_lmPut d on hk

/-- Setting LM_EN changes no register but for READY of a slot whose LM_EN falls. -/
theorem reg_setLmEn (d : Dev) (k : Nat) (on : Bool) {a : Nat} (h : a ≠ R.OH_SLOT_STAT k) : (d.setLmEn k on).reg a = d.reg a := by
  unfold setLmEn
  split
  · rfl
  · dsimp only
    split
    · refine List.foldlRecOn (motive := fun f : Dev => f.reg a = d.reg a) _ _ ?_ fun f hf i _ => hf
      exact List.foldlRecOn (motive := fun f : Dev => f.reg a = d.reg a) _ _ rfl fun f hf i _ => hf
    · rw [reg_setFld_other _ _ _ _ _ h]
      rfl

theorem present_setLmEn (d : Dev) (k : Nat) (on : Bool) :
    (d.setLmEn k on).on (R.OH_SLOT_STAT k) F.OH_SLOT_STAT_PRESENT = d.on (R.OH_SLOT_STAT k) F.OH_SLOT_STAT_PRESENT := by
  unfold setLmEn
  split
  · rfl
  · dsimp only
    split
    · refine on_of_reg ?_ _
      refine List.foldlRecOn (motive := fun f : Dev => f.reg _ = d.reg _) _ _ ?_ fun f hf i _ => hf
      exact List.foldlRecOn (motive := fun f : Dev => f.reg _ = d.reg _) _ _ rfl fun f hf i _ => hf
    · rw [on_setFld_other _ _ _ _ _ (by decide) (by decide) (by decide)]
      rfl

/-! The four commands. -/

/-- The condition of R557, R560 and R563 on LM_EN, in the words of the statement. -/
theorem lmMay_eq (d : Dev) : d.lmMay = decide (d.pwState = 0 ∨ (d.pwState = 3 ∧ d.power.begun + 18000 * 1250 ≤ d.lc)) := by
  unfold lmMay running
  simp

theorem slotCtrl_ne_stat (k j : Nat) : R.OH_SLOT_CTRL k ≠ R.OH_SLOT_STAT j := by
  unfold R.OH_SLOT_CTRL R.OH_SLOT_STAT
  omega

theorem pwStat_ne_slotCtrl {k : Nat} (hk : k < 16) : R.PW_STAT ≠ R.OH_SLOT_CTRL k :=
  Nat.ne_of_gt ((slotCtrl_bounds hk).2.1.trans (by decide))

/-- A field of a slot's words has no part in whether LM_EN may stand. -/
theorem lmMay_setFld (d : Dev) {a : Nat} (f : FR) (v : Nat) (h : R.PW_STAT ≠ a) : (d.setFld a f v).lmMay = d.lmMay := by
  have hpw : (d.setFld a f v).pwState = d.pwState := fld_setFld_elsewhere _ _ _ _ _ _ h
  unfold lmMay running
  rw [hpw, lc_setFld, setFld_power]

theorem present_moduleIn (d : Dev) (k : Nat) : (d.moduleIn k).on (R.OH_SLOT_STAT k) F.OH_SLOT_STAT_PRESENT = true := by
  have hset := d.on_setFld_one (R.OH_SLOT_STAT k) F.OH_SLOT_STAT_PRESENT rfl (by decide)
  unfold moduleIn
  dsimp only
  split
  · rw [present_setLmEn, hset]
  · exact hset

theorem moduleIn_eq (d : Dev) {k : Nat} (hk : k < 16) : d.moduleIn k =
    if d.on (R.OH_SLOT_CTRL k) F.OH_SLOT_CTRL_EN ∧ d.lmMay then (d.setFld (R.OH_SLOT_STAT k) F.OH_SLOT_STAT_PRESENT 1).setLmEn k true
    else d.setFld (R.OH_SLOT_STAT k) F.OH_SLOT_STAT_PRESENT 1 := by
  unfold moduleIn
  dsimp only
  rw [on_setFld_elsewhere _ _ _ _ _ _ (slotCtrl_ne_stat k k), lmMay_setFld _ _ _ (pwStat_ne_slot k hk)]

theorem lmEn_moduleIn (d : Dev) {k : Nat} (hk : k < 16) (hlen : d.power.lmEn.length = 16) :
    (d.moduleIn k).power.lmEn.getD k false = ((d.on (R.OH_SLOT_CTRL k) F.OH_SLOT_CTRL_EN && d.lmMay) || d.power.lmEn.getD k false) := by
  rw [moduleIn_eq d hk]
  split
  · next h => rw [lmEn_setLmEn _ _ (by rw [setFld_power, hlen]; exact hk), h.1, h.2, Bool.and_self, Bool.true_or]
  · next h =>
    have hnot : (d.on (R.OH_SLOT_CTRL k) F.OH_SLOT_CTRL_EN && d.lmMay) = false := by simpa using h
    rw [hnot, Bool.false_or, setFld_power]

/-- A slot whose LM_EN has fallen and whose links are taken down. -/
theorem dark_slotDown (d : Dev) {k : Nat} (hk : k < 16) (hlen : d.power.lmEn.length = 16) :
    SlotDown k 64 (d.setLmEn k false) ((d.setLmEn k false).slotDown k) ∧ ((d.setLmEn k false).slotDown k).power.lmEn.getD k false = false := by
  have hdown := slotDown_frame (d.setLmEn k false) hk
  exact ⟨hdown, by rw [hdown.lmEn, lmEn_setLmEn _ _ (hlen.symm ▸ hk)]⟩

/-- What removing a module leaves. -/
theorem moduleOut_present (d : Dev) {k : Nat} (hk : k < 16) (hlen : d.power.lmEn.length = 16) (h : d.on (R.OH_SLOT_STAT k) F.OH_SLOT_STAT_PRESENT = true) :
    (d.moduleOut k).on (R.OH_SLOT_STAT k) F.OH_SLOT_STAT_PRESENT = false ∧ (d.moduleOut k).power.lmEn.getD k false = false ∧
      ∀ i < 64, (d.moduleOut k).linkState (64 * k + i) = 0 ∨ 6 ≤ (d.moduleOut k).linkState (64 * k + i) := by
  have hdark := d.on_setFld_zero (R.OH_SLOT_STAT k) F.OH_SLOT_STAT_PRESENT rfl (by decide)
  have hrecord := LampFrame.of_link (.error ((d.setFld (R.OH_SLOT_STAT k) F.OH_SLOT_STAT_PRESENT 0).setLmEn k false) 0x04 k 0x16 3 [] none)
  have hdown := slotDown_frame (((d.setFld (R.OH_SLOT_STAT k) F.OH_SLOT_STAT_PRESENT 0).setLmEn k false).error 0x04 k 0x16 3 []) hk
  have hgone (e : Dev) : LampFrame e { e with optic := { e.optic with tap0 := Sparse.del e.optic.tap0 k } } := .of_eq rfl rfl rfl
  have hlast := hgone ((((d.setFld (R.OH_SLOT_STAT k) F.OH_SLOT_STAT_PRESENT 0).setLmEn k false).error 0x04 k 0x16 3 []).slotDown k)
  have hslots := (hrecord.toSlotFrame.trans hdown.toSlotFrame).trans hlast.toSlotFrame
  rw [moduleOut, if_pos h]
  refine ⟨?_, ?_, fun i hi => ?_⟩
  · rw [on_of_reg (hslots.stat k hk), present_setLmEn, hdark]
  · rw [hslots.lmEn, lmEn_setLmEn _ _ (by rw [setFld_power, hlen]; exact hk)]
  · rw [hlast.state _ (by omega)]
    exact hdown.down i hi

/-- What disabling a slot leaves. -/
theorem slotEnable_off (d : Dev) {k : Nat} (hk : k < 16) (hlen : d.power.lmEn.length = 16) :
    (d.slotEnable k false).on (R.OH_SLOT_CTRL k) F.OH_SLOT_CTRL_EN = false ∧ (d.slotEnable k false).power.lmEn.getD k false = false ∧
      ∀ i < 64, (d.slotEnable k false).linkState (64 * k + i) = 0 ∨ 6 ≤ (d.slotEnable k false).linkState (64 * k + i) := by
  have hdark := d.on_setFld_zero (R.OH_SLOT_CTRL k) F.OH_SLOT_CTRL_EN rfl (by decide)
  have hdown := slotDown_frame ((d.setFld (R.OH_SLOT_CTRL k) F.OH_SLOT_CTRL_EN 0).setLmEn k false) hk
  have hen := on_of_reg (reg_setLmEn (d.setFld (R.OH_SLOT_CTRL k) F.OH_SLOT_CTRL_EN 0) k false (slotCtrl_ne_stat k k)) F.OH_SLOT_CTRL_EN
  refine ⟨(hdown.en k hk).trans (hen.trans hdark), ?_, hdown.down⟩
  exact (congrArg (·.getD k false) hdown.lmEn).trans (lmEn_setLmEn _ _ (by rw [setFld_power, hlen]; exact hk))

theorem slotEnable_on (d : Dev) {k : Nat} (hk : k < 16) : d.slotEnable k true =
    (d.setFld (R.OH_SLOT_CTRL k) F.OH_SLOT_CTRL_EN 1).setLmEn k (d.on (R.OH_SLOT_STAT k) F.OH_SLOT_STAT_PRESENT && d.lmMay) := by
  have hhere : (d.setFld (R.OH_SLOT_CTRL k) F.OH_SLOT_CTRL_EN 1).on (R.OH_SLOT_STAT k) F.OH_SLOT_STAT_PRESENT = d.on (R.OH_SLOT_STAT k) F.OH_SLOT_STAT_PRESENT :=
    on_setFld_elsewhere _ _ _ _ _ _ (slotCtrl_ne_stat k k).symm
  have hmay := lmMay_setFld d F.OH_SLOT_CTRL_EN 1 (pwStat_ne_slotCtrl hk)
  unfold slotEnable
  dsimp only
  rw [if_pos rfl, show b2n true = 1 from rfl, hhere, hmay]

theorem modulePin_high (d : Dev) (k : Nat) : d.modulePin false k true = d.moduleIn k := by
  rw [modulePin, if_neg Bool.false_ne_true, if_pos rfl]

theorem modulePin_low (d : Dev) (k : Nat) : d.modulePin false k false = d.moduleOut k := by
  rw [modulePin, if_neg Bool.false_ne_true, if_neg Bool.false_ne_true]

/-! The write of EN. -/

theorem qunitAt_slotCtrl {k : Nat} (hk : k < 16) : qunitAt (R.OH_SLOT_CTRL k) = none := by
  have hblock : R.OH_SLOT_CTRL k / 0x1000000 = 5 := by unfold R.OH_SLOT_CTRL; omega
  have hoff : R.OH_SLOT_CTRL k % 0x1000000 = 0xC0000 + 0x10 * k := by unfold R.OH_SLOT_CTRL; omega
  unfold qunitAt
  simp only [hblock, hoff]
  rw [if_pos trivial, if_neg (by omega), if_neg (by omega)]

theorem mrdAt_slotCtrl (k : Nat) : mrdAt (R.OH_SLOT_CTRL k) = none := if_neg (by unfold R.OH_SLOT_CTRL; omega)

/-- A write of EN alone that changes it enables or disables the slot. -/
theorem putRw_slotCtrl (d : Dev) {k : Nat} (hk : k < 16) (en : Bool) (h : d.on (R.OH_SLOT_CTRL k) F.OH_SLOT_CTRL_EN = !en) :
    d.putRw (R.OH_SLOT_CTRL k) 1 (b2n en) = d.slotEnable k en := by
  have hblock : R.OH_SLOT_CTRL k / 0x1000000 = 5 := by unfold R.OH_SLOT_CTRL; omega
  have hoff : R.OH_SLOT_CTRL k % 0x1000000 = 0xC0000 + 0x10 * k := by unfold R.OH_SLOT_CTRL; omega
  have hold : bit (d.reg (R.OH_SLOT_CTRL k)).toNat 0 = !en := h ▸ (by unfold Dev.on Dev.fld fget bits bit; rfl)
  have hnew : bit (maskIn (d.reg (R.OH_SLOT_CTRL k)).toNat 1 (b2n en)) 0 = en := by
    have hfield := maskIn_field (d.reg (R.OH_SLOT_CTRL k)).toNat (b2n en) 0 1 (by decide)
    have hbits := bits_putBits (d.reg (R.OH_SLOT_CTRL k)).toNat 0 0 (b2n en)
    simp only [Nat.pow_zero, Nat.mul_one] at hfield
    rw [show (1 : Nat) = 2 ^ 1 - 1 from rfl, hfield]
    exact (bit_of_bits (n := b2n en) (hbits.trans (by cases en <;> decide))).trans (by cases en <;> decide)
  unfold putRw
  simp only [hblock, hoff, qunitAt_slotCtrl hk, mrdAt_slotCtrl, hold, hnew]
  rw [if_neg (by decide), if_neg (by omega), if_neg (by omega), if_pos ⟨trivial, by omega, by omega, by omega⟩, if_neg (by cases en <;> decide),
    show (0xC0000 + 0x10 * k - 0xC0000) / 16 = k by omega]

end Sys2Proof.Machine

open Sys2Proof Sys2Proof.Machine

/-- Settles O42: insertion, removal, disabling and enabling. -/
theorem laserEnableFollowsItsModule : Obligations.LaserEnableFollowsItsModule := by
  intro s now k r m hk d hlen en here may
  have hmay : may = d.lmMay := (lmMay_eq d).symm
  have hrun : s.dev.runOn now = d := if_neg (ne_true_of_eq_false r)
  have hin : exec (.moduleInserted now k) s = .next (s.after (d.moduleIn k)) := by
    refine need_eq (decide_eq_true hk) ((always_next now s (fun d _ => d.modulePin s.dev.inReset k true) (.inr m)).trans ?_)
    rw [hrun, r, modulePin_high]
  have hout : exec (.moduleRemoved now k) s = .next (s.after (d.moduleOut k)) := by
    refine need_eq (decide_eq_true hk) ((always_next now s (fun d _ => d.modulePin s.dev.inReset k false) (.inr m)).trans ?_)
    rw [hrun, r, modulePin_low]
  have hslot (awake : s.dev.pwState ≠ 2) (b : Bool) (h : en = !b) : exec (.slotEnable now k b) s = .next (s.after (d.slotEnable k b)) := by
    have hreach : s.dev.reaches (R.OH_SLOT_CTRL k) = true := by rw [Dev.reaches, decide_eq_true awake, Bool.true_or]
    rw [← putRw_slotCtrl d hk b h]
    exact need_eq (decide_eq_true hk) (need_eq hreach (timed_next now s (fun d _ => d.putRw (R.OH_SLOT_CTRL k) 1 (b2n b)) r m))
  refine ⟨⟨_, hin, present_moduleIn d k, ?inserted⟩, fun h => ⟨_, hout, moduleOut_present d hk hlen h⟩,
    fun awake h => ⟨_, hslot awake false h, slotEnable_off d hk hlen⟩, fun awake h => ?enabled⟩
  case inserted =>
    rw [hmay]
    exact lmEn_moduleIn d hk hlen
  case enabled => rw [hslot awake true h, slotEnable_on d hk, hmay]

end

section
/-! PROOFS. What the functions of the device leave as it was: the fuse operation in progress. Only the fuse commands, the resets and register writes reach it; every
other function has a frame here, file by file in the order of the model. -/
namespace Sys2Proof.Machine

/-- The fuse operation in progress is as it was. -/
structure FuseFrame (d e : Dev) : Prop where
  fuseBusy : e.mgmt.fuseBusy = d.mgmt.fuseBusy

namespace FuseFrame

theorem refl (d : Dev) : FuseFrame d d := ⟨rfl⟩

/-- One thing after another, the later first. -/
theorem after {d e f : Dev} (k : FuseFrame e f) (h : FuseFrame d e) : FuseFrame d f := ⟨k.fuseBusy.trans h.fuseBusy⟩

theorem ite {p : Prop} [Decidable p] {d e f : Dev} (h : FuseFrame d e) (k : FuseFrame d f) : FuseFrame d (if p then e else f) := by
  split
  · exact h
  · exact k

theorem foldl {α : Type} {f : Dev → α → Dev} {l : List α} (h : ∀ e x, FuseFrame e (f e x)) (d : Dev) : FuseFrame d (l.foldl f d) :=
  List.foldlRecOn (motive := FuseFrame d) l f (.refl d) fun e he x _ => .after (h e x) he

/-- An update beside the management complex. -/
theorem beside {d e : Dev} {csr : Csr} {time : TimeSt} {core : Core} {tab : Tables} {ce : Ce} {vat : Vats} {link : Links} {optic : Optics} {faults : Faults}
    {power : Power} {tel : Telem} {ddr : Ddr} {seen : Seen} {out : List Out} {free : Nat} (h : FuseFrame d e) :
    FuseFrame d ⟨csr, time, core, tab, ce, vat, link, optic, e.mgmt, faults, power, tel, ddr, seen, out, free⟩ := ⟨h.fuseBusy⟩

/-- An update in the management complex beside the fuse operation. -/
theorem inside {d e : Dev} {csr : Csr} {time : TimeSt} {core : Core} {tab : Tables} {ce : Ce} {vat : Vats} {link : Links} {optic : Optics} {faults : Faults}
    {power : Power} {tel : Telem} {ddr : Ddr} {seen : Seen} {out : List Out} {free : Nat} {sess : List Sess} {recs : List (Nat × Nat)} {creds : List Cred}
    {staging : Staging} {ready booting stopped : Bool} {cores : List Bool} {since readyAt : Nat} {mpUp : Bool} {image : List Byte} {slots : List (List Byte)}
    {slotBad : List Bool} {sel : List Selector} {boot : Nat} {inbox : List (Ep × List Byte)} {winQ : List WinOp} (h : FuseFrame d e) :
    FuseFrame d ⟨csr, time, core, tab, ce, vat, link, optic, ⟨sess, recs, creds, staging, ready, booting, stopped, cores, since, readyAt, mpUp, image, slots, slotBad,
      sel, boot, e.mgmt.fuseBusy, inbox, winQ⟩, faults, power, tel, ddr, seen, out, free⟩ := ⟨h.fuseBusy⟩

theorem foldl_fst {α β : Type} {f : Dev × β → α → Dev × β} (h : ∀ p x, FuseFrame p.1 (f p x).1) (l : List α) (p : Dev × β) : FuseFrame p.1 (l.foldl f p).1 :=
  List.foldlRecOn (motive := fun q : Dev × β => FuseFrame p.1 q.1) l f (.refl _) fun q hq x _ => .after (h q x) hq

theorem foldl_snd {α β : Type} {f : β × Dev → α → β × Dev} (h : ∀ p x, FuseFrame p.2 (f p x).2) (l : List α) (p : β × Dev) : FuseFrame p.2 (l.foldl f p).2 :=
  List.foldlRecOn (motive := fun q : β × Dev => FuseFrame p.2 q.2) l f (.refl _) fun q hq x _ => .after (h q x) hq

theorem fst {α : Type} {d e : Dev} {p : Dev × α} {a : α} (h : p = (e, a)) (k : FuseFrame d p.1) : FuseFrame d e := by
  rw [h] at k
  exact k

theorem snd {α : Type} {d e : Dev} {p : α × Dev} {a : α} (h : p = (a, e)) (k : FuseFrame d p.2) : FuseFrame d e := by
  rw [h] at k
  exact k

theorem ite_fst {α : Type} {p : Prop} [Decidable p] {d : Dev} {a b : Dev × α} (h : FuseFrame d a.1) (k : FuseFrame d b.1) : FuseFrame d (if p then a else b).1 := by
  split
  · exact h
  · exact k

theorem ite_snd {α : Type} {p : Prop} [Decidable p] {d : Dev} {a b : α × Dev} (h : FuseFrame d a.2) (k : FuseFrame d b.2) : FuseFrame d (if p then a else b).2 := by
  split
  · exact h
  · exact k

end FuseFrame

end Sys2Proof.Machine
end

section
/-! PROOFS. The fuse operation in progress under the functions of Machine/Ops.lean. -/
namespace Sys2Proof.Machine.FuseFrame

theorem setReg (d : Dev) (a : Nat) (w : Word) : FuseFrame d (d.setReg a w) := .beside (.refl _)

theorem setNum (d : Dev) (a n : Nat) : FuseFrame d (d.setNum a n) := .setReg ..

theorem setFld (d : Dev) (a : Nat) (f : FR) (v : Nat) : FuseFrame d (d.setFld a f v) := .setReg ..

theorem incBy (d : Dev) (a n : Nat) : FuseFrame d (d.incBy a n) := by
  unfold Dev.incBy
  exact .ite (.refl _) <| .beside (.refl _)

theorem inc (d : Dev) (a : Nat) : FuseFrame d (d.inc a) := .incBy ..

theorem clearCtr (d : Dev) (a : Nat) : FuseFrame d (d.clearCtr a) := .beside (.refl _)

theorem keepBase (d : Dev) : FuseFrame d d.keepBase := .beside (.refl _)

theorem draw (d : Dev) : FuseFrame d d.draw.2 := .beside (.refl _)

theorem emit (d : Dev) (o : Out) : FuseFrame d (d.emit o) := .beside (.refl _)

theorem pm (d : Dev) (u : Dev.PmUnit) (ev : Nat) (vc : Option Nat) (n : Nat) : FuseFrame d (d.pm u ev vc n) := by
  unfold Dev.pm
  exact .ite (.refl _) (.foldl (fun _ _ => .ite (.incBy ..) (.refl _)) _)

theorem act1 (d : Dev) (k : Nat) : FuseFrame d (d.act1 k) := .beside (.refl _)

end Sys2Proof.Machine.FuseFrame
end

section
/-! PROOFS. The fuse operation in progress under the functions of Machine/Frames.lean. -/
namespace Sys2Proof.Machine.FuseFrame

theorem sendEth (d : Dev) (dst : List Byte) (ethertype : Nat) (pay : List Byte) : FuseFrame d (d.sendEth dst ethertype pay) := .emit ..

theorem originateMgmt (d : Dev) (ep : Ep) (frame : List Byte) : FuseFrame d (d.originateMgmt ep frame) := .beside (.refl _)

theorem sendUcp (d : Dev) (ep : Ep) (slot : Nat) (frame : List Byte) : FuseFrame d (d.sendUcp ep slot frame) := by
  unfold Dev.sendUcp
  exact .after (.ite (.sendEth ..) <| .ite (.sendEth ..) (.originateMgmt ..)) (.emit ..)

theorem setSess (d : Dev) (n : Nat) (s : Sess) : FuseFrame d (d.setSess n s) := .inside (.refl _)

theorem eventOn (d : Dev) (n cls code : Nat) (data : List Byte) : FuseFrame d (d.eventOn n cls code data) := by
  unfold Dev.eventOn
  exact .ite (.ite (.after (.inc ..) (.setSess ..)) <| .after (.sendUcp ..) (.setSess ..)) (.refl _)

theorem event (d : Dev) (cls code : Nat) (data : List Byte) : FuseFrame d (d.event cls code data) := .foldl (fun _ _ => .eventOn ..) _

end Sys2Proof.Machine.FuseFrame
end

section
/-! PROOFS. The fuse operation in progress under the functions of Machine/Errors.lean. -/
namespace Sys2Proof.Machine.FuseFrame

theorem pushTodo (d : Dev) (a : Action) : FuseFrame d (d.pushTodo a) := .beside (.refl _)

theorem recEvent (d : Dev) (n : Nat) : FuseFrame d (d.recEvent n) := .event ..

theorem flightTrigger (d : Dev) (sev : Nat) : FuseFrame d (d.flightTrigger sev) := by
  unfold Dev.flightTrigger
  exact .ite (.beside (.refl _)) (.refl _)

theorem raiseSev (d : Dev) (n sev : Nat) : FuseFrame d (d.raiseSev n sev) := by
  unfold Dev.raiseSev
  exact .ite (.after (.flightTrigger ..) <| .after (.recEvent ..) (.setNum ..)) (.refl _)

theorem error (d : Dev) (blk inst cause sev : Nat) (det : List Nat) (part : Option Nat) : FuseFrame d (d.error blk inst cause sev det part) :=
  ⟨(LinkFrame.error ..).fuseBusy⟩

theorem occur (d : Dev) (blk inst cause sev : Nat) (det : List Nat) (part : Option Nat) : FuseFrame d (d.occur blk inst cause sev det part).1 :=
  .error ..

theorem softRepair (d : Dev) (mac row : Nat) : FuseFrame d (d.softRepair mac row) := by
  unfold Dev.softRepair
  exact .ite (.after (.ite (.setFld ..) (.refl _)) <| .after (.inc ..) (.setFld ..)) (.error ..)

theorem partitionFatal (d : Dev) (blk inst cause : Nat) (det : List Nat) (part : Nat) : FuseFrame d (d.partitionFatal blk inst cause det part) := by
  unfold Dev.partitionFatal
  refine .ite (.error ..) ?_
  split
  next h => exact .after (.ite (.refl _) (.pushTodo ..)) (.fst h (.occur ..))

theorem setMaint (d : Dev) (l : List Maint) : FuseFrame d (d.setMaint l) := .beside (.refl _)

theorem maintBegin (d : Dev) (code : Nat) (auto : Bool) (res : List Nat) (sess : Nat) : FuseFrame d (d.maintBegin code auto res sess).1 := by
  unfold Dev.maintBegin
  exact .ite_fst (.after (.setNum ..) <| .after (.setNum ..) <| .beside (.refl _)) <| .beside (.refl _)

theorem maintEnd (d : Dev) (handle result data : Nat) : FuseFrame d (d.maintEnd handle result data) := by
  unfold Dev.maintEnd
  split
  · exact .refl _
  · exact .beside <| .after (.event ..) <| .after (.ite (.after (.setNum ..) (.setNum ..)) (.refl _)) (.setMaint ..)

theorem setAction (d : Dev) (ref handle : Nat) : FuseFrame d (d.setAction ref handle) := by
  unfold Dev.setAction
  split
  · exact .setNum ..
  · exact .refl _

theorem waitWear (d : Dev) (a : Action) : FuseFrame d (d.waitWear a) := .beside (.refl _)

end Sys2Proof.Machine.FuseFrame
end

section
/-! PROOFS. The fuse operation in progress under the functions of Machine/Burst.lean. -/
namespace Sys2Proof.Machine.FuseFrame

theorem seeing (d : Dev) (l : List (Nat × List Nat)) : FuseFrame d (d.seeing l) := .beside (.refl _)

theorem meeting (d : Dev) (e : Option DescErr) : FuseFrame d (d.meeting e) := .beside (.refl _)

theorem burstFixed (d : Dev) (b : Nat) : FuseFrame d (d.burstFixed b) := .after (.error ..) (.inc ..)

theorem burstFail (d : Dev) (b : Nat) : FuseFrame d (d.burstFail b) := .after (.error ..) (.inc ..)

theorem burstBad (d : Dev) (b : Nat) : FuseFrame d (d.burstBad b) := by
  unfold Dev.burstBad
  exact .ite (.refl _) <| .beside (.refl _)

theorem burstRead (d : Dev) (b : Nat) : FuseFrame d (d.burstRead b).2 := by
  unfold Dev.burstRead
  exact .ite_snd (.burstFail ..) <| .ite_snd (.after (.burstFail ..) <| .after (.burstBad ..) (.pm ..)) <|
    .ite_snd (.after (.burstFail ..) (.pm ..)) <| .ite_snd (.after (.burstFixed ..) (.pm ..)) (.pm ..)

theorem burstsRead (d : Dev) (l : List Nat) : FuseFrame d (d.burstsRead l).2 := by
  refine .foldl_snd (fun p x => ?_) l ([], d)
  split
  · next h => exact .snd h (.burstRead ..)
  · next h => exact .snd h (.burstRead ..)

theorem wrote (d : Dev) (l : List (Nat × Nat)) : FuseFrame d (d.wrote l) := .beside (.refl _)

theorem ddrWrite (d : Dev) (a n : Nat) : FuseFrame d (d.ddrWrite a n) := .after (.pm ..) <| .beside (.wrote ..)

theorem ringGapCount (d : Dev) (r : Nat) : FuseFrame d (d.ringGapCount r) := .setNum ..

theorem flightWrite (d : Dev) (r : Flight) : FuseFrame d (d.flightWrite r) := by
  unfold Dev.flightWrite
  exact .ite (.refl _) <| .after (.ite (.ringGapCount ..) <| .after (.setNum ..) <| .after (.inc ..) <| .after (.ddrWrite ..) <| .beside (.refl _)) <|
    .beside (.refl _)

theorem capture (d : Dev) (unit : Nat) (raw : List Byte) (x : Bool) (arrT inPort outPort cause : Nat) :
    FuseFrame d (d.capture unit raw x arrT inPort outPort cause) := by
  unfold Dev.capture
  exact .ite (.ite (.after (.flightWrite ..) <| .after (.setNum ..) <| .beside (.refl _)) (.inc ..)) (.refl _)

theorem sampleNow (d : Dev) (k : Pkt) (out : Nat) : FuseFrame d (d.sampleNow k out) := by
  unfold Dev.sampleNow
  exact .ite (.capture ..) (.refl _)

theorem captureAt (d : Dev) (unit : Nat) (k : Pkt) (outPort cause : Nat) : FuseFrame d (d.captureAt unit k outPort cause) := by
  unfold Dev.captureAt
  exact .after (.ite (.capture ..) (.refl _)) (.sampleNow ..)

theorem captureDrop (d : Dev) (k : Pkt) (outPort cause : Nat) : FuseFrame d (d.captureDrop k outPort cause) := .captureAt ..

theorem captureFree (d : Dev) (unit : Nat) (k : Pkt) (outPort : Nat) : FuseFrame d (d.captureFree unit k outPort) :=
  .after (.captureAt ..) <| .beside (.refl _)

end Sys2Proof.Machine.FuseFrame
end

section
/-! PROOFS. The fuse operation in progress under the functions of Machine/Packet.lean. -/
namespace Sys2Proof.Machine.FuseFrame

theorem setPkts (d : Dev) (l : List Pkt) : FuseFrame d (d.setPkts l) := .beside (.refl _)

theorem putPkt (d : Dev) (k : Pkt) : FuseFrame d (d.putPkt k) := .setPkts ..

theorem badPointer (d : Dev) (check : Nat) (gran : Bool) (addr unit : Nat) : FuseFrame d (d.badPointer check gran addr unit) :=
  .after (.error ..) <| .after (.setNum ..) <| .after (.setNum ..) (.inc ..)

theorem cellBack (d : Dev) (unit addr : Nat) : FuseFrame d (d.cellBack unit addr) := by
  unfold Dev.cellBack
  exact .ite (.beside (.refl _)) (.badPointer ..)

theorem cellsFor (d : Dev) (base n unit : Nat) : FuseFrame d (d.cellsFor base n unit).2 := .beside (.refl _)

theorem cellsMove (d : Dev) (l : List Nat) (unit : Nat) : FuseFrame d (d.cellsMove l unit) := .beside (.refl _)

theorem takeWith (d : Dev) (id : Nat) (ptr : Option Nat) : FuseFrame d (d.takeWith id ptr) := by
  unfold Dev.takeWith
  dsimp only
  split
  · exact .refl _
  · split
    · exact .after (.putPkt ..) (.setPkts ..)
    · exact .after (.foldl (fun _ _ => .cellBack ..) _) (.setPkts ..)

theorem takePkt (d : Dev) (id : Nat) : FuseFrame d (d.takePkt id) := .takeWith ..

theorem addPkt (d : Dev) (k : Pkt) : FuseFrame d (d.addPkt k) := .setPkts ..

theorem freshId (d : Dev) : FuseFrame d d.freshId.2 := .beside (.refl _)

theorem count2 (d : Dev) (pl port a b : Nat) : FuseFrame d (d.count2 pl port a b) := by
  unfold Dev.count2
  exact .after (.ite (.inc ..) (.refl _)) (.inc ..)

theorem setLk (d : Dev) (c : Nat) (l : Lk) : FuseFrame d (d.setLk c l) := .beside (.refl _)

end Sys2Proof.Machine.FuseFrame
end

section
/-! PROOFS. The fuse operation in progress under the functions of Machine/Lake.lean. -/
namespace Sys2Proof.Machine.FuseFrame

theorem pushCapture (d : Dev) (k : Pkt) : FuseFrame d (d.pushCapture k) := by
  unfold Dev.pushCapture
  split
  · exact .captureAt ..
  · exact .refl _

theorem pushOut (vc need : Nat) (os : List Owner) (n : Nat) (d : Dev) : FuseFrame d (Dev.pushOut vc need os n d) := by
  induction n generalizing d with
  | zero => exact .refl d
  | succ n ih =>
    unfold Dev.pushOut
    refine .ite (.refl _) ?_
    dsimp only
    split
    · exact .refl _
    · exact .after (ih _) <| .after (.pushCapture ..) <| .after (.inc ..) (.takePkt ..)

theorem chargeMain (d : Dev) (k : Pkt) (os : List Owner) (occ : Bool) : FuseFrame d (d.chargeMain k os occ).2 := by
  unfold Dev.chargeMain
  split
  · next h3 =>
      exact .snd h3 (.cellsFor ..)

theorem chargeHr (d : Dev) (k : Pkt) : FuseFrame d (d.chargeHr k).2 := by
  unfold Dev.chargeHr
  split
  · next h3 =>
      exact .snd h3 (.cellsFor ..)

theorem countAdmit (d : Dev) (k : Pkt) : FuseFrame d (d.countAdmit k) := .after (.pm ..) (.inc ..)

theorem admitPkt (d : Dev) (k : Pkt) (out : Nat) : FuseFrame d (d.admitPkt k out).1 := by
  have room : ∀ e : Dev, FuseFrame e (match e.chargeHr k with | (k, e) => (e.inc R.LK_ADMIT_HR, some k)).1 :=
    fun e => .after (.inc ..) (.chargeHr ..)
  unfold Dev.admitPkt
  refine .ite_fst (.after (.captureDrop ..) (.inc ..)) ?_
  refine .ite_fst (.ite_fst (room d) (.after (.captureDrop ..) (.inc ..))) ?_
  refine .ite_fst ?_ (.ite_fst (.after (room _) (.ite (.pushOut ..) (.refl _))) ?_)
  · exact .after (.countAdmit ..) <| .after (.chargeMain ..) (.ite (.pushOut ..) (.refl _))
  · exact .after (.captureDrop ..) <| .after (.inc ..) (.ite (.pushOut ..) (.refl _))

theorem warnUpdate (d : Dev) : FuseFrame d d.warnUpdate := by
  unfold Dev.warnUpdate
  exact .beside <| .ite (.event ..) (.refl _)

theorem xoffUpdate (d : Dev) (c : Nat) : FuseFrame d (d.xoffUpdate c) := by
  unfold Dev.xoffUpdate
  exact .after (.setFld ..) <| .after (.setFld ..) <| .after (.ite (.inc ..) (.refl _)) <| .beside (.refl _)

theorem flow (d : Dev) : FuseFrame d d.flow := by
  unfold Dev.flow
  exact .ite (.after (.foldl (fun _ _ => .xoffUpdate ..) _) (.warnUpdate ..)) (.refl _)

end Sys2Proof.Machine.FuseFrame
end

section
/-! PROOFS. The fuse operation in progress under the functions of Machine/Tables.lean. -/
namespace Sys2Proof.Machine.FuseFrame

theorem setEm (d : Dev) (i : Nat) (e : List Byte) : FuseFrame d (d.setEm i e) := .beside (.refl _)

theorem emWritten (d : Dev) (i : Nat) : FuseFrame d (d.emWritten i) := .beside (.refl _)

theorem setOvf (d : Dev) (l : List (List Byte)) (b i : Nat) : FuseFrame d (d.setOvf l b i) := .after (.ddrWrite ..) <| .beside (.refl _)

theorem ovfRemove (d : Dev) (part : Nat) (mac : List Byte) : FuseFrame d (d.ovfRemove part mac) := by
  unfold Dev.ovfRemove
  exact .ite (.setOvf ..) <| .beside (.refl _)

theorem later (d : Dev) (w : DdrWait) : FuseFrame d (d.later w) := .beside (.refl _)

theorem ovfGone (d : Dev) (b : Nat) (l : List (List Byte)) : FuseFrame d (d.ovfGone b l) := by
  unfold Dev.ovfGone
  exact .ite (.refl _) <| .ite (.later ..) (.foldl (fun _ _ => .ite (.ovfRemove ..) (.refl _)) _)

theorem ovfLose (d : Dev) (b : Nat) (l : List Nat) : FuseFrame d (d.ovfLose b l) := .ovfGone ..

theorem ovfRead (d : Dev) (b : Nat) : FuseFrame d (d.ovfRead b).2 := by
  unfold Dev.ovfRead
  split
  · next h2 =>
      exact .snd h2 (.burstsRead ..)
  · next h4 =>
      exact .after (.ovfLose ..) (.snd h4 (.burstsRead ..))

theorem emLook (d : Dev) (part : Nat) (mac : List Byte) : FuseFrame d (d.emLook part mac) := by
  unfold Dev.emLook
  exact .ite (.refl _) (.ovfRead ..)

theorem emInsert (d : Dev) (e : List Byte) : FuseFrame d (d.emInsert e).1 := by
  unfold Dev.emInsert
  dsimp only
  split
  · exact .setEm ..
  · refine .ite_fst (.setOvf ..) ?_
    split
    · exact .setEm ..
    · exact .ite_fst (.setOvf ..) (.refl _)

theorem emClear (d : Dev) (i : Nat) : FuseFrame d (d.emClear i) := .setEm ..

theorem emRemove (d : Dev) (part : Nat) (mac : List Byte) : FuseFrame d (d.emRemove part mac).1 := by
  unfold Dev.emRemove
  split
  · exact .emClear ..
  · exact .ite_fst (.ovfRemove ..) (.refl _)

theorem emFlush (d : Dev) (all : Bool) (part : Nat) : FuseFrame d (d.emFlush all part) :=
  .after (.foldl (fun _ _ => .emClear ..) _) <| .after (.foldl (fun _ _ => .ovfRemove ..) _) (.foldl (fun _ _ => .ovfRead ..) _)

theorem learnQueue (d : Dev) (p part : Nat) (mac : List Byte) (port : Nat) : FuseFrame d (d.learnQueue p part mac port) := by
  unfold Dev.learnQueue
  exact .ite (.ite (.inc ..) <| .beside (.refl _)) (.refl _)

theorem learnApply (d : Dev) (l : Learn) : FuseFrame d (d.learnApply l) := by
  unfold Dev.learnApply
  dsimp only
  split
  · split
    · next h2 =>
        exact .after (.inc ..) (.fst h2 (.after (.emInsert ..) (.emLook ..)))
    · next h2 =>
        exact .after (.inc ..) (.fst h2 (.after (.emInsert ..) (.emLook ..)))
  · exact .ite (.after (.ite (.refl _) (.inc ..)) (.emLook ..)) <| .ite (.beside <| .after (.emInsert ..) (.emLook ..)) <|
      .ite (.after (.inc ..) <| .after (.emInsert ..) (.emLook ..)) <| .after (.inc ..) (.emLook ..)

theorem learnNext (d : Dev) (p : Nat) : FuseFrame d (d.learnNext p) := by
  unfold Dev.learnNext
  split
  · exact .refl _
  · exact .ite (.refl _) <| .after (.learnApply ..) <| .beside (.refl _)

theorem emAgeOut (d : Dev) (part : Nat) (mac : List Byte) : FuseFrame d (d.emAgeOut part mac) := by
  unfold Dev.emAgeOut
  exact .ite (.after (.ite (.after (.inc ..) (.ovfRemove ..)) (.refl _)) <|
    .after (.foldl (fun _ _ => .after (.inc ..) (.emClear ..)) _) (.emLook ..)) (.refl _)

theorem tblSet (d : Dev) (p table bank index : Nat) (v : List Byte) : FuseFrame d (d.tblSet p table bank index v) := by
  unfold Dev.tblSet
  exact .ite (.beside (.refl _)) <| .ite (.beside (.refl _)) <| .ite (.beside (.refl _)) <| .ite (.beside (.refl _)) <|
    .after (.ite (.emWritten ..) (.refl _)) (.setEm ..)

theorem copySet (d : Dev) (p table bank index : Nat) (v : List Byte) : FuseFrame d (d.copySet p table bank index v) := by
  unfold Dev.copySet
  exact .ite (.beside (.refl _)) <| .ite (.beside (.refl _)) <| .ite (.beside (.refl _)) <| .beside (.refl _)

theorem copyPut (d : Dev) (p table bank index : Nat) (v : List Byte) (counted : Bool) : FuseFrame d (d.copyPut p table bank index v counted) := by
  unfold Dev.copyPut
  exact .after (.ite (.ddrWrite ..) (.refl _)) (.copySet ..)

theorem unrestore (d : Dev) (p table bank index : Nat) : FuseFrame d (d.unrestore p table bank index) := .beside (.refl _)

theorem mirror (d : Dev) (p table bank index : Nat) (v : List Byte) (counted : Bool) : FuseFrame d (d.mirror p table bank index v counted) := by
  unfold Dev.mirror
  exact .after (.ite (.later ..) (.copyPut ..)) (.unrestore ..)

theorem tblPut (d : Dev) (p table bank index : Nat) (v : List Byte) : FuseFrame d (d.tblPut p table bank index v) := by
  unfold Dev.tblPut
  exact .after (.ite (.mirror ..) (.refl _)) (.tblSet ..)

theorem bulkPut (d : Dev) (p table bank slot : Nat) : FuseFrame d (d.bulkPut p table bank slot) := by
  unfold Dev.bulkPut
  exact .ite (.refl _) <| .after (.pm ..) <| .beside (.wrote ..)

theorem bulk (d : Dev) (p table bank : Nat) : FuseFrame d (d.bulk p table bank) := by
  unfold Dev.bulk
  exact .foldl (fun _ _ => .ite (.later ..) (.bulkPut ..)) _

theorem tblRestore (d : Dev) (p table bank : Nat) (entries : List Nat) : FuseFrame d (d.tblRestore p table bank entries).2 :=
  .after (.foldl (fun _ _ => .ite (.tblPut ..) (.tblSet ..)) _) (.burstsRead ..)

theorem tblInval (d : Dev) (p table bank index : Nat) : FuseFrame d (d.tblInval p table bank index) := by
  unfold Dev.tblInval
  exact .ite (.tblPut ..) <| .ite (.tblPut ..) (.tblPut ..)

theorem bankCopyOf (d : Dev) (p table : Nat) : FuseFrame d (d.bankCopyOf p table) :=
  .after (.bulk ..) (.foldl (fun _ _ => .after (.mirror ..) (.tblSet ..)) _)

theorem bankCopy (d : Dev) (p table : Nat) : FuseFrame d (d.bankCopy p table) := .foldl (fun _ _ => .bankCopyOf ..) _

theorem emTake (d : Dev) (i : Nat) (v : List Byte) : FuseFrame d (d.emTake i v) := by
  unfold Dev.emTake
  exact .ite (.after (.ite (.ovfRemove ..) (.refl _)) <| .after (.ovfRead ..) (.foldl (fun _ _ => .emClear ..) _)) (.foldl (fun _ _ => .emClear ..) _)

theorem tblWrite (d : Dev) (p table bank index : Nat) (v : List Byte) : FuseFrame d (d.tblWrite p table bank index v) := by
  unfold Dev.tblWrite
  exact .after (.tblPut ..) <| .ite (.emTake ..) (.refl _)

theorem tblDo (d : Dev) (p op table bank index : Nat) (v : List Byte) (ecc : Bool) : FuseFrame d (d.tblDo p op table bank index v ecc).1 := by
  unfold Dev.tblDo
  refine .ite_fst (.refl d) <| .ite_fst (.tblWrite ..) <| .ite_fst (.tblInval ..) <| .ite_fst (.bankCopy ..) <| .ite_fst ?_ <| .ite_fst ?_ <| .ite_fst ?_ (.emFlush ..)
  · split
    · next h => exact .fst h (.after (.emInsert ..) (.emLook ..))
    · next h => exact .fst h (.after (.emInsert ..) (.emLook ..))
  · split
    · next h => exact .fst h (.after (.emRemove ..) (.emLook ..))
    · next h => exact .fst h (.after (.emRemove ..) (.emLook ..))
  · dsimp only
    split
    · exact .emLook ..
    · exact .emLook ..

theorem twBegin (d : Dev) (p op table bank index : Nat) : FuseFrame d (d.twBegin p op table bank index) := by
  unfold Dev.twBegin
  exact .ite (.setFld ..) <| .beside (.setFld ..)

theorem twStart (d : Dev) (p op table bank : Nat) : FuseFrame d (d.twStart p op table bank) := .twBegin ..

theorem twComplete (d : Dev) (p : Nat) (ecc : Bool) : FuseFrame d (d.twComplete p ecc) := by
  unfold Dev.twComplete
  split
  · exact .refl _
  · refine .ite (.refl _) <| .after (.setFld ..) <| .after (.setFld ..) <| .after (.ite (.foldl (fun _ _ => .setNum ..) _) (.refl _)) ?_
    exact .ite_fst (.after (.tblDo ..) (.beside (.refl d))) (.beside (.refl d))

end Sys2Proof.Machine.FuseFrame
end

section
/-! PROOFS. The fuse operation in progress under the functions of Machine/Ddr.lean. -/
namespace Sys2Proof.Machine.FuseFrame

theorem spi (d : Dev) (op addr len : Nat) (data : List Byte) : FuseFrame d (d.spi op addr len data) := .emit ..

theorem spiRead (d : Dev) (s : Nat) : FuseFrame d (d.spiRead s) := .spi ..

theorem fwRead (d : Dev) (s : Nat) : FuseFrame d (d.fwRead s).2 := by
  unfold Dev.fwRead
  refine .ite_snd (.refl _) ?_
  split
  · next h3 =>
      exact .snd h3 (.burstsRead ..)

theorem fwCopy (d : Dev) (s : Nat) : FuseFrame d (d.fwCopy s) := by
  unfold Dev.fwCopy
  exact .ite (.ite (.refl _) (.later ..)) <| .after (.ddrWrite ..) <| .after (.spiRead ..) <| .beside (.refl _)

theorem fwCopies (d : Dev) : FuseFrame d d.fwCopies := by
  unfold Dev.fwCopies
  exact .foldl (fun _ _ => .ite (.refl _) (.fwCopy ..)) _

theorem imageCopy (d : Dev) (n : Nat) : FuseFrame d (d.imageCopy n) := by
  unfold Dev.imageCopy
  exact .ite (.later ..) (.ddrWrite ..)

theorem setRecs (d : Dev) (r : Nat) (l : List (List Byte)) : FuseFrame d (d.setRecs r l) := .beside (.refl _)

theorem ringGap (d : Dev) (r : Nat) (hit : Nat → Bool) : FuseFrame d (d.ringGap r hit) := .beside (.setRecs ..)

theorem copyAgain (d : Dev) (segs : List Nat) : FuseFrame d (d.copyAgain segs) := by
  unfold Dev.copyAgain
  exact .after (.foldl (fun _ _ => .ite (.copySet ..) (.refl _)) _)
    (.foldl (fun _ _ => .foldl (fun _ _ => .foldl (fun _ _ => .foldl (fun _ _ => .ite (.copySet ..) (.refl _)) _) _) _) _)

theorem slotRefill (d : Dev) (slot : Nat) : FuseFrame d (d.slotRefill slot) := by
  unfold Dev.slotRefill
  exact .after (.ite (.refl _) <| .after (.pm ..) (.wrote ..)) <| .after (.copyAgain ..) <| .after (.spiRead ..) (.spiRead ..)

theorem burstOuts (d : Dev) : FuseFrame d d.burstOuts := by
  unfold Dev.burstOuts
  exact .ite (.refl _) <| .beside (.refl _)

theorem segmentOut (d : Dev) (i c g : Nat) : FuseFrame d (d.segmentOut i c g) := .emit ..

theorem spareFixed (d : Dev) (c : Nat) : FuseFrame d (d.spareFixed c) := .after (.error ..) (.inc ..)

theorem spareFail (d : Dev) (c : Nat) : FuseFrame d (d.spareFail c) := .after (.error ..) (.inc ..)

theorem burstGood (d : Dev) (b : Nat) : FuseFrame d (d.burstGood b) := .beside (.refl _)

theorem scrubBad (d : Dev) (b : Nat) : FuseFrame d (d.scrubBad b) := by
  unfold Dev.scrubBad
  exact .after (.ite (.ovfLose ..) (.refl _)) <| .after (.burstFail ..) (.burstBad ..)

theorem scrubPass (d : Dev) : FuseFrame d d.scrubPass := by
  unfold Dev.scrubPass
  exact .ite (.beside (.refl _)) (.refl _)

theorem scrub (d : Dev) (c addr : Nat) (burst : List Nat) (newer : Bool) : FuseFrame d (d.scrub c addr burst newer) := by
  unfold Dev.scrub
  refine .ite (.refl _) ?_
  generalize hf : Dev.mk _ _ _ _ _ _ _ _ _ _ _ _ _ _ _ _ = e
  have he : FuseFrame d (e.pm .ddr 0x0601 none 32) := .after (.pm ..) (hf ▸ .beside (.scrubPass d))
  clear hf
  generalize e.pm .ddr 0x0601 none 32 = e at he ⊢
  refine .after ?_ he
  split
  · dsimp only
    split
    · exact .burstGood ..
    · exact .refl _
  · refine .after (.ite (.refl _) (.after (.emit ..) <| .after (.pm ..) (.inc ..))) ?_
    split
    · exact .after (.burstFixed ..) (.burstGood ..)
    · exact .spareFixed ..
  · dsimp only
    split
    · exact .scrubBad ..
    · exact .spareFail ..

end Sys2Proof.Machine.FuseFrame
end

section
/-! PROOFS. The fuse operation in progress under the functions of Machine/Ingress.lean. -/
namespace Sys2Proof.Machine.FuseFrame

theorem freePort (d : Dev) : FuseFrame d d.freePort.2 := by
  unfold Dev.freePort
  split
  · next h3 =>
      exact .snd h3 (.draw ..)

theorem entryPort (d : Dev) (c : Nat) : FuseFrame d (d.entryPort c).2 := by
  unfold Dev.entryPort
  exact .ite_snd (.refl _) (.freePort ..)

theorem fixedMember (d : Dev) (e : List Byte) (h : Hdr) : FuseFrame d (d.fixedMember e h).2 := by
  unfold Dev.fixedMember
  exact .ite_snd (.refl _) (.freePort ..)

theorem sprayMember (d : Dev) (key : Nat) (e : List Byte) (h : Hdr) : FuseFrame d (d.sprayMember key e h).2 := by
  unfold Dev.sprayMember
  refine .ite_snd ?_ (.fixedMember ..)
  refine .ite_snd (.after (.fixedMember ..) <| .beside (.refl _)) ?_
  split
  · exact .beside (.refl _)

theorem chipRoute (d : Dev) (p bank : Nat) (h : Hdr) (spray : Bool) : FuseFrame d (d.chipRoute p bank h spray).2 := by
  unfold Dev.chipRoute
  exact .ite_snd (.refl _) <| .ite_snd (.entryPort ..) (.ite_snd (.sprayMember ..) (.fixedMember ..))

theorem queueTo (d : Dev) (k : Pkt) (outs : List Nat) : FuseFrame d (d.queueTo k outs) := .addPkt ..

theorem admitThen (d : Dev) (k : Pkt) (out : Nat) {f : Dev → Pkt → Dev} (hf : ∀ e k, FuseFrame e (f e k)) : FuseFrame d (d.admitThen k out f) := by
  unfold Dev.admitThen
  split
  · next h => exact .after (hf ..) (.fst h (.admitPkt ..))
  · next h => exact .after (.takePkt ..) (.fst h (.admitPkt ..))

theorem countMem (d : Dev) (p : Nat) (h : Hdr) : FuseFrame d (d.countMem p h) := by
  unfold Dev.countMem
  exact .ite (.after (.inc ..) <| .ite (.inc ..) (.refl _)) <| .ite (.inc ..) (.refl _)

theorem sendTo (d : Dev) (k : Pkt) (o : Nat) : FuseFrame d (d.sendTo k o) := by
  unfold Dev.sendTo
  exact .after (.ite (.after (.takePkt ..) <| .after (.captureDrop ..) (.inc ..)) <| .after (.admitThen _ _ _ fun _ k => .queueTo ..) <|
    .after (.countMem ..) <| .ite (.inc ..) (.refl _)) (.sampleNow ..)

theorem routeChip (d : Dev) (k : Pkt) : FuseFrame d (d.routeChip k) := by
  unfold Dev.routeChip
  dsimp only
  split
  · next h3 =>
      exact .after (.sendTo ..) (.snd h3 (.chipRoute ..))
  · next h2 =>
      exact .after (.ite (.admitThen _ _ _ fun _ k => .addPkt ..) <| .after (.takePkt ..) (.captureDrop ..)) <| .after (.sampleNow ..) <|
        .after (.inc ..) (.snd h2 (.chipRoute ..))

theorem routeTree (d : Dev) (k : Pkt) : FuseFrame d (d.routeTree k) := by
  unfold Dev.routeTree
  exact .after (.ite (.after (.takePkt ..) (.captureDrop ..)) <| .after (.admitThen _ _ _ fun _ k => .queueTo ..) (.countMem ..)) <|
    .after (.ite (.inc ..) (.refl _)) <| .after (.incBy ..) (.sampleNow ..)

theorem emOutcome (d : Dev) (k : Pkt) (found : Option (List Byte)) : FuseFrame d (d.emOutcome k found) := by
  unfold Dev.emOutcome
  split
  · refine .ite (.after (.takePkt ..) <| .after (.captureDrop ..) <| .after (.inc ..) (.inc ..)) ?_
    refine .ite ?_ <| .after (.sendTo ..) (.inc ..)
    split
    · next h3 =>
        exact .after (.sendTo ..) (.snd h3 (.after (.entryPort ..) (.inc ..)))
  · exact .after (.routeChip ..) (.inc ..)

theorem routeHeld (d : Dev) (p : Nat) (k : Pkt) : FuseFrame d (d.routeHeld p k) := by
  unfold Dev.routeHeld
  split
  · next h2 =>
      exact .after (.addPkt ..) <| .after (.inc ..) (.snd h2 (.chipRoute ..))
  · next h3 =>
      exact .after (.ite (.queueTo ..) <| .after (.takePkt ..) <| .after (.captureDrop ..) <| .after (.inc ..) (.addPkt ..)) (.snd h3 (.chipRoute ..))

theorem becomeNack (d : Dev) (k : Pkt) (reason age0 : Nat) : FuseFrame d (d.becomeNack k reason age0) := .routeHeld ..

theorem deliverOwn (d : Dev) (k : Pkt) : FuseFrame d (d.deliverOwn k) := by
  unfold Dev.deliverOwn
  exact .ite (.after (.takePkt ..) (.captureDrop ..)) <| .ite (.after (.becomeNack ..) (.inc ..)) <| .ite (.inside (.takePkt ..)) <|
    .after (.ite (.beside (.refl _)) <| .after (.captureDrop ..) (.count2 ..)) (.takePkt ..)

theorem forward (d : Dev) (k : Pkt) : FuseFrame d (d.forward k) := by
  unfold Dev.forward
  dsimp only
  refine .ite ?_ ?_
  · split
    · exact .after (.admitThen _ _ _ fun _ k => .queueTo ..) (.sampleNow ..)
    · exact .after (.admitThen _ _ _ fun _ k => .after (.ite (.deliverOwn ..) (.refl _)) (.addPkt ..)) (.sampleNow ..)
  · refine .ite (.routeTree ..) ?_
    refine .ite ?_ (.routeChip ..)
    split
    · exact .emOutcome ..
    · exact .ite (.emOutcome ..) <| .ite (.after (.emOutcome ..) (.inc ..)) <| .after (.addPkt ..) (.pm ..)

theorem forwardInOrder (d : Dev) (k : Pkt) : FuseFrame d (d.forwardInOrder k) := by
  unfold Dev.forwardInOrder
  exact .ite (.addPkt ..) (.forward ..)

theorem releaseBehind (port n : Nat) (d : Dev) : FuseFrame d (Dev.releaseBehind port n d) := by
  induction n generalizing d with
  | zero => exact .refl d
  | succ n ih =>
    unfold Dev.releaseBehind
    refine .ite (.refl _) ?_
    split
    · exact .refl _
    · exact .after (ih _) (.forward ..)

theorem behindAll (d : Dev) : FuseFrame d d.behindAll := .foldl (fun _ _ => .releaseBehind ..) _

theorem fenceThen (d : Dev) (k : Pkt) : FuseFrame d (d.fenceThen k) := by
  unfold Dev.fenceThen
  exact .ite (.addPkt ..) <| .ite (.ite (.after (.addPkt ..) (.inc ..)) <| .after (.addPkt ..) (.inc ..)) (.forwardInOrder ..)

theorem countCheck (d : Dev) (port n : Nat) : FuseFrame d (d.countCheck port n) := by
  unfold Dev.countCheck
  exact .ite (.count2 ..) <| .ite (.count2 ..) <| .ite (.count2 ..) <| .ite (.count2 ..) (.count2 ..)

theorem sample (d : Dev) (k : Pkt) : FuseFrame d (d.sample k).2 := by
  unfold Dev.sample
  exact .ite_snd (.refl _) <| .beside (.refl _)

theorem countBad (d : Dev) (k : Pkt) : FuseFrame d (d.countBad k) := by
  unfold Dev.countBad
  exact .ite (.refl _) (.count2 ..)

theorem setRx (d : Dev) (port : Nat) (r : Option Rx) : FuseFrame d (d.setRx port r) := .beside (.refl _)

theorem headerArrival (d : Dev) (port : Nat) (raw : List Byte) (lost : Bool) : FuseFrame d (d.headerArrival port raw lost) := by
  unfold Dev.headerArrival
  refine .ite (.refl _) ?_
  dsimp only
  generalize 32 + (if (parseHdr raw).x then 16 else 0) = hl
  have hid := FuseFrame.freshId d
  generalize d.freshId = p at hid ⊢
  obtain ⟨id, e⟩ := p
  refine .after ?_ hid
  refine .ite (.after (.setLk ..) <| .after (.setRx ..) <| .after (.captureDrop ..) (.countCheck ..)) ?_
  split
  · exact .after (.captureDrop ..) <| .after (.countCheck ..) (.setRx ..)
  · refine .ite (.after (.captureDrop ..) <| .after (.inc ..) ?_) (.ite (.after (.captureDrop ..) <| .after (.inc ..) ?_) (.after (.fenceThen ..) ?_))
    all_goals exact .after (.ite (.learnQueue ..) (.refl _)) <| .after (.sample ..) <| .after (.pm ..) <| .after (.pm ..) (.setRx ..)

theorem feArrive (d : Dev) (k : Pkt) : FuseFrame d (d.feArrive k).2 := by
  unfold Dev.feArrive
  exact .ite_snd (.beside (.refl _)) (.refl _)

theorem payloadEnd (d : Dev) (port : Nat) (pay check : List Byte) (lost : Bool) : FuseFrame d (d.payloadEnd port pay check lost) := by
  unfold Dev.payloadEnd
  split
  · exact .refl _
  · next r _ =>
    refine .after ?_ (.after (.incBy _ (R.RX_BYTE port r.vc) r.len) <| .after (.inc _ (R.RX_PKT port r.vc)) (.setRx d port none))
    dsimp only
    split
    · exact .refl _
    · exact .ite (.after (.deliverOwn ..) (.ite (.refl _) (.ite (.count2 ..) (.countBad ..))))
        (.after (.putPkt ..) <| .after (.feArrive ..) (.ite (.refl _) (.ite (.count2 ..) (.countBad ..))))

theorem fenceRelease (d : Dev) (k : Pkt) : FuseFrame d (d.fenceRelease k) := by
  unfold Dev.fenceRelease
  dsimp only
  split
  · exact .after (.takePkt ..) <| .after (.captureDrop ..) (.count2 ..)
  · exact .ite (.after (.takePkt ..) <| .after (.captureDrop ..) (.count2 ..)) (.forwardInOrder ..)

theorem stallNote (d : Dev) : FuseFrame d d.stallNote := by
  unfold Dev.stallNote
  exact .foldl (fun _ _ => .ite (.after (.inc ..) (.putPkt ..)) (.refl _)) _

theorem stallRelease (d : Dev) (k : Pkt) : FuseFrame d (d.stallRelease k) := by
  unfold Dev.stallRelease
  exact .ite (.after (.addPkt ..) (.inc ..)) (.fenceRelease ..)

theorem fenceGo (d : Dev) (id : Nat) : FuseFrame d (d.fenceGo id) := by
  unfold Dev.fenceGo
  split
  · exact .ite (.fenceRelease ..) (.refl _)
  · exact .refl _

theorem stallGo (d : Dev) (id : Nat) : FuseFrame d (d.stallGo id) := by
  unfold Dev.stallGo
  split
  · exact .ite (.stallRelease ..) (.refl _)
  · exact .refl _

theorem overflowDone (d : Dev) (k : Pkt) : FuseFrame d (d.overflowDone k) := by
  unfold Dev.overflowDone
  refine .after (.releaseBehind ..) <| .after (.emOutcome ..) (.ite_fst (.inc ..) ?_)
  split
  · next h => exact .snd h (.ovfRead ..)
  · next h => exact .snd h (.ovfRead ..)

end Sys2Proof.Machine.FuseFrame
end

section
/-! PROOFS. The fuse operation in progress under the functions of Machine/Crossbar.lean. -/
namespace Sys2Proof.Machine.FuseFrame

theorem movePtrs (d : Dev) (i j o v : Nat) : FuseFrame d (d.movePtrs i j o v) := .beside (.refl _)

theorem noteDepth (d : Dev) (o v : Nat) : FuseFrame d (d.noteDepth o v) := by
  unfold Dev.noteDepth
  exact .ite (.ite (.beside (.refl _)) (.refl _)) (.refl _)

theorem crossCell (d : Dev) (k : Pkt) (c : Copy) : FuseFrame d (d.crossCell k c) := by
  unfold Dev.crossCell
  exact .after (.noteDepth ..) <| .after (.putPkt ..) (.ite_snd (.beside (.refl d)) (.refl d))

theorem train (full : List Nat) (u o v n : Nat) (d : Dev) (ids : List Nat) : FuseFrame d (Dev.train full u o v n d ids).1 := by
  induction n generalizing d ids with
  | zero => exact .refl d
  | succ n ih =>
    unfold Dev.train
    refine .ite_fst ?_ (.refl _)
    split
    · exact .refl _
    · exact .after (ih ..) (.crossCell ..)

theorem partErr (d : Dev) (e : Dev.PartErr) (id out : Nat) : FuseFrame d (d.partErr e id out) := by
  unfold Dev.partErr
  dsimp only
  refine .ite (.refl _) ?_
  refine .ite (.after (.error ..) (.inc ..)) ?_
  split
  · exact .after (.error ..) (.inc ..)
  · exact .after (.putPkt ..) <| .after (.ite (.countBad ..) (.refl _)) <| .after (.error ..) (.inc ..)

theorem countSliceRuns (d : Dev) (errs : List Dev.PartErr) : FuseFrame d (d.countSliceRuns errs) := .beside (.refl _)

theorem slot (d : Dev) (full : List Nat) (errs : List Dev.PartErr) : FuseFrame d (d.slot full errs) := by
  unfold Dev.slot
  refine .ite (.beside (.refl _)) ?_
  refine .after (.countSliceRuns ..) ?_
  refine .after (.foldl (fun _ _ => .partErr ..) _) ?_
  refine .after (.foldl_fst (fun p x => ?_) _ _) <| .after (.pm ..) <| .after (.foldl (fun _ _ => .pm ..) _) <| .beside <|
    .after (.foldl (fun _ _ => .inc ..) _) <| .beside (.refl _)
  split
  · exact .refl _
  · next h3 =>
      split
      · next h3 =>
          exact .after (.pm ..) <| .after (.movePtrs ..) (.fst h3 (.train ..))

theorem dropWith (d : Dev) (k : Pkt) (o : Nat) (ptr : Option Nat) : FuseFrame d (d.dropWith k o ptr) := by
  unfold Dev.dropWith
  exact .ite (.takeWith ..) (.putPkt ..)

theorem dropCopy (d : Dev) (k : Pkt) (o : Nat) : FuseFrame d (d.dropCopy k o) := .dropWith ..

theorem ageLimitAt (d : Dev) (k : Pkt) (o : Option Nat) : FuseFrame d (d.ageLimitAt k o) := by
  unfold Dev.ageLimitAt
  refine .ite (.refl _) ?_
  split
  · exact .ite (.refl _) <| .ite (.after (.becomeNack ..) <| .after (.captureAt ..) (.inc ..)) <| .after (.takePkt ..) <|
      .after (.captureAt ..) (.inc ..)
  · split
    · exact .refl _
    · exact .ite (.ite (.ite (.after (.becomeNack ..) <| .after (.captureAt ..) (.inc ..)) <| .after (.becomeNack ..) <| .after (.dropCopy ..) <|
        .beside <| .after (.captureAt ..) (.inc ..)) <| .after (.dropCopy ..) <| .after (.captureAt ..) (.inc ..)) (.refl _)

end Sys2Proof.Machine.FuseFrame
end

section
/-! PROOFS. The fuse operation in progress under the functions of Machine/Egress.lean. -/
namespace Sys2Proof.Machine.FuseFrame

theorem gclWrite (d : Dev) (c len cyc : Nat) (cancel go : Bool) : FuseFrame d (d.gclWrite c len cyc cancel go) := by
  unfold Dev.gclWrite
  refine .ite ?_ ?_
  · refine .ite ?_ ?_
    · refine .beside ?_
      refine .after (.setFld ..) ?_
      refine .ite ?_ <| .after (.setFld ..) (.setFld ..)
      split
      · exact .after (.setFld ..) (.setFld ..)
      · exact .after (.ite (.beside (.setFld ..)) (.setFld ..)) <| .after (.setFld ..) (.setFld ..)
    · refine .after (.setFld ..) ?_
      refine .ite ?_ <| .after (.setFld ..) (.setFld ..)
      split
      · exact .after (.setFld ..) (.setFld ..)
      · exact .after (.ite (.beside (.setFld ..)) (.setFld ..)) <| .after (.setFld ..) (.setFld ..)
  · refine .ite ?_ <| .after (.setFld ..) (.setFld ..)
    split
    · exact .after (.setFld ..) (.setFld ..)
    · exact .after (.ite (.beside (.setFld ..)) (.setFld ..)) <| .after (.setFld ..) (.setFld ..)

theorem gclHandOver (d : Dev) : FuseFrame d d.gclHandOver :=
  .foldl (fun _ _ => .beside <| .after (.inc ..) <| .after (.setFld ..) <| .after (.setFld ..) <| .after (.setNum ..) <| .after (.setNum ..) <|
    .after (.setFld ..) (.setFld ..)) _

theorem setShLevel (d : Dev) (c v : Nat) (z : Int) : FuseFrame d (d.setShLevel c v z) := .setNum ..

theorem shRefill (d : Dev) (q : Nat) : FuseFrame d (d.shRefill q) := by
  unfold Dev.shRefill
  exact .ite (.beside (.setShLevel ..)) <| .beside (.setShLevel ..)

theorem noteFlags (d : Dev) (now q : Nat) : FuseFrame d (d.noteFlags now q) := by
  unfold Dev.noteFlags
  dsimp only
  split
  · exact .refl _
  · exact .beside (.refl _)

theorem noteAll (d : Dev) (now : Nat) : FuseFrame d (d.noteAll now) := .foldl (fun _ _ => .noteFlags ..) _

theorem noteDefer (d : Dev) (c v : Nat) : FuseFrame d (d.noteDefer c v) := by
  unfold Dev.noteDefer
  split
  · exact .refl _
  · exact .ite (.after (.inc ..) (.putPkt ..)) (.refl _)

theorem setTx (d : Dev) (c : Nat) (t : PortTx) : FuseFrame d (d.setTx c t) := .beside (.refl _)

theorem turnSettle (d : Dev) (c : Nat) : FuseFrame d (d.turnSettle c) := .setTx ..

theorem turnsSettle (d : Dev) : FuseFrame d d.turnsSettle := .foldl (fun _ _ => .turnSettle ..) _

theorem streamHeader (d : Dev) (c : Nat) (h : List Byte) : FuseFrame d (d.streamHeader c h) := by
  unfold Dev.streamHeader
  exact .ite (.setLk ..) (.refl _)

theorem streamRest (d : Dev) (c : Nat) (body : List Byte) : FuseFrame d (d.streamRest c body) := by
  unfold Dev.streamRest
  exact .ite (.setLk ..) (.refl _)

theorem begin (d : Dev) (c v : Nat) (t : PortTx) (k : Pkt) (x : Copy) : FuseFrame d (d.begin c v t k x) := by
  unfold Dev.begin
  exact .after (.ite (.after (.dropCopy ..) <| .after (.captureAt ..) (.inc ..)) <| .after (.streamHeader ..) <| .after (.emit ..) <|
    .after (.putPkt ..) <| .after (.setTx ..) <| .beside <| .after (.ite (.inc ..) (.refl _)) <| .after (.ite (.inc ..) (.refl _)) <|
    .ite (.setShLevel ..) (.refl _)) <| .ite (.inc ..) (.refl _)

theorem expelAged (d : Dev) (c : Nat) : FuseFrame d (d.expelAged c) := by
  unfold Dev.expelAged
  refine .foldl (fun e x => ?_) _
  split
  · exact .refl _
  · exact .ite (.ageLimitAt ..) (.refl _)

theorem choose (d : Dev) (c : Nat) : FuseFrame d (d.choose c) := by
  unfold Dev.choose
  dsimp only
  refine .ite (.refl _) ?_
  split
  · exact .after (.setTx ..) <| .after (.foldl (fun _ _ => .inc ..) _) <| .after (.foldl (fun _ _ => .noteDefer ..) _) (.expelAged ..)
  · exact .after (.begin ..) <| .after (.foldl (fun _ _ => .inc ..) _) <| .after (.foldl (fun _ _ => .noteDefer ..) _) (.expelAged ..)

theorem txComplete (d : Dev) (c : Nat) (ptr : Option Nat) : FuseFrame d (d.txComplete c ptr) := by
  unfold Dev.txComplete
  dsimp only
  split
  · exact .refl _
  · split
    · exact .setTx ..
    · exact .ite (.refl _) <| .after (.dropWith ..) <| .after (.streamRest ..) <| .after (.emit ..) <| .after (.incBy ..) <|
        .after (.inc ..) (.setTx ..)

theorem truncate (d : Dev) (k : Pkt) (got : List Byte) : FuseFrame d (d.truncate k got) := .after (.putPkt ..) (.foldl (fun _ _ => .inc ..) _)

theorem sampleQueue (d : Dev) (q : Nat) : FuseFrame d (d.sampleQueue q) := .beside <| .after (.setNum ..) (.setNum ..)

theorem sampleHot (d : Dev) (p : Nat) : FuseFrame d (d.sampleHot p) := by
  unfold Dev.sampleHot
  exact .after (.ite (.inc ..) (.refl _)) <| .after (.setNum ..) (.setNum ..)

theorem sampleAll (d : Dev) : FuseFrame d d.sampleAll := .after (.foldl (fun _ _ => .sampleHot ..) _) (.foldl (fun _ _ => .sampleQueue ..) _)

end Sys2Proof.Machine.FuseFrame
end

section
/-! PROOFS. The fuse operation in progress under the functions of Machine/Collective.lean. -/
namespace Sys2Proof.Machine.FuseFrame

theorem setVat (d : Dev) (v : Vats) : FuseFrame d (d.setVat v) := .beside (.refl _)

theorem putCtx (d : Dev) (c : Ctx) : FuseFrame d (d.putCtx c) := .setVat ..

theorem flushCtx (d : Dev) (lv slot : Nat) : FuseFrame d (d.flushCtx lv slot) := .setVat ..

theorem granBack (d : Dev) (c : Ctx) (ptr : Option (Nat × Nat × Nat)) : FuseFrame d (d.granBack c ptr) := by
  unfold Dev.granBack
  split
  · exact .refl _
  · exact .ite (.setVat ..) <| .after (.badPointer ..) (.setVat ..)

theorem recMake (d : Dev) (e : RecEnt) : FuseFrame d (d.recMake e) := by
  unfold Dev.recMake
  dsimp only
  refine .after (.setVat ..) ?_
  refine .ite (.setVat ..) ?_
  split
  · exact .after (.inc ..) <| .after (.setVat ..) (.setVat ..)
  · exact .setVat ..

theorem waitFor (d : Dev) (w : WaitRes) : FuseFrame d (d.waitFor w) := .setVat ..

theorem notice (d : Dev) (b group stream chunk outcome : Nat) (pay : List Byte) : FuseFrame d (d.notice b group stream chunk outcome pay) := by
  unfold Dev.notice
  exact .ite (.refl _) <| .after (.ite (.waitFor ..) (.refl _)) (.waitFor ..)

theorem feDiscard (d : Dev) (b : Nat) (k : Pkt) (counter cause : Nat) : FuseFrame d (d.feDiscard b k counter cause) := by
  unfold Dev.feDiscard
  exact .after (.takePkt ..) <| .after (.captureDrop ..) <| .ite (.refl _) (.inc ..)

theorem descInvalid (d : Dev) (table index : Nat) : FuseFrame d (d.descInvalid table index) := by
  unfold Dev.descInvalid
  exact .ite (.beside (.refl _)) <| .ite (.beside (.refl _)) <| .beside (.refl _)

theorem descError (d : Dev) (e : DescErr) (part grp : Option Nat) : FuseFrame d (d.descError e part grp) := by
  unfold Dev.descError
  dsimp only
  refine .ite (.after (.softRepair ..) (.error ..)) ?_
  split
  · exact .after (.partitionFatal ..) <| .after (.descInvalid ..) (.softRepair ..)
  · exact .after (.error ..) <| .after (.descInvalid ..) (.softRepair ..)

theorem descMet (d : Dev) (e : Option DescErr) (part grp : Option Nat) : FuseFrame d (d.descMet e part grp) := by
  unfold Dev.descMet
  split
  · exact .descError ..
  · exact .refl _

theorem descRead (d : Dev) (part grp : Option Nat) (reads : DescErr → Bool) : FuseFrame d (d.descRead part grp reads) := by
  unfold Dev.descRead
  split
  · exact .refl _
  · exact .after (.descError ..) <| .beside (.refl _)

theorem contribAccept (d : Dev) (b : Nat) (err : Option DescErr) : FuseFrame d (d.contribAccept b err) := by
  unfold Dev.contribAccept
  split
  · exact .refl _
  · refine .ite (.feDiscard ..) ?_
    refine .ite (.after (.feDiscard ..) (.descMet ..)) ?_
    split
    · exact .after (.feDiscard ..) (.descMet ..)
    · exact .after (.putPkt ..) <| .beside (.descMet ..)

theorem deflect (d : Dev) (b : Nat) (k : Pkt) (g : GDesc) : FuseFrame d (d.deflect b k g) :=
  .after (.routeHeld ..) <| .after (.addPkt ..) <| .after (.cellsMove ..) <| .after (.pm ..) (.inc ..)

theorem watchUpdate (d : Dev) (c : Ctx) (code : Nat) : FuseFrame d (d.watchUpdate c code) := by
  unfold Dev.watchUpdate
  exact .foldl (fun _ _ => .ite (.beside <| .after (.incBy ..) (.inc ..)) (.refl _)) _

theorem addTo (d : Dev) (c : Ctx) (k : Pkt) : FuseFrame d (d.addTo c k) := by
  unfold Dev.addTo
  exact .after (.ite (.after (.watchUpdate ..) (.recMake ..)) (.refl _)) <| .after (.setVat ..) <| .after (.takePkt ..) <|
    .after (.inc ..) (.putCtx ..)

theorem faultRecord (d : Dev) (lv slot stream chunk group cause pc : Nat) (miss : List Nat) (expected got openNs : Nat) : FuseFrame d
    (d.faultRecord lv slot stream chunk group cause pc miss expected got openNs) :=
  .after (.error ..) <| .after (.notice ..) <| .after (.recMake ..) <| .after (.inc ..) <| .after (.setNum ..) (.setNum ..)

theorem deflectChunk (d : Dev) (lv stream chunk group : Nat) : FuseFrame d (d.deflectChunk lv stream chunk group) :=
  .after (.notice ..) <| .after (.inc ..) (.recMake ..)

theorem builtinRan (d : Dev) (b recipe h : Nat) : FuseFrame d (d.builtinRan b recipe h) := by
  unfold Dev.builtinRan
  exact .ite (.pm ..) (.refl _)

theorem vatHandle (d : Dev) (lv : Nat) (k : Pkt) : FuseFrame d (d.vatHandle lv k) := by
  unfold Dev.vatHandle
  dsimp only
  split
  · exact .ite (.after (.deflect ..) (.setVat ..)) <| .ite (.after (.deflect ..) (.deflectChunk ..)) (.feDiscard ..)
  · split
    · exact .ite (.feDiscard ..) <| .ite (.addTo ..) (.refl _)
    · refine .ite (.after (.deflect ..) (.deflectChunk ..)) ?_
      refine .ite (.after (.feDiscard ..) (.faultRecord ..)) ?_
      refine .ite (.after (.feDiscard ..) (.faultRecord ..)) ?_
      split
      · exact .after (.deflect ..) <| .after (.deflectChunk ..) <| .ite (.inc ..) (.refl _)
      · exact .ite (.refl _) <| .after (.addTo ..) <| .after (.setVat ..) <| .after (.builtinRan ..) <| .after (.pm ..) <| .after (.pm ..) (.inc ..)

theorem vatContribution (d : Dev) (lv : Nat) (err : Option DescErr) : FuseFrame d (d.vatContribution lv err) := by
  unfold Dev.vatContribution
  split
  · exact .refl _
  · exact .after (.ite (.feDiscard ..) (.vatHandle ..)) (.descMet ..)

theorem chunkTimeout (d : Dev) (lv slot : Nat) (ptr : Option (Nat × Nat × Nat)) (err : Option DescErr) :
    FuseFrame d (d.chunkTimeout lv slot ptr err) := by
  unfold Dev.chunkTimeout
  split
  · exact .refl _
  · exact .ite (.refl _) <| .after (.granBack ..) <| .after (.error ..) <| .after (.ite (.refl _) (.notice ..)) <| .after (.recMake ..) <|
      .after (.inc ..) <| .after (.flushCtx ..) (.descMet ..)

theorem recExpire (d : Dev) (lv stream chunk : Nat) : FuseFrame d (d.recExpire lv stream chunk) := by
  unfold Dev.recExpire
  split
  · exact .refl _
  · exact .ite (.refl _) (.setVat ..)

theorem chunkFlags (d : Dev) (c : Ctx) : FuseFrame d (d.chunkFlags c) := by
  unfold Dev.chunkFlags
  exact .after (.ite (.inc ..) (.refl _)) <| .after (.ite (.inc ..) (.refl _)) (.inc ..)

theorem resultLost (d : Dev) (c : Ctx) : FuseFrame d (d.resultLost c) := by
  unfold Dev.resultLost
  exact .ite (.after (.inc ..) (.flushCtx ..)) (.putCtx ..)

theorem sendResult (d : Dev) (c : Ctx) (pay : List Byte) : FuseFrame d (d.sendResult c pay) := by
  unfold Dev.sendResult
  exact .after (.ite (.resultLost ..) <| .after (.foldl (fun _ _ => .waitFor ..) _) (.putCtx ..)) <| .after (.chunkFlags ..) (.descRead ..)

theorem resultAdmit (d : Dev) (b : Nat) (err : Option Dev.ResErr) : FuseFrame d (d.resultAdmit b err) := by
  unfold Dev.resultAdmit
  split
  · exact .refl _
  · next w _ =>
    extract_lets +onlyGivenNames take
    have htake : ∀ e, FuseFrame e (take e) := fun e => .setVat e _
    clear_value take
    refine .ite ?_ ?_
    · split
      next lv slot _ =>
      extract_lets +onlyGivenNames vat d1 d2
      have h1 : FuseFrame d d1 := .setVat d _
      have h2 : FuseFrame d1 d2 := .ite (.after (.inc ..) (.flushCtx ..)) (.refl d1)
      exact .after (.partitionFatal d2 ..) (.after h2 h1)
    · extract_lets +onlyGivenNames d1 n
      have h1 : FuseFrame d d1 := by
        unfold d1
        split
        · exact .partitionFatal ..
        · exact .refl _
      refine .after ?_ h1
      clear_value d1
      refine .ite (.refl _) ?_
      split
      next id d2 hid =>
      refine .after ?_ (.snd hid (.after (.freshId (take d1)) (htake d1)))
      clear hid
      extract_lets +onlyGivenNames src h
      split
      next k d3 hk =>
      refine .after ?_ (.snd hk (.chargeMain d2 ..))
      clear hk
      extract_lets +onlyGivenNames d4 d5
      have h4 : FuseFrame d3 d4 := .after (.countAdmit ..) (.addPkt d3 k)
      have h5 : FuseFrame d4 d5 := by
        unfold d5
        clear_value d4
        split
        · exact .after (.ite (.after (.takePkt ..) (.captureDrop ..)) (.queueTo ..)) (.incBy d4 ..)
        · exact .routeHeld ..
      refine .after ?_ (.after h5 h4)
      clear_value d5
      refine .ite ?_ (.refl _)
      split
      next lv slot _ =>
      split
      · exact .refl _
      · exact .after (.granBack ..) (.flushCtx ..)

theorem putSlot (d : Dev) (s : LSlot) : FuseFrame d (d.putSlot s) := .beside (.refl _)

theorem freeSlot (d : Dev) (s : LSlot) : FuseFrame d (d.freeSlot s) := .beside (.refl _)

theorem sendAck (d : Dev) (s : LSlot) (own : Option (List Byte)) : FuseFrame d (d.sendAck s own) := .after (.waitFor ..) (.putSlot ..)

theorem ackAccept (d : Dev) (b : Nat) (err : Option DescErr) : FuseFrame d (d.ackAccept b err) := by
  unfold Dev.ackAccept
  split
  · exact .refl _
  · refine .ite (.feDiscard ..) ?_
    refine .ite (.after (.feDiscard ..) (.descMet ..)) ?_
    split
    · exact .after (.feDiscard ..) (.descMet ..)
    · exact .after (.ite (.feDiscard ..) <| .ite (.feDiscard ..) <| .ite (.feDiscard ..) <|
        .after (.ite (.after (.inc ..) (.sendAck ..)) (.refl _)) <| .after (.ite (.beside (.refl _)) (.putSlot ..)) (.takePkt ..)) (.descMet ..)

theorem launchTimeout (d : Dev) (b stream chunk : Nat) (err : Option DescErr) : FuseFrame d (d.launchTimeout b stream chunk err) := by
  unfold Dev.launchTimeout
  split
  · exact .refl _
  · exact .ite (.refl _) <| .after (.error ..) <| .after (.inc ..) <| .after (.ite (.putSlot ..) (.sendAck ..)) (.descMet ..)

theorem launchFree (d : Dev) (b stream chunk : Nat) : FuseFrame d (d.launchFree b stream chunk) := by
  unfold Dev.launchFree
  split
  · exact .refl _
  · exact .ite (.refl _) (.freeSlot ..)

theorem watchReset (d : Dev) : FuseFrame d d.watchReset := by
  unfold Dev.watchReset
  exact .foldl (fun _ _ => .ite (.refl _) <| .beside <| .after (.clearCtr ..) (.clearCtr ..)) _

end Sys2Proof.Machine.FuseFrame
end

section
/-! PROOFS. The fuse operation in progress under the functions of Machine/VatMath.lean. -/
namespace Sys2Proof.Machine.FuseFrame

theorem putRun (d : Dev) (r : Run) : FuseFrame d (d.putRun r) := .setVat ..

theorem endRun (d : Dev) (lv : Nat) : FuseFrame d (d.endRun lv) := .setVat ..

theorem startRun (d : Dev) (c : Ctx) (kind : Handler) (arr : Nat) (e : StepEv) : FuseFrame d (d.startRun c kind arr e) := by
  unfold Dev.startRun
  split
  · exact .refl _
  · exact .putRun ..

theorem handlerStep (d : Dev) (lv : Nat) : FuseFrame d (d.handlerStep lv) := by
  unfold Dev.handlerStep
  split
  · split
    · exact .refl _
    · refine .ite (.startRun ..) ?_
      refine .ite (.after (.builtinRan ..) <| .after (.putCtx ..) (.setVat ..)) ?_
      refine .ite (.refl _) ?_
      split
      · exact .refl _
      · exact .after (.ite (.after (.builtinRan ..) (.setVat ..)) <| .after (.startRun ..) (.setVat ..)) <| .after (.putCtx ..) (.setVat ..)
  · exact .refl _

theorem putJob (d : Dev) (j : ArrJob) : FuseFrame d (d.putJob j) := .setVat ..

theorem arrayOpComplete (d : Dev) (lv arr : Nat) : FuseFrame d (d.arrayOpComplete lv arr) := by
  unfold Dev.arrayOpComplete
  dsimp only
  split
  · exact .refl _
  · split
    · exact .refl _
    · split
      · exact .putJob ..
      · exact .after (.incBy ..) <| .after (.incBy ..) <| .after (.putCtx ..) (.putJob ..)

theorem handlerFinal (d : Dev) (lv slot : Nat) : FuseFrame d (d.handlerFinal lv slot) := by
  unfold Dev.handlerFinal
  split
  · exact .refl _
  · exact .ite (.refl _) <| .ite (.after (.sendResult ..) <| .after (.ite (.inc ..) (.refl _)) <| .after (.builtinRan ..) (.incBy ..)) (.startRun ..)

end Sys2Proof.Machine.FuseFrame
end

section
/-! PROOFS. The fuse operation in progress under the functions of Machine/Seq.lean. -/
namespace Sys2Proof.Machine.FuseFrame

theorem recipeFault (d : Dev) (r : Run) (c : Ctx) (cause : Nat) : FuseFrame d (d.recipeFault r c cause) :=
  .after (.faultRecord ..) <| .after (.setVat ..) <| .after (.flushCtx ..) (.descRead ..)

/-- What an instruction of the vat sequencer answers leaves the fuse operation as it was. -/
def Issued (d : Dev) : SeqRes → Prop
  | .go e _ => FuseFrame d e
  | .done e => FuseFrame d e
  | .bad _ => True

theorem Issued.ite {p : Prop} [Decidable p] {d : Dev} {x y : SeqRes} (h : Issued d x) (k : Issued d y) : Issued d (if p then x else y) := by
  split
  · exact h
  · exact k

theorem issue (d : Dev) (lv opc : Nat) (ecc : Bool) {act : Dev → Run → Ctx → Nat → SeqRes} (h : ∀ d r c w, Issued d (act d r c w)) :
    FuseFrame d (d.issue lv opc ecc act) := by
  unfold Dev.issue
  split
  · exact .refl _
  · split
    · exact .refl _
    · next r _ _ c _ =>
      refine .ite (.refl _) <| .ite (.recipeFault ..) <| .ite (.recipeFault ..) <| .ite (.refl _) ?_
      have a := h d r c (d.imemAt r.pc)
      generalize act d r c (d.imemAt r.pc) = x at a ⊢
      cases x with
      | go e r => exact .after (.putRun e r) a
      | done e => exact a
      | bad cause => exact .recipeFault ..

theorem budgetExpire (d : Dev) (lv : Nat) : FuseFrame d (d.budgetExpire lv) := by
  unfold Dev.budgetExpire
  split
  · exact .refl _
  · split
    · exact .refl _
    · exact .ite (.recipeFault ..) (.refl _)

theorem msgDeliver (d : Dev) (src dst : Nat) : FuseFrame d (d.msgDeliver src dst) := by
  unfold Dev.msgDeliver
  split
  · exact .refl _
  · exact .setVat ..

theorem dropMsgs (d : Dev) (f : Msg → Bool) : FuseFrame d (d.dropMsgs f) := .after (.setVat ..) (.foldl (fun _ _ => .inc ..) _)

theorem msgExpire (d : Dev) (lv : Nat) : FuseFrame d (d.msgExpire lv) := by
  unfold Dev.msgExpire
  split
  · exact .refl _
  · exact .ite (.refl _) (.dropMsgs ..)

end Sys2Proof.Machine.FuseFrame
end

section
/-! PROOFS. The fuse operation in progress under the functions of Machine/CeWindow.lean. -/
namespace Sys2Proof.Machine.FuseFrame

theorem cePut (d : Dev) (table index : Nat) (v : List Byte) : FuseFrame d (d.cePut table index v) := by
  unfold Dev.cePut
  exact .ite (.beside (.refl _)) <| .ite (.beside (.refl _)) <| .ite (.beside (.refl _)) (.refl _)

theorem flushAll (d : Dev) (f : Ctx → Bool) (g : LSlot → Bool) : FuseFrame d (d.flushAll f g) := by
  unfold Dev.flushAll
  exact .after (.foldl (fun _ _ => .after (.ite (.refl _) (.inc ..)) (.freeSlot ..)) _) (.foldl (fun _ _ => .after (.inc ..) (.flushCtx ..)) _)

theorem dropRecs (d : Dev) (f : RecEnt → Bool) : FuseFrame d (d.dropRecs f) := .setVat ..

theorem ceInval (d : Dev) (table index : Nat) : FuseFrame d (d.ceInval table index) := by
  unfold Dev.ceInval
  exact .ite (.after (.dropMsgs ..) <| .after (.dropRecs ..) <| .after (.flushAll ..) (.descInvalid ..)) <|
    .ite (.after (.dropRecs ..) <| .after (.flushAll ..) (.descInvalid ..)) <| .beside (.refl _)

theorem ceDo (d : Dev) (op table index : Nat) (v : List Byte) (err : Option DescErr) : FuseFrame d (d.ceDo op table index v err).1 := by
  unfold Dev.ceDo
  exact .ite_fst (.descMet ..) <| .ite_fst (.descMet ..) <| .ite_fst (.after (.cePut ..) (.descMet ..)) <| .after (.ceInval ..) (.descMet ..)

theorem ceTwBegin (d : Dev) (op table index : Nat) : FuseFrame d (d.ceTwBegin op table index) := by
  unfold Dev.ceTwBegin
  exact .ite (.setFld ..) <| .after (.ite (.after (.descInvalid ..) (.refl _)) (.refl _)) <| .beside (.setFld ..)

theorem ceTwStart (d : Dev) (op table : Nat) : FuseFrame d (d.ceTwStart op table) := .ceTwBegin ..

theorem ceTwComplete (d : Dev) (err : Option DescErr) : FuseFrame d (d.ceTwComplete err) := by
  unfold Dev.ceTwComplete
  split
  · exact .refl _
  · refine .ite (.refl _) <| .after (.setFld ..) <| .after (.setFld ..) <| .after (.ite (.foldl (fun _ _ => .setNum ..) _) (.refl _)) ?_
    exact .ite_fst (.after (.ceDo ..) (.beside (.refl d))) (.beside (.refl d))

theorem abortBegin (d : Dev) (part cause rseq : Nat) : FuseFrame d (d.abortBegin part cause rseq) := by
  unfold Dev.abortBegin
  exact .ite (.refl _) <| .ite (.beside (.refl _)) <| .beside (.setFld ..)

theorem abortRequest (d : Dev) (part : Nat) : FuseFrame d (d.abortRequest part).1 := by
  unfold Dev.abortRequest
  exact .ite_fst (.setFld ..) (.abortBegin ..)

theorem dropWaits (d : Dev) (p : WaitRes → Bool) : FuseFrame d (d.dropWaits p) := by
  unfold Dev.dropWaits
  exact .after (.foldl (fun _ _ => .ite (.capture ..) (.refl _)) _) (.setVat ..)

theorem abortPkt (d : Dev) (k : Pkt) : FuseFrame d (d.abortPkt k).1 := by
  unfold Dev.abortPkt
  exact .ite_fst (.after (.takePkt ..) (.captureAt ..)) <| .after (.foldl (fun _ _ => .captureAt ..) _) (.putPkt ..)

theorem abortPkts (d : Dev) (f : Pkt → Bool) : FuseFrame d (d.abortPkts f).1 := by
  refine .foldl_fst (fun p x => ?_) (d.core.pkts.filter f) (d, 0)
  split
  · exact .refl _
  · exact .abortPkt ..

theorem abortRun (d : Dev) : FuseFrame d d.abortRun := by
  unfold Dev.abortRun
  split
  · exact .refl _
  · next part cause rseq _ =>
    extract_lets +onlyGivenNames ce d1 hitC hitS named groups streams d2 d3 d4 d5
    have h1 : FuseFrame d d1 := .beside (.refl d)
    clear_value d1
    have h2 : FuseFrame d1 d2 := .descRead ..
    have h3 : FuseFrame d2 d3 := .flushAll ..
    have h4 : FuseFrame d3 d4 := .after (.dropMsgs ..) (.dropRecs ..)
    have h5 : FuseFrame d4 d5 := .dropWaits ..
    have h := FuseFrame.after h5 <| .after h4 <| .after h3 <| .after h2 h1
    clear_value d5
    split
    next d6 freed hp =>
    replace h := FuseFrame.after (.fst hp (.abortPkts ..)) h
    clear hp
    extract_lets +onlyGivenNames d7 e pay d8 d9 d10 d11 d12 d13 faults d14
    have h7 : FuseFrame d6 d7 := .incBy ..
    have h8 : FuseFrame d7 d8 := .ite (.waitFor ..) (.refl d7)
    have h9 : FuseFrame d8 d9 := by
      refine .foldl (fun x g => ?_) d8
      split
      · exact .notice ..
      · exact .refl _
    have h10 : FuseFrame d9 d10 := .inc ..
    have h11 : FuseFrame d10 d11 := .error ..
    have h12 : FuseFrame d11 d12 := .event ..
    replace h := FuseFrame.after h12 <| .after h11 <| .after h10 <| .after h9 <| .after h8 <| .after h7 h
    clear_value d12
    have h13 : FuseFrame d12 d13 := .setFld ..
    have h14 : FuseFrame d13 d14 := .beside (.refl d13)
    replace h := FuseFrame.after h14 <| .after h13 h
    clear_value d14
    refine .after ?_ h
    split
    · exact .refl _
    · exact .after (.abortBegin ..) (.beside (.refl d14))

end Sys2Proof.Machine.FuseFrame
end

section
/-! PROOFS. The fuse operation in progress under the functions of Machine/Link.lean. -/
namespace Sys2Proof.Machine.FuseFrame

theorem setStat (d : Dev) (c : Nat) (f : FR) (v : Nat) : FuseFrame d (d.setStat c f v) := .setFld ..

theorem setState (d : Dev) (c s : Nat) : FuseFrame d (d.setState c s) := .setStat ..

theorem updLk (d : Dev) (c : Nat) (f : Lk → Lk) : FuseFrame d (d.updLk c f) := .setLk ..

theorem setRing (d : Dev) (p j : Nat) (rx : Bool) (s : Nat) : FuseFrame d (d.setRing p j rx s) := by
  unfold Dev.setRing
  exact .ite (.beside (.refl _)) (.setFld ..)

theorem setLight (d : Dev) (p j : Nat) (on : Bool) : FuseFrame d (d.setLight p j on) := .beside (.setFld ..)

theorem readFrom (d : Dev) (p j : Nat) (rx : Bool) : FuseFrame d (d.readFrom p j rx) := .beside (.refl _)

theorem syncLanes (d : Dev) (c : Nat) : FuseFrame d (d.syncLanes c) :=
  .after (.setNum ..) <| .after (.setFld ..) <| .after (.setFld ..) <| .after (.setFld ..) <| .after (.setFld ..) (.setStat ..)

theorem enterLight (d : Dev) (c : Nat) : FuseFrame d (d.enterLight c) := by
  unfold Dev.enterLight
  exact .after (.setFld ..) <| .after (.setStat ..) <| .after (.setStat ..) <| .after (.setLk ..) <|
    .after (.ite (.after (.setRing ..) (.setRing ..)) (.refl _)) <|
    .after (.foldl (fun _ _ => .after (.readFrom ..) <| .after (.setLight ..) <| .after (.ite (.setRing ..) (.refl _)) <|
    .ite (.setRing ..) (.refl _)) _) <| .after (.setState ..) <| .after (.ite (.refl _) <| .after (.setNum ..) (.setState ..)) <| .beside (.refl _)

theorem trainPort (d : Dev) (p : Nat) : FuseFrame d (d.trainPort p) := by
  unfold Dev.trainPort
  exact .after (.ite (.enterLight ..) (.refl _)) (.enterLight ..)

theorem enterAlign (d : Dev) (c : Nat) : FuseFrame d (d.enterAlign c) := .beside <| .after (.setLk ..) <| .after (.setStat ..) (.setState ..)

theorem restartAlign (d : Dev) (c : Nat) : FuseFrame d (d.restartAlign c) := .after (.enterAlign ..) (.inc ..)

theorem wireError (d : Dev) (oe : Nat) (e : Dev.WireErr) : FuseFrame d (d.wireError oe e) := by
  unfold Dev.wireError
  split
  · exact .error ..
  · exact .after (.pushTodo ..) <| .after (.pushTodo ..) (.error ..)

theorem trainingSend (d : Dev) (c j row : Nat) (ready : Bool) : FuseFrame d (d.trainingSend c j row ready).2 := by
  unfold Dev.trainingSend
  generalize scrMsg = f
  extract_lets b
  clear_value b
  generalize f _ _ _ = p
  obtain ⟨s, msg⟩ := p
  exact .beside (.refl d)

theorem trainingRow (d : Dev) (c row : Nat) (ready : Bool) (js : List Nat) : FuseFrame d (d.trainingRow c row ready js).2 := by
  refine .foldl_snd (fun p j => ?_) (js.filter (d.trains (c / 2))) ([], d)
  exact .trainingSend p.2 c j row ready

theorem drawStream (d : Dev) (c n : Nat) (data : List Byte) {x : List (Byte × Bool) × Dev} (h : d.drawStream c n data = some x) : FuseFrame d x.2 := by
  unfold Dev.drawStream at h
  extract_lets +onlyGivenNames l1 l a m e idle plain at h
  refine .after ?_ (show FuseFrame d e from .setLk ..)
  clear_value e
  split at h
  · cases h
    exact .refl _
  · split at h
    · cases h
      exact .refl _
    · dsimp only at h
      split at h
      · cases h
        exact .refl _
      · split at h
        · cases h
          dsimp only
          exact .updLk ..
        · split at h
          · cases h
          · cases h
            dsimp only
            exact .after (.updLk ..) (.putPkt ..)

theorem rowPut (d : Dev) (c : Nat) (row : List (Byte × Bool)) : FuseFrame d (d.rowPut c row) := .updLk ..

theorem rowTake (d : Dev) (c : Nat) (data : List Byte) {e : Dev} (h : d.rowTake c data = some e) : FuseFrame d e := by
  unfold Dev.rowTake at h
  obtain ⟨x, hx, rfl⟩ := Option.map_eq_some_iff.mp h
  show FuseFrame d (x.2.rowPut c x.1)
  exact .after (.rowPut x.2 c x.1) (drawStream _ _ _ _ hx)

theorem shortStream (d : Dev) (c n : Nat) : FuseFrame d (d.shortStream c n).2 := by
  unfold Dev.shortStream
  extract_lets +onlyGivenNames l a m
  split
  extract_lets known lack r body
  dsimp only
  refine .after (.updLk r.2 ..) ?_
  refine .foldl_snd (fun p x => ?_) (List.range lack) ([], d)
  exact .draw p.2

theorem sendRow (d : Dev) (c : Nat) : FuseFrame d (d.sendRow c) :=
  .after (.emit ..) <| .after (.setLk ..) (.trainingRow ..)

theorem ctlSlot (d : Dev) (c typ body : Nat) : FuseFrame d (d.ctlSlot c typ body) := by
  unfold Dev.ctlSlot
  exact .after (.ite (.sendRow ..) (.refl _)) <| .after (.emit ..) (.setLk ..)

theorem txChange (d : Dev) (c : Nat) (x : LaneCmd) : FuseFrame d (d.txChange c x) := by
  unfold Dev.txChange
  exact .after (.syncLanes ..) <| .ite (.setLk ..) <| .ite (.setLk ..) <| .after (.setFld ..) (.setLk ..)

theorem flushPort (d : Dev) (c : Nat) : FuseFrame d (d.flushPort c) := by
  unfold Dev.flushPort
  refine .after (.setTx ..) ?_
  refine .foldl (fun e x => ?_) _
  split
  · exact .refl _
  · split
    · exact .refl _
    · exact .ite (.dropCopy ..) <| .after (.dropCopy ..) <| .after (.captureAt ..) (.inc ..)

theorem cutSource (d : Dev) (c : Nat) : FuseFrame d (d.cutSource c) := by
  unfold Dev.cutSource
  refine .after (.setRx ..) ?_
  refine .foldl (fun e x => ?_) _
  split
  · exact .refl _
  · exact .ite (.truncate ..) <| .after (.takePkt ..) (.captureFree ..)

theorem ringsOff (d : Dev) (c : Nat) : FuseFrame d (d.ringsOff c) := .foldl (fun _ _ => .after (.setRing ..) (.setRing ..)) _

theorem setCal (d : Dev) (v : Option Cal) : FuseFrame d (d.setCal v) := .beside (.refl _)

theorem calRing (d : Dev) (p j : Nat) (rx : Bool) : FuseFrame d (d.calRing p j rx) := by
  unfold Dev.calRing
  exact .ite (.after (.readFrom ..) (.setRing ..)) (.refl _)

theorem dropCal (d : Dev) (p : Nat) : FuseFrame d (d.dropCal p) := by
  unfold Dev.dropCal
  split
  · exact .ite (.after (.maintEnd ..) <| .after (.setCal ..) <| .after (.setFld ..) <| .after (.calRing ..) (.calRing ..)) (.refl _)
  · exact .refl _

theorem dropActs (d : Dev) (c : Nat) : FuseFrame d (d.dropActs c) := .foldl (fun _ _ => .maintEnd ..) _

theorem downRow (d : Dev) (c : Nat) : FuseFrame d (d.downRow c) := by
  unfold Dev.downRow
  refine .ite (.refl _) ?_
  extract_lets e
  have he : FuseFrame d e := by
    unfold e
    split
    · exact .ite (.txChange ..) (.refl _)
    · exact .refl _
  clear_value e
  refine .after ?_ he
  split
  · next h => exact .rowTake _ _ _ h
  · exact .after (.rowPut ..) (.shortStream ..)

theorem downSlot (d : Dev) (c typ body : Nat) : FuseFrame d (d.downSlot c typ body) := .after (.ctlSlot ..) (.downRow ..)

theorem downFill (n : Nat) (d : Dev) (c row : Nat) : FuseFrame d (Dev.downFill n d c row) := by
  induction n generalizing d with
  | zero => exact .refl d
  | succ n ih => exact .ite (.refl _) (.after (ih _) (.downSlot ..))

theorem sendDown (d : Dev) (c cause : Nat) : FuseFrame d (d.sendDown c cause) :=
  .after (.downFill ..) <| .after (.foldl (fun _ _ => .downSlot ..) _) <| .after (.updLk ..) (.emit ..)

theorem linkDown (d : Dev) (c cause : Nat) : FuseFrame d (d.linkDown c cause) := by
  unfold Dev.linkDown
  exact .ite (.refl _) <| .after (.event ..) <| .after (.ite (.error ..) (.refl _)) <| .after (.setFld ..) <| .after (.setFld ..) <|
    .after (.setState ..) <| .after (.setLk ..) <| .after (.ite (.ringsOff ..) (.refl _)) <| .after (.setStat ..) <| .after (.inc ..) <|
    .after (.dropActs ..) <| .after (.dropCal ..) <| .after (.cutSource ..) <| .after (.flushPort ..) <| .ite (.sendDown ..) (.refl _)

theorem portOff (d : Dev) (p : Nat) : FuseFrame d (d.portOff p) := by
  unfold Dev.portOff
  exact .after (.ite (.refl _) (.foldl (fun _ _ => .after (.setRing ..) (.setRing ..)) _)) <|
    .after (.foldl (fun _ _ => .ite (.setState ..) (.linkDown ..)) _) (.setFld ..)

theorem startPort (d : Dev) (p : Nat) : FuseFrame d (d.startPort p) := by
  unfold Dev.startPort
  exact .ite (.trainPort ..) (.refl _)

theorem portOn (d : Dev) (p : Nat) : FuseFrame d (d.portOn p) := .after (.startPort ..) (.setFld ..)

theorem startRows (d : Dev) (c : Nat) : FuseFrame d (d.startRows c) := by
  unfold Dev.startRows
  dsimp only
  split
  · exact .after (.syncLanes ..) <| .after (.setState ..) (.setLk ..)
  · exact .linkDown ..

theorem decodeLane (d : Dev) (p j : Nat) (cw : List Nat) : FuseFrame d (d.decodeLane p j cw).2 := by
  unfold Dev.decodeLane
  split
  · exact .beside <| .after (.incBy ..) (.incBy ..)
  · exact .beside <| .after (.incBy ..) (.inc ..)

theorem trainingLate (d : Dev) (c j : Nat) (msg : List Nat) (v : Nat) : FuseFrame d (d.trainingLate c j msg v) := .updLk ..

theorem trainingRun (d : Dev) (c j : Nat) (good : Bool) : FuseFrame d (d.trainingRun c j good) := by
  unfold Dev.trainingRun
  exact .after (.ite (.after (.setStat ..) (.updLk ..)) (.refl _)) (.updLk ..)

theorem trainingCodeword (d : Dev) (c j : Nat) (cw : List Nat) : FuseFrame d (d.trainingCodeword c j cw) := by
  unfold Dev.trainingCodeword
  dsimp only
  refine .ite (.refl _) ?_
  split
  · next h2 =>
      exact .after (.trainingRun ..) (.snd h2 (.decodeLane ..))
  · next h3 =>
      split
      · exact .beside <| .after (.trainingRun ..) (.snd h3 (.decodeLane ..))
      · exact .after (.ite (.refl _) <| .ite (.trainingLate ..) <| .after (.ite (.startRows ..) (.refl _)) (.setLk ..)) <| .beside <|
          .after (.trainingRun ..) (.snd h3 (.decodeLane ..))

theorem enterUp (d : Dev) (c lvl : Nat) : FuseFrame d (d.enterUp c lvl) :=
  .after (.event ..) <| .after (.setFld ..) <| .after (.updLk ..) <| .after (.setState ..) (.setStat ..)

theorem identDone (d : Dev) (c : Nat) : FuseFrame d (d.identDone c) := by
  unfold Dev.identDone
  exact .ite (.after (.setLk ..) (.setState ..)) (.refl _)

theorem featureDone (d : Dev) (c : Nat) : FuseFrame d (d.featureDone c) := by
  unfold Dev.featureDone
  split
  · exact .ite (.enterUp ..) (.refl _)
  · exact .refl _

theorem trainMsg (d : Dev) (c chip port : Nat) (split : Bool) (row first : Nat) : FuseFrame d (d.trainMsg c chip port split row first) := by
  unfold Dev.trainMsg
  exact .ite (.refl _) <| .after (.ite (.linkDown ..) <| .after (.identDone ..) (.updLk ..)) <| .after (.updLk ..) (.setNum ..)

theorem echoReq (d : Dev) (c row : Nat) : FuseFrame d (d.echoReq c row) := by
  unfold Dev.echoReq
  exact .ite (.updLk ..) (.refl _)

theorem echoResp (d : Dev) (c row turn : Nat) : FuseFrame d (d.echoResp c row turn) := by
  unfold Dev.echoResp
  dsimp only
  split
  · exact .ite (.refl _) <| .after (.identDone ..) <| .after (.setLk ..) <| .after (.ite (.event ..) (.refl _)) <| .after (.setStat ..) (.setNum ..)
  · exact .refl _

theorem featureMsg (d : Dev) (c lvl : Nat) : FuseFrame d (d.featureMsg c lvl) := by
  unfold Dev.featureMsg
  exact .ite (.after (.featureDone ..) (.updLk ..)) (.refl _)

theorem trainingTimeout (d : Dev) (c : Nat) : FuseFrame d (d.trainingTimeout c) := by
  unfold Dev.trainingTimeout
  exact .ite (.restartAlign ..) (.refl _)

theorem holdoffExpire (d : Dev) (c : Nat) : FuseFrame d (d.holdoffExpire c) := by
  unfold Dev.holdoffExpire
  exact .ite (.ite (.enterLight ..) (.trainPort ..)) (.refl _)

theorem lightExit (d : Dev) (c : Nat) : FuseFrame d (d.lightExit c) := by
  unfold Dev.lightExit
  split
  · exact .ite (.after (.enterAlign ..) (.updLk ..)) (.refl _)
  · exact .refl _

theorem timeBody (d : Dev) (c : Nat) : FuseFrame d (d.timeBody c).2 := .beside (.refl _)

theorem buildMsg (d : Dev) (c : Nat) (m : CtlMsg) : FuseFrame d (d.buildMsg c m).2 := by
  unfold Dev.buildMsg
  dsimp only
  split
  · exact .refl _
  · exact .setLk ..
  · exact .refl _
  · exact .refl _
  · exact .refl _
  · split
    · exact .refl _
    · exact .setLk ..

theorem nextMsg (d : Dev) (c : Nat) : FuseFrame d (d.nextMsg c) := by
  unfold Dev.nextMsg
  extract_lets +onlyGivenNames l put
  have hput : ∀ e typ body, FuseFrame e (put e typ body) := fun e _ _ => .updLk e ..
  clear_value put
  refine .ite (.refl _) (.ite ?_ ?_)
  · split
    next h => exact .after (hput ..) (.snd h (.after (.timeBody ..) (.setLk ..)))
  · split
    · exact .refl _
    · split
      next h => exact .after (.ite (.refl _) (hput ..)) (.snd h (.after (.buildMsg ..) (.setLk ..)))

theorem lcsStarve (d : Dev) (c : Nat) : FuseFrame d (d.lcsStarve c) := by
  unfold Dev.lcsStarve
  exact .ite (.updLk ..) (.refl _)

theorem lcsDown (d : Dev) (c : Nat) : FuseFrame d (d.lcsDown c) := by
  unfold Dev.lcsDown
  exact .ite (.linkDown ..) (.refl _)

end Sys2Proof.Machine.FuseFrame
end

section
/-! PROOFS. The fuse operation in progress under the functions of Machine/Lanes.lean. -/
namespace Sys2Proof.Machine.FuseFrame

theorem laneStart (d : Dev) (c : Nat) (tx : Bool) (code lane wl : Nat) (cal : Bool) (act : Nat) :
    FuseFrame d (d.laneStart c tx code lane wl cal act) := by
  unfold Dev.laneStart
  exact .after (.syncLanes ..) <| .ite (.updLk ..) <| .after (.updLk ..) (.maintEnd ..)

theorem laneBegin (d : Dev) (c : Nat) (a : LaneAct) : FuseFrame d (d.laneBegin c a) := by
  unfold Dev.laneBegin
  split
  · next h3 =>
      exact .after (.laneStart ..) <| .after (.setAction ..) <| .after (.ite (.refl _) (.inc ..)) (.fst h3 (.maintBegin ..))

theorem laneQueue (d : Dev) (c : Nat) (a : LaneAct) : FuseFrame d (d.laneQueue c a) := by
  unfold Dev.laneQueue
  exact .ite (.refl _) (.updLk ..)

theorem laneAct (d : Dev) (c : Nat) (a : LaneAct) : FuseFrame d (d.laneAct c a) := by
  unfold Dev.laneAct
  exact .ite (.refl _) <| .ite (.laneQueue ..) <| .ite (.refl _) <| .ite (.laneQueue ..) <|
    .ite (.after (.waitWear ..) (.laneQueue ..)) (.laneBegin ..)

theorem laneWaiting (d : Dev) (c : Nat) : FuseFrame d (d.laneWaiting c) := .after (.foldl (fun _ _ => .laneAct ..) _) (.setLk ..)

theorem calInto (d : Dev) (p j : Nat) (rx : Bool) : FuseFrame d (d.calInto p j rx) := by
  unfold Dev.calInto
  exact .ite (.setRing ..) (.refl _)

theorem calReqOver (d : Dev) (c : Nat) : FuseFrame d (d.calReqOver c) := by
  unfold Dev.calReqOver
  split
  · exact .ite (.after (.syncLanes ..) <| .after (.updLk ..) (.setCal ..)) (.refl _)
  · exact .refl _

theorem calCheck (d : Dev) (c : Nat) : FuseFrame d (d.calCheck c) := by
  unfold Dev.calCheck
  dsimp only
  split
  · exact .after (.ite (.after (.laneWaiting ..) <| .after (.maintEnd ..) <| .after (.inc ..) <| .after (.setFld ..) <|
      .after (.setFld ..) (.setCal ..)) (.refl _)) (.calReqOver ..)
  · exact .calReqOver ..

theorem calDwell (d : Dev) (c : Nat) : FuseFrame d (d.calDwell c) := by
  unfold Dev.calDwell
  split
  · exact .ite (.after (.calInto ..) (.setCal ..)) (.refl _)
  · exact .refl _

theorem calBack (d : Dev) (c : Nat) (v : Cal) (tx : Bool) : FuseFrame d (d.calBack c v tx) := by
  unfold Dev.calBack
  split
  · exact .ite (.after (.ite (.refl _) (.setCal ..)) (.laneStart ..)) (.refl _)
  · exact .refl _

theorem calRestore (d : Dev) (c : Nat) : FuseFrame d (d.calRestore c) := by
  unfold Dev.calRestore
  split
  · exact .refl _
  · exact .after (.calCheck ..) <| .after (.ite (.after (.calBack ..) (.calBack ..)) (.refl _)) <| .after (.calReqOver ..) <| .after (.setCal ..) <|
      .after (.ite (.refl _) (.inc ..)) <| .after (.calRing ..) (.calRing ..)

theorem calFailed (d : Dev) (c : Nat) : FuseFrame d (d.calFailed c) := by
  unfold Dev.calFailed
  split
  · exact .ite (.after (.calCheck ..) <| .after (.calBack ..) <| .after (.calRing ..) (.setCal ..)) (.refl _)
  · exact .refl _

theorem txDone (d : Dev) (c : Nat) (x : LaneCmd) : FuseFrame d (d.txDone c x) := by
  unfold Dev.txDone
  exact .after (.laneWaiting ..) <| .after (.calCheck ..) <| .after (.maintEnd ..) <| .after (.ite (.calDwell ..) (.refl _)) <|
    .after (.syncLanes ..) <| .ite (.setLk ..) <| .ite (.setLk ..) (.setLk ..)

theorem txEffect (d : Dev) (c : Nat) (x : LaneCmd) : FuseFrame d (d.txEffect c x) := by
  unfold Dev.txEffect
  exact .after (.ite (.linkDown ..) <| .ite (.txDone ..) (.refl _)) (.txChange ..)

theorem laneAnswer (d : Dev) (c code lane wl row : Nat) : FuseFrame d (d.laneAnswer c code lane wl row) := .updLk ..

theorem rxEffect (d : Dev) (c : Nat) (x : LaneCmd) : FuseFrame d (d.rxEffect c x) := by
  unfold Dev.rxEffect
  extract_lets +onlyGivenNames l old
  refine .ite ?_ ?_
  · exact .after (.calCheck ..) <| .after (.maintEnd ..) <| .after (.laneAnswer ..) <| .after (.syncLanes ..) (.setLk ..)
  · extract_lets +onlyGivenNames d1 d2 d3 d4
    have h1 : FuseFrame d d1 := .ite (.setLk ..) (.ite (.setLk ..) (.after (.setFld ..) (.setLk d ..)))
    have h2 : FuseFrame d1 d2 := .ite (.laneAnswer ..) (.refl d1)
    have h3 : FuseFrame d2 d3 := by
      unfold d3
      clear_value d2
      split
      · exact .ite (.ite (.calBack ..) (.ite (.after (.calInto ..) (.setCal ..)) (.refl _))) (.refl _)
      · exact .refl _
    have h4 : FuseFrame d3 d4 := .after (.maintEnd ..) (.syncLanes d3 c)
    refine .after ?_ (.after h4 (.after h3 (.after h2 h1)))
    exact .ite (.linkDown ..) (.after (.laneWaiting ..) (.calCheck d4 c))

theorem laneRefused (d : Dev) (c : Nat) (x : LaneCmd) : FuseFrame d (d.laneRefused c x) := by
  unfold Dev.laneRefused
  extract_lets +onlyGivenNames l e
  have he : FuseFrame d e := by
    refine .ite (.ite ?_ (.setLk ..)) (.ite (.setLk ..) (.setLk ..))
    split
    · exact .setLk ..
    · exact .setLk ..
  clear_value e
  exact .after (.laneWaiting ..) <| .after (.calCheck ..) <|
    .after (.ite (.after (.calFailed ..) (.after (.maintEnd ..) (.syncLanes ..))) (.after (.maintEnd ..) (.syncLanes ..))) he

theorem laneEffect (d : Dev) (c : Nat) (tx : Bool) : FuseFrame d (d.laneEffect c tx) := by
  unfold Dev.laneEffect
  dsimp only
  split
  · exact .refl _
  · exact .ite (.ite (.refl _) (.laneRefused ..)) <| .ite (.refl _) <| .ite (.txEffect ..) (.rxEffect ..)

theorem laneCommand (d : Dev) (c code lane wl row first : Nat) : FuseFrame d (d.laneCommand c code lane wl row first) := by
  unfold Dev.laneCommand
  exact .ite (.refl _) <| .after (.ite (.after (.maintEnd ..) <| .after (.laneAnswer ..) (.syncLanes ..)) <|
    .after (.ite (.refl _) (.laneAnswer ..)) <| .after (.syncLanes ..) (.updLk ..)) <| .ite (.updLk ..) (.refl _)

theorem laneRequest (d : Dev) (c code lane wl row first : Nat) : FuseFrame d (d.laneRequest c code lane wl row first) := by
  unfold Dev.laneRequest
  exact .ite (.refl _) <| .ite (.laneBegin ..) (.laneAnswer ..)

theorem laneMsg (d : Dev) (c code lane wl row first : Nat) : FuseFrame d (d.laneMsg c code lane wl row first) := by
  unfold Dev.laneMsg
  exact .ite (.laneCommand ..) (.laneRequest ..)

theorem laneAck (d : Dev) (c code lane wl row : Nat) : FuseFrame d (d.laneAck c code lane wl row) := by
  unfold Dev.laneAck
  split
  · exact .ite (.refl _) <| .ite (.txDone ..) (.updLk ..)
  · exact .refl _

theorem laneRefuse (d : Dev) (c lane wl row : Nat) : FuseFrame d (d.laneRefuse c lane wl row) := by
  unfold Dev.laneRefuse
  refine .ite (.refl _) ?_
  refine .ite ?_ ?_
  · split
    · exact .after (.ite (.after (.laneWaiting ..) <| .after (.calCheck ..) <| .after (.maintEnd ..) <| .after (.syncLanes ..) (.updLk ..)) (.refl _))
        (.inc ..)
    · exact .inc ..
  · split
    · exact .inc ..
    · exact .after (.ite (.refl _) <| .ite (.linkDown ..) <| .ite (.updLk ..) (.laneRefused ..)) (.inc ..)

theorem laneAckTimeout (d : Dev) (c : Nat) : FuseFrame d (d.laneAckTimeout c) := by
  unfold Dev.laneAckTimeout
  split
  · exact .ite (.after (.linkDown ..) (.inc ..)) (.refl _)
  · exact .refl _

theorem setLos (d : Dev) (p j : Nat) (on : Bool) : FuseFrame d (d.setLos p j on) := by
  unfold Dev.setLos
  split
  · exact .refl _
  · exact .setFld ..

theorem losNow (d : Dev) (p j : Nat) : FuseFrame d (d.losNow p j) := by
  unfold Dev.losNow
  exact .ite (.setLos ..) (.refl _)

theorem txBack (d : Dev) (p j : Nat) : FuseFrame d (d.txBack p j) := by
  unfold Dev.txBack
  exact .ite (.refl _) (.updLk ..)

theorem rxBack (d : Dev) (c j : Nat) : FuseFrame d (d.rxBack c j) := by
  unfold Dev.rxBack
  exact .ite (.after (.setStat ..) (.updLk ..)) (.refl _)

theorem laneLost (d : Dev) (p j : Nat) (rx : Bool) : FuseFrame d (d.laneLost p j rx) := by
  unfold Dev.laneLost
  refine .ite (.refl _) (.ite (.ite (.after (.setLos ..) (.error ..)) (.error ..)) ?_)
  extract_lets +onlyGivenNames c s
  refine .ite (.refl _) ?_
  extract_lets +onlyGivenNames e
  refine .after ?_ (show FuseFrame d e from .ite (.setStat ..) (.refl _))
  clear_value e
  refine .ite (.refl _) ?_
  extract_lets +onlyGivenNames l before f
  refine .after ?_ (show FuseFrame e f from .updLk ..)
  clear_value f
  extract_lets st at' carry covered
  split
  next g ref h =>
  refine .after ?_ (.fst h (.occur f ..))
  clear h
  clear_value at' covered st
  split
  · exact .ite (.laneAct ..) (.linkDown ..)
  · exact .ite (.linkDown ..) (.refl _)

theorem lightLoss (d : Dev) (p j : Nat) : FuseFrame d (d.lightLoss p j) := by
  unfold Dev.lightLoss
  exact .after (.ite (.setRing ..) (.refl _)) (.setLight ..)

theorem laneLostBy (d : Dev) (p j : Nat) (rx : Bool) (why : Nat) : FuseFrame d (d.laneLostBy p j rx why) := by
  unfold Dev.laneLostBy
  exact .ite (.after (.laneLost ..) <| .after (.ite (.updLk ..) (.refl _)) <| .ite (.lightLoss ..) (.refl _)) (.refl _)

theorem lightArrival (d : Dev) (p j : Nat) : FuseFrame d (d.lightArrival p j) := by
  unfold Dev.lightArrival
  exact .after (.ite (.losNow ..) <| .ite (.refl _) <| .after (.ite (.updLk ..) (.refl _)) <| .ite (.setRing ..) (.refl _)) <|
    .after (.readFrom ..) (.setLight ..)

end Sys2Proof.Machine.FuseFrame
end

section
/-! PROOFS. The fuse operation in progress under the functions of Machine/Maint.lean. -/
namespace Sys2Proof.Machine.FuseFrame

theorem withhold (d : Dev) (a kind number ref : Nat) : FuseFrame d (d.withhold a kind number ref) := by
  unfold Dev.withhold
  refine .after (.event ..) ?_
  split
  · exact .after (.setNum ..) <| .after (.inc ..) (.setFld ..)
  · exact .after (.inc ..) (.setFld ..)

theorem timeoutNow (d : Dev) (c : Ctx) : FuseFrame d (d.timeoutNow c) := by
  unfold Dev.timeoutNow
  exact .ite (.refl _) <| .after (.error ..) <| .after (.notice ..) <| .after (.recMake ..) <| .after (.inc ..) <|
    .after (.flushCtx ..) (.descRead ..)

theorem timeoutVat (d : Dev) (lv : Nat) : FuseFrame d (d.timeoutVat lv) := .foldl (fun _ _ => .timeoutNow ..) _

theorem retireBegin (d : Dev) (v : Nat) (hard : Bool) (handle : Nat) : FuseFrame d (d.retireBegin v hard handle) := by
  unfold Dev.retireBegin
  split
  · exact .refl _
  · exact .beside (.setFld ..)

theorem putRetire (d : Dev) (r : Retire) : FuseFrame d (d.putRetire r) := .beside (.refl _)

theorem dropRetire (d : Dev) (r : Retire) : FuseFrame d (d.dropRetire r) := .beside (.refl _)

theorem noSpare (d : Dev) (r : Retire) : FuseFrame d (d.noSpare r) := by
  unfold Dev.noSpare
  exact .after (.maintEnd ..) <| .after (.error ..) <| .after (.ite (.after (.dropMsgs ..) <| .beside (.setFld ..)) (.refl _)) <|
    .after (.setFld ..) (.dropRetire ..)

theorem spareStep (d : Dev) (r : Retire) : FuseFrame d (d.spareStep r) := by
  unfold Dev.spareStep
  exact .after (.ite (.noSpare ..) (.refl _)) (.putRetire ..)

theorem drainEnd (d : Dev) (v : Nat) : FuseFrame d (d.drainEnd v) := by
  unfold Dev.drainEnd
  split
  · exact .refl _
  · exact .ite (.refl _) <| .after (.spareStep ..) (.timeoutVat ..)

theorem spareTest (d : Dev) (v : Nat) (pass : Bool) : FuseFrame d (d.spareTest v pass) := by
  unfold Dev.spareTest
  split
  · exact .refl _
  · split
    · exact .noSpare ..
    · exact .ite (.after (.maintEnd ..) <| .beside <| .after (.setFld ..) <| .after (.setFld ..) <| .after (.dropMsgs ..) (.dropRetire ..))
        (.spareStep ..)

theorem autoRetire (d : Dev) (v : Nat) (hard quar : Bool) (ref : Nat) : FuseFrame d (d.autoRetire v hard quar ref) := by
  unfold Dev.autoRetire
  split
  · exact .refl _
  · exact .ite (.after (.spareStep ..) (.timeoutVat ..)) (.ite (.putRetire ..) (.refl _))
  · refine .ite (.refl _) <| .ite (.withhold ..) <| .ite (.waitWear ..) ?_
    refine .ite (.after (.spareStep ..) (.after (.timeoutVat ..) ?_)) ?_
    all_goals
      exact .after (.retireBegin ..) <| .after (.setAction ..) <| .after (.maintBegin ..) <|
        .after (.ite (.after (.inc ..) (.setFld ..)) (.refl _)) (.ite (.refl _) (.beside (.refl d)))

theorem noSlice (d : Dev) (s : Nat) : FuseFrame d (d.noSlice s) := .error ..

theorem swapBegin (d : Dev) (s : Nat) (hard : Bool) (handle : Nat) : FuseFrame d (d.swapBegin s hard handle) := .beside (.refl _)

theorem autoSwap (d : Dev) (s : Nat) (hard : Bool) (ref : Nat) : FuseFrame d (d.autoSwap s hard ref) := by
  unfold Dev.autoSwap
  refine .ite (.refl _) ?_
  split
  · exact .ite (.beside (.refl _)) <| .ite (.noSlice ..) (.waitWear ..)
  · refine .ite (.noSlice ..) ?_
    refine .ite (.waitWear ..) ?_
    split
    · next h3 =>
        exact .after (.swapBegin ..) <| .after (.setAction ..) (.fst h3 (.maintBegin ..))

theorem swapOver (d : Dev) (pass : Bool) (unit : Nat) : FuseFrame d (d.swapOver pass unit) := by
  unfold Dev.swapOver
  split
  · exact .refl _
  · exact .ite (.refl _) <| .after (.ite (.after (.maintEnd ..) <| .after (.setFld ..) <| .beside <| .after (.setFld ..) <| .after (.setFld ..) <|
      .after (.setFld ..) (.setFld ..)) <| .after (.ite (.noSlice ..) (.refl _)) <| .after (.maintEnd ..) (.error ..)) <| .beside (.refl _)

theorem sliceHard (d : Dev) (s : Nat) : FuseFrame d (d.sliceHard s) := by
  unfold Dev.sliceHard
  exact .ite (.after (.autoSwap ..) <| .beside (.refl _)) (.refl _)

theorem groupLost (d : Dev) (g : Nat) : FuseFrame d (d.groupLost g) := .foldl (fun _ _ => .laneLost ..) _

theorem wireSpare (d : Dev) (g w : Nat) : FuseFrame d (d.wireSpare g w) := by
  unfold Dev.wireSpare
  refine .ite (.refl _) ?_
  refine .ite (.beside (.refl _)) ?_
  refine .ite ?_ <| .after (.groupLost ..) <| .beside (.refl _)
  split
  · exact .after (.raiseSev ..) <| .beside (.refl _)
  · exact .after (.error ..) <| .beside (.refl _)

theorem wireSwitch (d : Dev) (g : Nat) : FuseFrame d (d.wireSwitch g) := by
  unfold Dev.wireSwitch
  split
  · exact .refl _
  · exact .after (.inc ..) <| .beside (.refl _)

theorem deferredRepair (d : Dev) (mac row : Nat) : FuseFrame d (d.deferredRepair mac row) := by
  unfold Dev.deferredRepair
  split
  · exact .refl _
  · exact .ite (.refl _) <| .after (.softRepair ..) <| .beside (.refl _)

theorem setRepairs (d : Dev) (l : List (Nat × Nat × List Nat)) : FuseFrame d (d.setRepairs l) := .beside (.refl _)

theorem damage (d : Dev) (cells : List Nat) : FuseFrame d (d.damage cells) := by
  unfold Dev.damage
  exact .foldl (fun _ _ => .after (.putPkt ..) <| .ite (.countBad ..) (.refl _)) _

theorem addLost (d : Dev) (ref n : Nat) : FuseFrame d (d.addLost ref n) := by
  unfold Dev.addLost
  split
  · exact .setNum ..
  · exact .refl _

theorem refill (d : Dev) (p table bank : Nat) (entries : List Nat) (ref : Nat) : FuseFrame d (d.refill p table bank entries ref) := by
  unfold Dev.refill
  refine .ite (.later ..) ?_
  split
  · next h3 =>
      exact .after (.addLost ..) (.snd h3 (.tblRestore ..))

theorem recipeGone (d : Dev) : FuseFrame d d.recipeGone := .after (.foldl (fun _ _ => .setFld ..) _) (.setVat ..)

theorem imemRefill (d : Dev) (off n : Nat) : FuseFrame d (d.imemRefill off n) := by
  unfold Dev.imemRefill
  refine .ite (.refl _) ?_
  refine .ite (.later ..) ?_
  split
  · next h2 =>
      exact .snd h2 (.burstsRead ..)
  · next h4 =>
      exact .after (.recipeGone ..) (.snd h4 (.burstsRead ..))

theorem rowError (d : Dev) (e : Dev.SramErr) : FuseFrame d (d.rowError e).1 := by
  unfold Dev.rowError
  split
  · exact .after (.descError ..) <| .beside (.refl _)
  · split
    · next h3 =>
        exact .after (.softRepair ..) (.fst h3 (.ite_fst (.occur ..) (.occur ..)))

theorem sramError (d : Dev) (e : Dev.SramErr) : FuseFrame d (d.sramError e) := by
  unfold Dev.sramError
  extract_lets +onlyGivenNames d1
  refine .after ?_ (show FuseFrame d d1 from .after (.meeting ..) (.seeing ..))
  clear_value d1
  refine .ite (.error ..) ?_
  split
  · extract_lets f
    refine .after ?_ (show FuseFrame d1 f from .error ..)
    clear_value f
    split
    next h => exact .after (.pushTodo ..) (.fst h (.occur ..))
  · exact .after (.setRepairs ..) <| .after (.damage ..) (.error ..)
  · extract_lets +onlyGivenNames left
    split
    next f ref h =>
    refine .after ?_ (.fst h (.rowError d1 e))
    split
    · exact .ite (.refill ..) (.refl _)
    · exact .ite (.refill ..) (.refl _)
    · exact .ite (.imemRefill ..) (.refl _)
    · exact .error ..
    · exact .partitionFatal ..
    · exact .pushTodo ..
    · exact .refl _

theorem lateOne (d : Dev) (x1 : DdrWait) : FuseFrame d (d.lateOne x1) := by
  unfold Dev.lateOne
  split
  · exact .copyPut ..
  · exact .bulkPut ..
  · exact .after (.refill ..) (.seeing ..)
  · exact .after (.imemRefill ..) (.seeing ..)
  · exact .imageCopy ..
  · exact .fwCopy ..
  · exact .slotRefill ..
  · exact .ovfGone ..

theorem lateAll (d : Dev) : FuseFrame d d.lateAll := by
  unfold Dev.lateAll
  exact .beside <| .after (.burstOuts ..) <| .after (.foldl (fun _ _ => .ite (.later ..) (.lateOne ..)) _) <| .beside (.refl _)

theorem tallyTimeout (d : Dev) (v word : Nat) : FuseFrame d (d.tallyTimeout v word) := by
  unfold Dev.tallyTimeout
  split
  · exact .refl _
  · exact .foldl (fun _ _ => .timeoutNow ..) _

theorem tallyError (d : Dev) (lv word : Nat) (uncorr : Bool) : FuseFrame d (d.tallyError lv word uncorr) := by
  unfold Dev.tallyError
  exact .ite (.after (.pushTodo ..) (.error ..)) (.error ..)

theorem contain (d : Dev) (w0 : Nat) : FuseFrame d (d.contain w0) := by
  unfold Dev.contain
  exact .after (.incBy ..) <| .after (.abortPkts ..) <| .after (.incBy ..) <| .after (.dropWaits ..) <| .beside <| .after (.incBy ..) <|
    .after (.flushAll ..) <| .after (.setFld ..) <| .ite (.refl _) (.setNum ..)

theorem decayOne (d : Dev) (a : Nat) : FuseFrame d (d.decayOne a) := by
  unfold Dev.decayOne
  exact .after (.ite (.setFld ..) (.refl _)) (.setFld ..)

theorem healthDecay (d : Dev) : FuseFrame d d.healthDecay := by
  unfold Dev.healthDecay
  exact .ite (.after (.foldl (fun _ _ => .decayOne ..) _) (.act1 ..)) (.refl _)

theorem hsRelease (d : Dev) (kind n : Nat) : FuseFrame d (d.hsRelease kind n) := by
  unfold Dev.hsRelease
  exact .ite (.setNum ..) <| .ite (.beside (.setNum ..)) (.refl _)

theorem ackRecord (d : Dev) (n : Nat) : FuseFrame d (d.ackRecord n) := by
  unfold Dev.ackRecord
  exact .ite (.setNum ..) (.refl _)

theorem maintStart (d : Dev) (code : Nat) (res : List Nat) (sess : Nat) : FuseFrame d (d.maintStart code res sess).1 := by
  unfold Dev.maintStart
  refine .ite_fst (.inc ..) ?_
  refine .ite_fst (.refl _) ?_
  split
  · next h3 =>
      exact .fst h3 (.maintBegin ..)

theorem selfTestEnd (d : Dev) (handle data : Nat) : FuseFrame d (d.selfTestEnd handle data) := by
  unfold Dev.selfTestEnd
  split
  · exact .refl _
  · exact .maintEnd ..

theorem maintStop (d : Dev) (handle : Nat) : FuseFrame d (d.maintStop handle).1 := by
  unfold Dev.maintStop
  split
  · exact .refl _
  · refine .ite_fst (.refl _) ?_
    refine .ite_fst (.maintEnd ..) ?_
    refine .ite_fst (.after (.ite (.setFld ..) (.refl _)) (.setMaint ..)) ?_
    refine .ite_fst ?_ <| .ite_fst (.after (.maintEnd ..) <| .beside (.refl _)) (.refl _)
    split
    · exact .after (.maintEnd ..) <| .after (.setFld ..) (.dropRetire ..)
    · exact .refl _

theorem vatHard (d : Dev) (v unit : Nat) : FuseFrame d (d.vatHard v unit) := by
  unfold Dev.vatHard
  split
  next h => exact .after (.pushTodo ..) (.fst h (.occur ..))

end Sys2Proof.Machine.FuseFrame
end

section
/-! PROOFS. The fuse operation in progress under the functions of Machine/Optic.lean. -/
namespace Sys2Proof.Machine.FuseFrame

theorem heat (d : Dev) (p j : Nat) (rx : Bool) (codes : Int) : FuseFrame d (d.heat p j rx codes) := .beside (.refl _)

theorem setId (d : Dev) (p j : Nat) (rx : Bool) (id : Nat) : FuseFrame d (d.setId p j rx id) := .setFld ..

theorem relock (d : Dev) (p j : Nat) (rx : Bool) (k : Option Nat) : FuseFrame d (d.relock p j rx k) := .heat ..

theorem setTries (d : Dev) (p j : Nat) (rx : Bool) (n : Nat) : FuseFrame d (d.setTries p j rx n) := .beside (.setFld ..)

theorem mislock (d : Dev) (p j : Nat) (rx : Bool) (k : Option Nat) : FuseFrame d (d.mislock p j rx k) :=
  .after (.relock ..) <| .after (.setTries ..) <| .after (.inc ..) (.setRing ..)

theorem noteRead (d : Dev) (p j : Nat) (rx : Bool) (k : Nat) : FuseFrame d (d.noteRead p j rx k) := .after (.readFrom ..) (.setId ..)

theorem ringLock (d : Dev) (p j : Nat) (rx : Bool) : FuseFrame d (d.ringLock p j rx) := by
  unfold Dev.ringLock
  exact .after (.ite (.losNow ..) (.txBack ..)) (.setRing ..)

theorem identityRead (d : Dev) (p j : Nat) (rx : Bool) (chips : List Bool) : FuseFrame d (d.identityRead p j rx chips) := by
  unfold Dev.identityRead
  split
  · exact .refl _
  · exact .ite (.after (.ite (.ringLock ..) (.mislock ..)) (.noteRead ..)) (.refl _)

theorem ringOut (d : Dev) (p j : Nat) (rx : Bool) : FuseFrame d (d.ringOut p j rx) :=
  .after (.laneLost ..) <| .after (.error ..) <| .after (.inc ..) (.setRing ..)

theorem identityTimeout (d : Dev) (p j : Nat) (rx : Bool) : FuseFrame d (d.identityTimeout p j rx) := by
  unfold Dev.identityTimeout
  exact .ite (.refl _) <| .ite (.mislock ..) <| .ite (.ringOut ..) <| .ite (.ringOut ..) (.refl _)

theorem relockEnd (d : Dev) (p j : Nat) (rx : Bool) (chips : List Bool) : FuseFrame d (d.relockEnd p j rx chips) := by
  unfold Dev.relockEnd
  extract_lets +onlyGivenNames s k
  clear_value k
  refine .ite ?_ (.refl _)
  extract_lets +onlyGivenNames e
  have he : FuseFrame d e := by
    unfold e
    split
    · exact .noteRead ..
    · exact .refl _
  clear_value e
  refine .after ?_ he
  exact .ite (.ringLock ..) (.ite (.refl _) (.after (.ite (.ringOut ..) (.relock ..)) (.setTries e ..)))

theorem marginWindow (d : Dev) : FuseFrame d d.marginWindow := by
  unfold Dev.marginWindow
  exact .ite (.beside (.refl _)) (.refl _)

theorem laneMargin (d : Dev) (x : LanePower) : FuseFrame d (d.laneMargin x) := .after (.setNum ..) (.setNum ..)

theorem crossed (d : Dev) (blk inst oe lane port level margin : Nat) : FuseFrame d (d.crossed blk inst oe lane port level margin).1 := by
  unfold Dev.crossed
  split
  next h =>
  dsimp only
  exact .after (.event ..) (.fst h (.occur ..))

theorem calLow (d : Dev) (p j m : Nat) (tx : Bool) : FuseFrame d (d.calLow p j m tx) := by
  unfold Dev.calLow
  split
  · exact .ite (.setCal ..) (.refl _)
  · exact .refl _

theorem laneEval (d : Dev) (x : LanePower) : FuseFrame d (d.laneEval x) := by
  unfold Dev.laneEval
  extract_lets +onlyGivenNames c key m
  split
  extract_lets +onlyGivenNames o n opt d1 d2 ask d3 d4
  have hask : ∀ e code level, FuseFrame e (ask e code level) := by
    intro e code level
    unfold ask
    split
    next f ref h =>
    refine .after ?_ (.fst h (.crossed ..))
    split
    · exact .laneAct ..
    · exact .refl _
  have h1 : FuseFrame d d1 := .beside (.refl d)
  clear_value d1
  have h2 : FuseFrame d d2 := .after (.calLow ..) h1
  have h3 : FuseFrame d2 d3 := .ite (hask d2 1 2) (.refl d2)
  have h4 : FuseFrame d3 d4 := .ite (hask d3 5 3) (.refl d3)
  have h := FuseFrame.after h4 (.after h3 h2)
  clear_value d4
  refine .after ?_ h
  split
  · split
    · exact .ite (.laneAct ..) (.refl _)
    · exact .refl _
  · exact .refl _

theorem lineEval (d : Dev) (k j : Nat) : FuseFrame d (d.lineEval k j) := by
  unfold Dev.lineEval
  split
  · exact .refl _
  · extract_lets +onlyGivenNames key m ports
    split
    extract_lets +onlyGivenNames o n opt d1 d2 d3 d4 move narrow d5 d6
    have hmove : ∀ ref e p, FuseFrame e (move ref e p) := by
      intro ref e p
      unfold move
      split
      · exact .laneAct ..
      · exact .refl _
    have hnarrow : ∀ ref e p, FuseFrame e (narrow ref e p) := by
      intro ref e p
      unfold narrow
      refine .ite (hmove ..) ?_
      split
      · exact .laneAct ..
      · exact .refl _
    clear_value move narrow
    have h1 : FuseFrame d d1 := .beside (.refl d)
    clear_value d1
    have h2 : FuseFrame d1 d2 := .setNum ..
    have h3 : FuseFrame d2 d3 := .foldl (fun _ _ => .calLow ..) d2
    clear_value d3
    have h4 : FuseFrame d3 d4 := .ite (.after (.emit ..) (.inc d3 _)) (.refl d3)
    clear_value d4
    have h5 : FuseFrame d4 d5 := by
      refine .ite ?_ (.refl d4)
      split
      next h => exact .after (.foldl (hmove _) _) (.fst h (.crossed ..))
    clear_value d5
    have h6 : FuseFrame d5 d6 := by
      refine .ite ?_ (.refl d5)
      split
      next h => exact .after (.foldl (hnarrow _) _) (.fst h (.crossed ..))
    have h := FuseFrame.after h6 <| .after h5 <| .after h4 <| .after h3 <| .after h2 h1
    clear_value d6
    refine .after ?_ h
    split
    · refine .foldl (fun e p => ?_) d6
      split
      · exact .ite (.laneAct ..) (.refl _)
      · exact .refl _
    · exact .refl _

theorem marginEval (d : Dev) (powers : List LanePower) (limits : List (Nat × Nat)) : FuseFrame d (d.marginEval powers limits) := by
  unfold Dev.marginEval
  exact .ite (.refl _) <| .after (.foldl (fun _ _ => .laneEval ..) _) <| .after (.foldl (fun _ _ => .lineEval ..) _) <|
    .after (.foldl (fun _ _ => .laneMargin ..) _) <| .after (.foldl (fun _ _ => .ite (.after (.setFld ..) (.emit ..)) (.refl _)) _) (.act1 ..)

theorem calStart (d : Dev) (p j : Nat) : FuseFrame d (d.calStart p j) := by
  unfold Dev.calStart
  refine .ite (.refl _) ?_
  extract_lets +onlyGivenNames d1 l skip
  refine .after ?_ (show FuseFrame d d1 from .act1 ..)
  clear_value d1
  refine .ite (.inc ..) ?_
  split
  next e h hm =>
  refine .after ?_ (.fst hm (.maintBegin ..))
  clear hm
  extract_lets +onlyGivenNames d2 v
  refine .after ?_ (show FuseFrame e d2 from .after (.setFld ..) (.setFld ..))
  clear_value d2
  refine .ite (.after (.updLk ..) <| .after (.calInto ..) <| .after (.calInto ..) (.setCal ..)) ?_
  extract_lets +onlyGivenNames d3
  refine .after ?_ (show FuseFrame d2 d3 from .setCal ..)
  clear_value d3
  split
  · exact .ite (.after (.laneStart ..) <| .after (.setCal ..) (.laneStart ..)) (.calFailed ..)
  · exact .calFailed ..

theorem calDwellEnd (d : Dev) : FuseFrame d d.calDwellEnd := by
  unfold Dev.calDwellEnd
  split
  · refine .ite (.calCheck ..) ?_
    split
    · exact .ite (.calRestore ..) (.refl _)
    · exact .refl _
  · exact .refl _

theorem slotDown (d : Dev) (k : Nat) : FuseFrame d (d.slotDown k) := .foldl (fun _ _ => .linkDown ..) _

theorem setLmEn (d : Dev) (k : Nat) (on : Bool) : FuseFrame d (d.setLmEn k on) := by
  unfold Dev.setLmEn
  exact .ite (.refl _) <| .after (.ite (.after (.foldl (fun _ _ => .readFrom ..) _) (.foldl (fun _ _ => .emit ..) _)) (.setFld ..)) <|
    .after (.emit ..) <| .beside <| .beside (.refl _)

theorem slotEnable (d : Dev) (k : Nat) (en : Bool) : FuseFrame d (d.slotEnable k en) := by
  unfold Dev.slotEnable
  exact .after (.ite (.setLmEn ..) <| .after (.slotDown ..) (.setLmEn ..)) (.setFld ..)

theorem moduleIn (d : Dev) (k : Nat) : FuseFrame d (d.moduleIn k) := by
  unfold Dev.moduleIn
  exact .after (.ite (.setLmEn ..) (.refl _)) (.setFld ..)

theorem moduleOut (d : Dev) (k : Nat) : FuseFrame d (d.moduleOut k) := by
  unfold Dev.moduleOut
  exact .ite (.beside <| .after (.slotDown ..) <| .after (.error ..) <| .after (.setLmEn ..) (.setFld ..)) (.refl _)

theorem laserReady (d : Dev) (k : Nat) (taps : List Int) : FuseFrame d (d.laserReady k taps) := by
  unfold Dev.laserReady
  exact .ite (.after (.ite (.after (.ite (.setFld ..) (.refl _)) <| .beside (.refl _)) <| .beside (.refl _)) <|
    .beside (.foldl (fun _ _ => .emit ..) _)) (.refl _)

theorem ringsHide (d : Dev) (p : Nat) : FuseFrame d (d.ringsHide p) :=
  .beside <| .after (.setState ..) <| .after (.setState ..) <| .after (.ringsOff ..) (.setLk ..)

theorem indigoOn (d : Dev) (i : Nat) : FuseFrame d (d.indigoOn i) := by
  unfold Dev.indigoOn
  exact .ite (.refl _) <| .ite (.after (.foldl (fun _ _ => .after (.foldl (fun _ _ => .losNow ..) _) <| .after (.setFld ..) <| .after (.setFld ..) <|
    .after (.ringsHide ..) <| .after (.dropActs ..) <| .after (.dropCal ..) <| .after (.cutSource ..) (.flushPort ..)) _) <| .beside (.setFld ..))
    (.setFld ..)

theorem indigoOff (d : Dev) (i : Nat) : FuseFrame d (d.indigoOff i) := by
  unfold Dev.indigoOff
  exact .ite (.after (.foldl (fun _ _ => .beside <| .after (.setLk ..) (.setState ..)) _) <| .after (.setNum ..) <| .after (.setFld ..) <|
    .after (.setFld ..) <| .beside (.refl _)) (.refl _)

theorem indigoActive (d : Dev) (i : Nat) : FuseFrame d (d.indigoActive i) := by
  unfold Dev.indigoActive
  exact .ite (.setFld ..) (.refl _)

theorem cwLose (d : Dev) (cw : List Nat) (wires : List Dev.WireErr) : FuseFrame d (d.cwLose cw wires).2 := by
  refine .foldl_snd (fun p x => ?_) (List.range cw.length) ([], d)
  exact .ite_snd (.draw p.2) (.refl _)

theorem indigoPass (d : Dev) (i : Nat) (ab : Bool) (j : Nat) (cw : List Nat) (wires outs : List Dev.WireErr) :
    FuseFrame d (d.indigoPass i ab j cw wires outs) := by
  unfold Dev.indigoPass
  split
  next from' out _ =>
  extract_lets +onlyGivenNames r
  refine .ite (.refl _) ?_
  extract_lets +onlyGivenNames old run d1 d2 d3 los
  have h1 : FuseFrame d d1 := .updLk ..
  clear_value d1
  have h2 : FuseFrame d1 d2 := .ite (.laneLost ..) (.losNow ..)
  clear_value d2
  have h3 : FuseFrame d2 d3 := .foldl (fun _ _ => .wireError ..) d2
  refine .after ?_ (.after h3 (.after h2 h1))
  clear_value los d3
  refine .ite (.refl _) ?_
  extract_lets +onlyGivenNames d4
  refine .after ?_ (show FuseFrame d3 d4 from .foldl (fun _ _ => .wireError ..) d3)
  clear_value d4
  split
  next sent d5 hs =>
  refine .after ?_ (.snd hs (.ite_snd (.refl _) (.cwLose ..)))
  clear hs
  extract_lets +onlyGivenNames d6 d7
  refine .after ?_ (show FuseFrame d5 d7 from .after (.inc ..) (.emit ..))
  clear_value d7 r
  split
  · exact .inc ..
  · exact .refl _
  · exact .inc ..

end Sys2Proof.Machine.FuseFrame
end

section
/-! PROOFS. The fuse operation in progress under the functions of Machine/Session.lean. -/
namespace Sys2Proof.Machine.FuseFrame

theorem orphan (d : Dev) (n : Nat) : FuseFrame d (d.orphan n) := .inside (.refl _)

theorem closeSess (d : Dev) (n cause : Nat) : FuseFrame d (d.closeSess n cause) := by
  unfold Dev.closeSess
  exact .ite (.refl _) <| .ite (.inside <| .ite (.inside <| .after (.orphan ..) (.setSess ..)) <| .after (.orphan ..) (.setSess ..)) <|
    .ite (.inside <| .after (.orphan ..) (.setSess ..)) <| .after (.orphan ..) (.setSess ..)

theorem closeWhere (d : Dev) (f : Sess → Bool) (cause : Nat) : FuseFrame d (d.closeWhere f cause) := by
  unfold Dev.closeWhere
  exact .foldl (fun _ _ => .ite (.closeSess ..) (.refl _)) _

theorem closePort (d : Dev) : FuseFrame d d.closePort := .closeWhere ..

theorem reply (d : Dev) (n seq op status detail : Nat) (data : List Byte) : FuseFrame d (d.reply n seq op status detail data) := by
  unfold Dev.reply
  exact .ite (.refl _) <| .after (.sendUcp ..) (.setSess ..)

theorem replyAborted (d : Dev) (n seq op : Nat) : FuseFrame d (d.replyAborted n seq op) := by
  unfold Dev.replyAborted
  exact .ite (.refl _) (.sendUcp ..)

end Sys2Proof.Machine.FuseFrame
end

section
/-! PROOFS. The fuse operation in progress under the functions of Machine/Quiesce.lean. -/
namespace Sys2Proof.Machine.FuseFrame

theorem setQ (d : Dev) (u : QUnit) (req dr ack : Bool) : FuseFrame d (d.setQ u req dr ack) := .after (.setFld ..) <| .after (.setFld ..) (.setFld ..)

theorem setHr (d : Dev) (p n : Nat) : FuseFrame d (d.setHr p n) := .beside (.setFld ..)

theorem quiesceRequest (d : Dev) (u : QUnit) : FuseFrame d (d.quiesceRequest u) := by
  unfold Dev.quiesceRequest
  refine .ite (.refl _) ?_
  split
  · exact .refl _
  · split
    · exact .after (.closePort ..) <| .inside <| .beside (.setQ ..)
    · exact .beside (.setQ ..)

theorem setQuiesced (d : Dev) (u : QUnit) : FuseFrame d (d.setQuiesced u) := by
  unfold Dev.setQuiesced
  split
  · exact .after (.setHr ..) <| .beside (.setQ ..)
  · exact .after (.ite (.setFld ..) (.refl _)) <| .beside (.setQ ..)
  · exact .beside (.setQ ..)

theorem quiesceDrained (d : Dev) (u : QUnit) : FuseFrame d (d.quiesceDrained u) := by
  unfold Dev.quiesceDrained
  exact .ite (.setQuiesced ..) (.refl _)

theorem drainDrop (d : Dev) (u : QUnit) : FuseFrame d (d.drainDrop u).2 := by
  unfold Dev.drainDrop
  extract_lets +onlyGivenNames ports
  have hports : ∀ lo hi, FuseFrame d (ports lo hi).2 := by
    intro lo hi
    refine .foldl_snd (fun y k => ?_) (d.portPkts lo hi) (0, d)
    split
    · exact .refl _
    · refine .ite_snd (.after (.takePkt ..) (.captureFree ..)) (.ite_snd (.refl _) (.foldl (fun e x => ?_) y.2))
      split
      · exact .after (.dropCopy ..) (.captureFree ..)
      · exact .refl _
  clear_value ports
  split
  · exact hports ..
  · exact hports ..
  · exact .foldl (fun _ _ => .after (.inc ..) (.flushCtx ..)) d
  · exact .refl _

theorem forcedQuiesce (d : Dev) (u : QUnit) : FuseFrame d (d.forcedQuiesce u) := by
  unfold Dev.forcedQuiesce
  split
  · exact .refl _
  · refine .ite ?_ (.refl _)
    split
    · next h3 =>
        exact .after (.error ..) <| .after (.setFld ..) <| .after (.setQuiesced ..) <| .beside (.snd h3 (.drainDrop ..))

theorem portRelease (d : Dev) (p : Nat) : FuseFrame d (d.portRelease p) := by
  unfold Dev.portRelease
  exact .ite (.refl _) <| .ite (.after (.error ..) (.setFld ..)) <| .after (.ite (.after (.startPort ..) <| .beside (.refl _)) (.refl _)) <|
    .after (.ite (.after (.trainPort ..) (.foldl (fun _ _ => .linkDown ..) _)) (.refl _)) <| .after (.setHr ..) (.setQ ..)

theorem quiesceRelease (d : Dev) (u : QUnit) : FuseFrame d (d.quiesceRelease u) := by
  unfold Dev.quiesceRelease
  dsimp only
  refine .ite (.refl _) ?_
  split
  · exact .ite (.refl _) <| .ite (.portRelease ..) <| .after (.portRelease ..) <| .beside (.refl _)
  · exact .ite (.refl _) <| .after (.setQ ..) <| .beside (.refl _)
  · exact .after (.ite (.setFld ..) (.refl _)) <| .after (.setQ ..) <| .beside (.refl _)
  · exact .after (.setQ ..) <| .beside (.refl _)

theorem epochWrite (d : Dev) (p v : Nat) : FuseFrame d (d.epochWrite p v) := by
  unfold Dev.epochWrite
  exact .ite (.refl _) <| .ite (.after (.setFld ..) (.setFld ..)) <| .after (.error ..) (.setFld ..)

theorem setRetire (d : Dev) (p : Nat) : FuseFrame d (d.setRetire p) := .after (.setNum ..) (.setNum ..)

theorem prevRetire (d : Dev) (p : Nat) : FuseFrame d (d.prevRetire p) := by
  unfold Dev.prevRetire
  exact .ite (.beside (.setFld ..)) (.refl _)

theorem retireNow (d : Dev) (p : Nat) : FuseFrame d (d.retireNow p) := by
  unfold Dev.retireNow
  exact .ite (.beside (.refl _)) (.refl _)

end Sys2Proof.Machine.FuseFrame
end

section
/-! PROOFS. The fuse operation in progress under the functions of Machine/Telemetry.lean. -/
namespace Sys2Proof.Machine.FuseFrame

theorem flightFreeze (d : Dev) : FuseFrame d d.flightFreeze := by
  unfold Dev.flightFreeze
  exact .ite (.beside (.setFld ..)) (.refl _)

theorem pmClears (d : Dev) : FuseFrame d d.pmClears := .beside (.foldl (fun _ _ => .foldl (fun _ _ => .clearCtr ..) _) _)

theorem snapshot (d : Dev) : FuseFrame d d.snapshot := by
  unfold Dev.snapshot
  exact .ite (.beside (.refl _)) (.refl _)

theorem reportBuild (d : Dev) (n : Nat) : FuseFrame d (d.reportBuild n) := by
  unfold Dev.reportBuild
  exact .ite (.setSess ..) (.refl _)

theorem reportsBuild (d : Dev) : FuseFrame d d.reportsBuild := .foldl (fun _ _ => .reportBuild ..) _

theorem reportOn (d : Dev) (n : Nat) : FuseFrame d (d.reportOn n) := by
  unfold Dev.reportOn
  exact .after (.foldl (fun _ _ => .after (.eventOn ..) <| .ite (.inc ..) (.refl _)) _) (.setSess ..)

theorem reports (d : Dev) : FuseFrame d d.reports := .foldl (fun _ _ => .reportOn ..) _

theorem ringWrite (d : Dev) (r : Nat) (body : List Byte) : FuseFrame d (d.ringWrite r body) := by
  unfold Dev.ringWrite
  exact .ite (.refl _) <| .ite (.after (.ringGapCount ..) <| .beside (.refl _)) <| .after (.setNum ..) <|
    .after (.foldl (fun _ _ => .ddrWrite ..) _) <| .beside (.setRecs ..)

theorem ringQueues (d : Dev) : FuseFrame d d.ringQueues := by
  unfold Dev.ringQueues
  exact .ite (.refl _) (.ringWrite ..)

theorem ringCounters (d : Dev) : FuseFrame d d.ringCounters := by
  unfold Dev.ringCounters
  exact .ite (.refl _) (.ringWrite ..)

theorem ringDump (d : Dev) : FuseFrame d d.ringDump := by
  unfold Dev.ringDump
  exact .ite (.after (.ringCounters ..) (.act1 ..)) (.refl _)

theorem windowRead (d : Dev) (i : Nat) : FuseFrame d (d.windowRead i).2 := by
  unfold Dev.windowRead
  split
  · exact .refl _
  · next h2 =>
      split
      · next h2 =>
          exact .snd h2 (.burstRead ..)
      · next h2 =>
          exact .snd h2 (.burstRead ..)

theorem foldl_snd_of {α β : Type} {f : β × Dev → α → β × Dev} (h : ∀ p x q, f p x = q → FuseFrame p.2 q.2) {l : List α} {p q : β × Dev}
    (hq : q = l.foldl f p) : FuseFrame p.2 q.2 :=
  hq ▸ .foldl_snd (fun p x => h p x _ rfl) l p

theorem flightRead (d : Dev) (from' n : Nat) : FuseFrame d (d.flightRead from' n).2 := by
  refine foldl_snd_of (fun p x q hq => ?_) (Dev.flightRead.eq_1 d from' n)
  split at hq
  · next h => exact hq ▸ .snd h (.burstsRead p.2 _)
  · next h => exact hq ▸ .snd h (.burstsRead p.2 _)

end Sys2Proof.Machine.FuseFrame
end

section
/-! PROOFS. The fuse operation in progress under the functions of Machine/TimeUnit.lean. -/
namespace Sys2Proof.Machine.FuseFrame

theorem originatedAdmit (d : Dev) (tu : Bool) : FuseFrame d (d.originatedAdmit tu) := by
  unfold Dev.originatedAdmit
  split
  · exact .refl _
  · exact .ite (.refl _) <| .after (.ite (.ite (.after (.noteDepth ..) <| .after (.addPkt ..) <| .beside (.refl _)) <| .after (.takePkt ..) <|
      .after (.captureDrop ..) (.inc ..)) (.routeHeld ..)) <| .after (.countAdmit ..) <| .after (.addPkt ..) <| .beside (.refl _)

theorem setTuState (d : Dev) (s : Nat) : FuseFrame d (d.setTuState s) := .setFld ..

theorem setRate (d : Dev) (r : Int) : FuseFrame d (d.setRate r) := .after (.setNum ..) <| .after (.setNum ..) <| .beside (.keepBase ..)

theorem timeEvent (d : Dev) (cause : Nat) : FuseFrame d (d.timeEvent cause) := .event ..

theorem sourceLost (d : Dev) : FuseFrame d d.sourceLost := by
  unfold Dev.sourceLost
  exact .ite (.after (.timeEvent ..) <| .after (.error ..) <| .after (.ite (.after (.setRate ..) <| .after (.inc ..) (.setTuState ..)) (.refl _)) <|
    .beside (.refl _)) (.refl _)

theorem followAnn (d : Dev) : FuseFrame d d.followAnn := by
  unfold Dev.followAnn
  split
  · exact .ite (.refl _) <| .after (.ite (.setFld ..) (.refl _)) <| .after (.setFld ..) (.setFld ..)
  · exact .refl _

theorem setSource (d : Dev) (s : Nat) : FuseFrame d (d.setSource s) := by
  unfold Dev.setSource
  exact .after (.ite (.followAnn ..) <| .after (.setFld ..) (.setFld ..)) <| .after (.ite (.after (.setRate ..) (.setTuState ..)) (.setTuState ..)) <|
    .beside (.setFld ..)

theorem parentWrite (d : Dev) (w : Nat) : FuseFrame d (d.parentWrite w) := .after (.followAnn ..) <| .after (.setNum ..) <| .beside (.refl _)

theorem parentSwitch (d : Dev) : FuseFrame d d.parentSwitch := by
  unfold Dev.parentSwitch
  exact .ite (.after (.timeEvent ..) <| .after (.followAnn ..) <| .after (.inc ..) (.setFld ..)) (.refl _)

theorem timeTick (d : Dev) : FuseFrame d d.timeTick := .beside (.refl _)

theorem annForm (d : Dev) (c : Nat) : FuseFrame d (d.annForm c) := .after (.addPkt ..) <| .beside <| .beside <| .beside (.refl _)

theorem announce (d : Dev) : FuseFrame d d.announce := by
  unfold Dev.announce
  exact .ite (.after (.foldl (fun _ _ => .originatedAdmit ..) _) <| .after (.foldl (fun _ _ => .annForm ..) _) <| .beside (.refl _)) (.refl _)

theorem annReceive (d : Dev) (port : Nat) (pay : List Byte) (arrT : Nat) : FuseFrame d (d.annReceive port pay arrT) := by
  unfold Dev.annReceive
  exact .ite (.inc ..) <| .after (.ite (.followAnn ..) (.refl _)) <| .beside (.refl _)

theorem setTpo (d : Dev) (n : Nat) (t : Tpo) : FuseFrame d (d.setTpo n t) := .beside (.refl _)

theorem tpoGo (d : Dev) (n : Nat) : FuseFrame d (d.tpoGo n) := by
  unfold Dev.tpoGo
  refine .ite ?_ (.setFld ..)
  split
  next p e h =>
  refine .after (.setFld ..) <| .after (.setTpo ..) (.snd h ?_)
  exact .ite_snd (.draw d) (.refl d)

theorem tpoCancel (d : Dev) (n : Nat) : FuseFrame d (d.tpoCancel n) := .after (.setFld ..) (.setTpo ..)

theorem tpoWrite (d : Dev) (n mode pol : Nat) (cancel go : Bool) : FuseFrame d (d.tpoWrite n mode pol cancel go) := by
  unfold Dev.tpoWrite
  exact .after (.ite (.tpoGo ..) (.refl _)) <| .after (.ite (.tpoCancel ..) (.refl _)) <| .after (.setFld ..) <| .after (.setFld ..) <|
    .ite (.refl _) (.emit ..)

theorem tpoPulse (d : Dev) (n : Nat) : FuseFrame d (d.tpoPulse n) := by
  unfold Dev.tpoPulse
  exact .ite (.after (.emit ..) (.setTpo ..)) (.refl _)

theorem tpoEnd (d : Dev) (n : Nat) : FuseFrame d (d.tpoEnd n) := by
  unfold Dev.tpoEnd
  dsimp only
  split
  · exact .ite (.after (.ite (.setFld ..) (.refl _)) <| .after (.emit ..) (.setTpo ..)) (.refl _)
  · exact .refl _

theorem tpoSkip (d : Dev) (n : Nat) : FuseFrame d (d.tpoSkip n) := by
  unfold Dev.tpoSkip
  exact .ite (.refl _) <| .ite (.after (.incBy ..) (.setTpo ..)) <| .ite (.refl _) <| .after (.inc ..) (.setFld ..)

theorem refLost (d : Dev) : FuseFrame d d.refLost := by
  unfold Dev.refLost
  exact .ite (.after (.error ..) <| .after (.setFld ..) <| .beside (.refl _)) (.refl _)

theorem refBack (d : Dev) : FuseFrame d d.refBack := .after (.setFld ..) <| .beside (.refl _)

end Sys2Proof.Machine.FuseFrame
end

section
/-! PROOFS. The fuse operation in progress under the functions of Machine/RwEffects.lean. -/
namespace Sys2Proof.Machine.FuseFrame

theorem setMrdState (d : Dev) (g s : Nat) : FuseFrame d (d.setMrdState g s) := .setFld ..

theorem mrdStage (d : Dev) (g o a w : Nat) : FuseFrame d (d.mrdStage g o a w) := by
  unfold Dev.mrdStage
  exact .ite (.refl _) <| .after (.ite (.setMrdState ..) (.refl _)) (.setNum ..)

theorem setWakeReq (d : Dev) (r : Nat) : FuseFrame d (d.setWakeReq r) := by
  unfold Dev.setWakeReq
  exact .after (.ite (.refl _) <| .after (.emit ..) (.setFld ..)) (.setFld ..)

theorem wakeReqWrite (d : Dev) (r : Nat) : FuseFrame d (d.wakeReqWrite r) := by
  unfold Dev.wakeReqWrite
  exact .ite (.beside (.refl _)) (.setWakeReq ..)

theorem ptpEnable (d : Dev) (en : Bool) : FuseFrame d (d.ptpEnable en) := .after (.setFld ..) <| .beside (.refl _)

theorem putRw (d : Dev) (a mask v : Nat) : FuseFrame d (d.putRw a mask v) := by
  unfold Dev.putRw
  refine .ite (.refl _) ?_
  split
  · exact .ite (.quiesceRequest ..) (.quiesceRelease ..)
  · split
    · exact .mrdStage ..
    · exact .ite (.after (.ite (.refl _) <| .ite (.portOn ..) (.portOff ..)) (.setNum ..)) <|
        .ite (.ite (.after (.setFld ..) <| .after (.setFld ..) <| .ite (.refl _) (.indigoOff ..)) <|
        .after (.ite (.indigoOn ..) (.refl _)) (.setNum ..)) <| .ite (.ite (.refl _) (.slotEnable ..)) <| .ite (.epochWrite ..) <|
        .ite (.setFld ..) <| .ite (.setFld ..) <| .ite (.ite (.setFld ..) (.setNum ..)) <|
        .ite (.after (.ite (.refl _) (.setSource ..)) (.setNum ..)) <| .ite (.parentWrite ..) <| .ite (.wakeReqWrite ..) <|
        .after (.ite (.ite (.refl _) (.ptpEnable ..)) (.refl _)) (.setNum ..)

end Sys2Proof.Machine.FuseFrame
end

section
/-! PROOFS. The fuse operation in progress under the functions of Machine/Advance.lean. -/
namespace Sys2Proof.Machine.FuseFrame

theorem xoffCycles (d : Dev) (core : Nat) : FuseFrame d (d.xoffCycles core) := by
  unfold Dev.xoffCycles
  exact .foldl (fun _ _ => .ite (.foldl (fun _ _ => .after (.ite (.incBy ..) (.refl _)) <| .ite (.incBy ..) (.refl _)) _) (.refl _)) _

theorem pmCycles (d : Dev) (core vat now : Nat) : FuseFrame d (d.pmCycles core vat now) := by
  unfold Dev.pmCycles
  exact .ite (.refl _) <| .after (.foldl (fun _ _ => .incBy ..) _) (.foldl (fun _ _ => .incBy ..) _)

theorem tick (d : Dev) (now : Nat) : FuseFrame d (d.tick now) := by
  unfold Dev.tick
  exact .ite (.refl _) <| .beside <| .ite (.after (.noteAll ..) <| .after (.xoffCycles ..) (.pmCycles ..)) (.refl _)

end Sys2Proof.Machine.FuseFrame
end

section
/-! PROOFS. The fuse operation in progress under the functions of Machine/Beat.lean. -/
namespace Sys2Proof.Machine.FuseFrame

theorem mrdArm (d : Dev) (g : Nat) (ecc : Bool) : FuseFrame d (d.mrdArm g ecc) := by
  unfold Dev.mrdArm
  exact .ite (.refl _) <| .ite (.after (.ite (.after (.setFld ..) (.refl _)) (.refl _)) <| .after (.ite (.after (.setFld ..) (.refl _)) (.refl _)) <|
    .after (.ite (.after (.setFld ..) (.refl _)) (.refl _)) <| .ite (.setFld ..) (.refl _)) <| .beside (.setMrdState ..)

theorem mrdCancel (d : Dev) (g : Nat) : FuseFrame d (d.mrdCancel g) := by
  unfold Dev.mrdCancel
  exact .ite (.refl _) <| .ite (.setMrdState ..) (.setFld ..)

theorem mrdClear (d : Dev) (g : Nat) : FuseFrame d (d.mrdClear g) := by
  unfold Dev.mrdClear
  exact .ite (.refl _) <| .after (.setMrdState ..) (.setFld ..)

theorem mrdWrite (d : Dev) (g count : Nat) (clear cancel arm ecc : Bool) : FuseFrame d (d.mrdWrite g count clear cancel arm ecc) := by
  unfold Dev.mrdWrite
  exact .after (.ite (.mrdArm ..) (.refl _)) <| .after (.ite (.mrdCancel ..) (.refl _)) <| .after (.ite (.mrdClear ..) (.refl _)) (.putRw ..)

theorem mrdPut (d : Dev) (g : Nat) : FuseFrame d (d.mrdPut g) := .foldl (fun _ _ => .putRw ..) _

theorem mrdApply (d : Dev) : FuseFrame d d.mrdApply := by
  unfold Dev.mrdApply
  split
  · exact .refl _
  · exact .after (.setNum ..) <| .after (.setNum ..) <| .after (.setFld ..) <| .after (.setMrdState ..) (.mrdPut ..)

theorem rwbApply (d : Dev) : FuseFrame d d.rwbApply := .after (.foldl (fun _ _ => .putRw ..) _) <| .beside (.refl _)

theorem sprayWeights (d : Dev) : FuseFrame d d.sprayWeights := .beside (.refl _)

theorem timeExchange (d : Dev) : FuseFrame d d.timeExchange := .foldl (fun _ _ => .updLk ..) _

theorem beatSample (d : Dev) : FuseFrame d d.beatSample := by
  unfold Dev.beatSample
  exact .after (.ite (.after (.ringQueues ..) <| .after (.reportsBuild ..) (.sampleAll ..)) (.refl _)) <| .after (.pmClears ..) (.snapshot ..)

theorem beatCommit (d : Dev) : FuseFrame d d.beatCommit := by
  unfold Dev.beatCommit
  exact .after (.ite (.flow ..) (.refl _)) <| .after (.foldl (fun _ _ => .setRetire ..) _) <| .after (.watchReset ..) <| .after (.mrdApply ..) <|
    .after (.rwbApply ..) (.foldl (fun _ _ => .prevRetire ..) _)

theorem groupApply (d : Dev) : FuseFrame d d.groupApply := .after (.foldl (fun _ _ => .setRetire ..) _) <| .after (.watchReset ..) (.mrdApply ..)

theorem beatPace (d : Dev) : FuseFrame d d.beatPace := by
  unfold Dev.beatPace
  exact .ite (.after (.sprayWeights ..) <| .after (.foldl (fun _ _ => .shRefill ..) _) (.gclHandOver ..)) (.refl _)

theorem calDwellOver (d : Dev) : FuseFrame d d.calDwellOver := by
  unfold Dev.calDwellOver
  split
  · exact .ite (.calCheck ..) (.refl _)
  · exact .refl _

theorem boundary (d : Dev) (exch : Bool) : FuseFrame d (d.boundary exch) := by
  unfold Dev.boundary
  exact .after (.ite (.timeExchange ..) (.refl _)) <| .after (.calDwellOver ..) <| .after (.marginWindow ..) <| .after (.beatPace ..) <|
    .after (.beatCommit ..) <| .after (.beatSample ..) <| .after (.timeTick ..) <| .beside (.refl _)

theorem boundaries (n : Nat) (d : Dev) : FuseFrame d (Dev.boundaries n d) := by
  induction n generalizing d with
  | zero => exact .refl d
  | succ n ih => exact .after (ih _) (.ite (.boundary ..) (.after (.healthDecay ..) <| .after (.ringDump ..) (.boundary ..)))

theorem runTo (n now : Nat) (d : Dev) : FuseFrame d (Dev.runTo n now d) := by
  induction n generalizing d with
  | zero => exact .tick ..
  | succ n ih => exact .ite (.after (ih _) <| .after (.boundary ..) (.tick ..)) (.tick ..)

theorem catchUp (d : Dev) : FuseFrame d d.catchUp := by
  unfold Dev.catchUp
  exact .ite (.refl _) <| .after (.incBy ..) (.boundaries ..)

theorem advance (d : Dev) (now : Nat) : FuseFrame d (d.advance now) := by
  unfold Dev.advance
  exact .after (.ite (.refl _) (.runTo ..)) (.catchUp ..)

theorem stepTime (d : Dev) (z : Int) : FuseFrame d (d.stepTime z) :=
  .after (.event ..) <| .after (.error ..) <| .after (.foldl (fun _ _ => .tpoSkip ..) _) <| .after (.inc ..) <| .beside <| .beside (.keepBase ..)

end Sys2Proof.Machine.FuseFrame
end

section
/-! PROOFS. The fuse operation in progress under the functions of Machine/Servo.lean. -/
namespace Sys2Proof.Machine.FuseFrame

theorem slew (d : Dev) (z : Int) : FuseFrame d (d.slew z) := by
  unfold Dev.slew
  exact .ite (.after (.setRate ..) <| .beside (.refl _)) <| .after (.setRate ..) <| .beside (.refl _)

theorem servoStep (d : Dev) (z : Int) : FuseFrame d (d.servoStep z) := .beside (.stepTime ..)

theorem acquire (d : Dev) (z delay : Int) : FuseFrame d (d.acquire z delay) := by
  unfold Dev.acquire
  refine .ite ?_ (.servoStep ..)
  split
  · exact .servoStep ..
  · exact .refl _

theorem countSmall (d : Dev) (z : Int) : FuseFrame d (d.countSmall z) := by
  unfold Dev.countSmall
  exact .after (.ite (.after (.followAnn ..) (.setTuState ..)) (.refl _)) <| .beside (.refl _)

theorem measure (d : Dev) (z delay : Int) : FuseFrame d (d.measure z delay) := by
  unfold Dev.measure
  exact .after (.ite (.after (.countSmall ..) (.acquire ..)) <|
    .after (.ite (.after (.slew ..) <| .ite (.after (.followAnn ..) (.setTuState ..)) (.refl _)) <| .ite (.servoStep ..) <|
    .ite (.beside (.setTuState ..)) (.slew ..)) <| .beside (.refl _)) <| .beside (.inc ..)

theorem setTheta (d : Dev) (n : Int) : FuseFrame d (d.setTheta n) := .setNum ..

theorem timeMsg (d : Dev) (c ttx trx : Nat) (rxv : Bool) (seqTx seqRx lc : Nat) : FuseFrame d (d.timeMsg c ttx trx rxv seqTx seqRx lc) := by
  unfold Dev.timeMsg
  dsimp only
  refine .ite (.refl _) ?_
  split
  · exact .beside (.refl _)
  · exact .after (.ite (.inc ..) <| .after (.ite (.after (.measure ..) (.setTheta ..)) (.refl _)) <| .beside (.setFld ..)) <| .beside (.refl _)

theorem setNow (d : Dev) : FuseFrame d d.setNow := by
  unfold Dev.setNow
  exact .ite (.setFld ..) <| .after (.setFld ..) (.stepTime ..)

theorem setAtPps (d : Dev) : FuseFrame d d.setAtPps := by
  unfold Dev.setAtPps
  exact .ite (.setFld ..) <| .after (.setFld ..) <| .beside (.refl _)

theorem setCmd (d : Dev) (cmd : Nat) : FuseFrame d (d.setCmd cmd) := by
  unfold Dev.setCmd
  exact .ite (.setNow ..) <| .ite (.setAtPps ..) (.refl _)

theorem ppsEdge (d : Dev) : FuseFrame d d.ppsEdge := by
  unfold Dev.ppsEdge
  exact .after (.ite (.after (.setNum ..) <| .after (.setNum ..) <| .after (.setFld ..) <| .after (.stepTime ..) (.setFld ..)) <|
    .after (.ite (.after (.measure ..) (.setTheta ..)) (.refl _)) <| .after (.setNum ..) (.setNum ..)) <| .beside (.refl _)

theorem setPtpState (d : Dev) (s : Nat) : FuseFrame d (d.setPtpState s) := .setFld ..

theorem setPtp (d : Dev) (f : Ptp → Ptp) : FuseFrame d (d.setPtp f) := .beside (.refl _)

theorem ptpDecide (d : Dev) : FuseFrame d d.ptpDecide := by
  unfold Dev.ptpDecide
  refine .ite (.setPtpState ..) ?_
  split
  · exact .ite (.after (.ite (.refl _) (.setPtpState ..)) (.setPtp ..)) <| .after (.setPtpState ..) (.setPtp ..)
  · exact .refl _

theorem ptpMeasure (d : Dev) : FuseFrame d d.ptpMeasure := by
  unfold Dev.ptpMeasure
  split
  · exact .after (.ite (.after (.measure ..) (.setTheta ..)) (.refl _)) <| .after (.setPtp ..) <| .ite (.setPtpState ..) (.refl _)
  · exact .refl _

theorem ptpMs (d : Dev) (z : Int) : FuseFrame d (d.ptpMs z) := .setPtp ..

theorem ptpSync (d : Dev) (dom : Nat) (src : List Byte) (seq : Nat) (twoStep : Bool) (t1 : Nat) (corr : Int) :
    FuseFrame d (d.ptpSync dom src seq twoStep t1 corr) := by
  unfold Dev.ptpSync
  exact .ite (.refl _) <| .ite (.setPtp ..) <| .after (.ptpMeasure ..) (.ptpMs ..)

theorem ptpFollow (d : Dev) (dom : Nat) (src : List Byte) (seq t1 : Nat) (corr : Int) : FuseFrame d (d.ptpFollow dom src seq t1 corr) := by
  unfold Dev.ptpFollow
  refine .ite (.refl _) ?_
  split
  · exact .ite (.after (.ptpMeasure ..) (.ptpMs ..)) (.refl _)
  · exact .refl _

theorem ptpResp (d : Dev) (dom : Nat) (src req : List Byte) (seq t4 : Nat) (corr : Int) : FuseFrame d (d.ptpResp dom src req seq t4 corr) := by
  unfold Dev.ptpResp
  refine .ite (.refl _) ?_
  split
  · exact .ite (.after (.ptpMeasure ..) (.setPtp ..)) (.refl _)
  · exact .refl _

theorem ptpSend (d : Dev) (event : Bool) (msg : List Byte) : FuseFrame d (d.ptpSend event msg) := by
  unfold Dev.ptpSend
  exact .after (.ite (.sendEth ..) (.sendEth ..)) (.emit ..)

theorem ptpReq (d : Dev) (dom : Nat) (src : List Byte) (seq : Nat) (corr : Int) : FuseFrame d (d.ptpReq dom src seq corr) := by
  unfold Dev.ptpReq
  exact .ite (.ptpSend ..) (.refl _)

theorem ptpAnnounce (d : Dev) (dom : Nat) (x : PtpData) : FuseFrame d (d.ptpAnnounce dom x) := by
  unfold Dev.ptpAnnounce
  exact .ite (.refl _) <| .after (.ptpDecide ..) (.setPtp ..)

theorem ptpAnnTimeout (d : Dev) : FuseFrame d d.ptpAnnTimeout := by
  unfold Dev.ptpAnnTimeout
  exact .ite (.after (.ptpDecide ..) <| .after (.ite (.sourceLost ..) (.refl _)) <| .after (.setPtpState ..) (.setPtp ..)) (.refl _)

theorem ptpSends (d : Dev) : FuseFrame d d.ptpSends := by
  unfold Dev.ptpSends
  exact .ite (.refl _) <| .ite (.after (.ite (.after (.ite (.after (.ptpSend ..) (.ptpSend ..)) (.ptpSend ..)) (.setPtp ..)) (.refl _)) <|
    .ite (.after (.ptpSend ..) (.setPtp ..)) (.refl _)) <| .ite (.ite (.after (.ptpSend ..) (.setPtp ..)) (.refl _)) (.refl _)

end Sys2Proof.Machine.FuseFrame
end

section
/-! PROOFS. The fuse operation in progress under the functions of Machine/Rows.lean. -/
namespace Sys2Proof.Machine.FuseFrame

theorem rowWires (d : Dev) (c : Nat) (wires : List Dev.WireErr) : FuseFrame d (d.rowWires c wires) := by
  unfold Dev.rowWires
  refine .ite (.refl _) ?_
  refine .after (.updLk ..) ?_
  refine .after (.foldl_snd (fun p x => ?_) _ _) (.foldl (fun _ _ => .wireError ..) _)
  refine .ite_snd ?_ (.refl _)
  split
  · next h3 =>
      exact .snd h3 (.draw ..)

theorem rowBegin (d : Dev) (c : Nat) (data : List Byte) {e : Dev} (h : d.rowBegin c data = some e) : FuseFrame d e := by
  unfold Dev.rowBegin at h
  split at h
  · cases h
    exact .refl _
  · extract_lets f at h
    split at h
    · cases h
    · exact .after (.rowTake _ _ _ h) (.laneEffect ..)

theorem lcsSend (d : Dev) (c : Nat) (data : List Byte) (wires : List Dev.WireErr) : FuseFrame d (d.lcsSend c data wires) := by
  unfold Dev.lcsSend
  refine .ite ?_ (.ite (.refl _) ?_)
  · extract_lets +onlyGivenNames d1 ready
    refine .after ?_ (show FuseFrame d d1 from .foldl (fun _ _ => .wireError ..) d)
    clear_value d1 ready
    split
    next l d2 h =>
    refine .after ?_ (.snd h (.trainingRow ..))
    clear h
    extract_lets +onlyGivenNames d3
    refine .after ?_ (show FuseFrame d2 d3 from .emit ..)
    clear_value d3
    exact .ite (.refl _) (.ite (.after (.startRows ..) (.updLk ..)) (.updLk ..))
  · split
    · exact .refl _
    · next e h =>
      refine .after ?_ (.rowBegin _ _ _ h)
      extract_lets +onlyGivenNames d1 l d2
      refine .after ?_ (show FuseFrame e d2 from .after (.setLk d1 ..) <| .after (.nextMsg ..) (.rowWires e ..))
      clear_value d2 l
      split
      · exact .ite (.after (.featureDone ..) <| .after (.updLk ..) (.ctlSlot ..)) (.ctlSlot ..)
      · exact .ctlSlot ..

theorem downMsg (d : Dev) (c : Nat) : FuseFrame d (d.downMsg c) := by
  unfold Dev.downMsg
  exact .ite (.linkDown ..) (.refl _)

theorem ctlMsg (d : Dev) (c typ b first lc : Nat) : FuseFrame d (d.ctlMsg c typ b first lc) := by
  unfold Dev.ctlMsg
  exact .ite (.trainMsg ..) <| .ite (.echoReq ..) <| .ite (.echoResp ..) <| .ite (.featureMsg ..) <| .ite (.timeMsg ..) <|
    .ite (.ite (.laneMsg ..) <| .ite (.laneAck ..) <| .ite (.laneRefuse ..) (.refl _)) <| .ite (.downMsg ..) (.refl _)

theorem resume (d : Dev) (c row first : Nat) : FuseFrame d (d.resume c row first) := by
  unfold Dev.resume
  refine .ite (.refl _) ?_
  split
  · exact .after (.setLk ..) (.inc ..)
  · exact .after (.setLk ..) (.inc ..)

theorem lcsReceive (d : Dev) (c w row lc : Nat) : FuseFrame d (d.lcsReceive c w row lc) := by
  unfold Dev.lcsReceive
  exact .ite (.refl _) <| .ite (.after (.updLk ..) (.inc ..)) <|
    .after (.ite (.updLk ..) <| .ite (.ite (.after (.ctlMsg ..) (.updLk ..)) (.updLk ..)) (.updLk ..)) <| .after (.resume ..) <|
    .ite (.after (.updLk ..) (.setFld ..)) (.refl _)

theorem descramble (d : Dev) (w : Option (List Nat)) (s : Option Nat) : FuseFrame d (d.descramble w s).2.2 := by
  unfold Dev.descramble
  generalize scrMsg = f
  cases w with
  | none => exact .refl d
  | some w =>
    cases s with
    | none => exact .draw d
    | some s => exact .refl d

theorem frameStep (d : Dev) (c : Nat) {e : Dev} (h : d.frameStep c = some e) : FuseFrame d e := by
  unfold Dev.frameStep at h
  extract_lets +onlyGivenNames l take bytes lost at h
  have htake : ∀ n body, FuseFrame d (take n body) := fun n body => .setLk ..
  clear_value take
  split at h
  · cases h
  · split at h
    · split at h
      · cases h
      · cases h
        exact .after (.payloadEnd ..) (htake ..)
    · extract_lets +onlyGivenNames idle at h
      split at h
      · cases h
        exact htake ..
      · extract_lets +onlyGivenNames hd hl peek at h
        split at h
        · cases h
        · cases h
          exact .after (.headerArrival ..) (htake ..)

theorem frameAll (n : Nat) (d : Dev) (c : Nat) : FuseFrame d (Dev.frameAll n d c) := by
  induction n generalizing d with
  | zero => exact .refl d
  | succ n ih =>
    unfold Dev.frameAll
    split
    · exact .refl _
    · next h => exact .after (ih _) (.frameStep _ _ h)

theorem rowBytes (d : Dev) (c row : Nat) (b : List (Option Byte)) : FuseFrame d (d.rowBytes c row b) := by
  unfold Dev.rowBytes
  exact .after (.ite (.setLk ..) (.refl _)) <| .after (.frameAll ..) (.setLk ..)

theorem reframe (d : Dev) (c : Nat) : FuseFrame d (d.reframe c) := .frameAll ..

theorem rowLcs (d : Dev) (c : Nat) (w : Option Nat) (early : Bool) (prevLc : Nat) : FuseFrame d (d.rowLcs c w early prevLc) := by
  unfold Dev.rowLcs
  dsimp only
  split
  · exact .after (.reframe ..) (.lcsReceive ..)
  · exact .updLk ..

theorem foldl_fst_of {α β : Type} {f : Dev × β → α → Dev × β} (h : ∀ p x q, f p x = q → FuseFrame p.1 q.1) {l : List α} {p q : Dev × β}
    (hq : q = l.foldl f p) : FuseFrame p.1 q.1 :=
  hq ▸ .foldl_fst (fun p x => h p x _ rfl) l p

theorem rowReceive (d : Dev) (c : Nat) (cws : List (Option (List Nat))) (wires : List Dev.WireErr) : FuseFrame d (d.rowReceive c cws wires) := by
  unfold Dev.rowReceive
  extract_lets +onlyGivenNames d1
  refine .after ?_ (show FuseFrame d d1 from .laneEffect ..)
  clear_value d1
  refine .ite (.refl _) ?_
  extract_lets +onlyGivenNames p r d2 got miss d3 l word par dat lost trust fix rows d4 d5 r' d6 msgs ctl byt b early row d7 d8 d9 d10
  have h2 : FuseFrame d1 d2 := by
    refine foldl_fst_of (p := (d1, [], [])) (fun x j q hq => ?_) (rfl : r = _)
    split at hq
    · cases hq
      exact .refl _
    · split at hq
      · next h => exact hq ▸ .snd h (.decodeLane x.1 ..)
      · next h => exact hq ▸ .snd h (.decodeLane x.1 ..)
  have h3 : FuseFrame d2 d3 := .foldl (fun _ _ => .rxBack ..) d2
  have h4 : FuseFrame d3 d4 := .ite (.inc ..) (.refl d3)
  have h5 : FuseFrame d4 d5 := .ite (.inc ..) (.refl d4)
  have h6 : FuseFrame d5 d6 := by
    refine .foldl_fst (fun x i => ?_) (List.range rows.length) (d5, [], [])
    exact .descramble x.1 ..
  have h7 : FuseFrame d6 d7 := .after (.rowBytes ..) (.updLk ..)
  have h8 : FuseFrame d7 d8 := .updLk ..
  have h9 : FuseFrame d8 d9 := .foldl (fun _ _ => .wireError ..) d8
  have h10 : FuseFrame d9 d10 := .emit ..
  refine .after (.foldl (fun _ _ => .rowLcs ..) d10) ?_
  exact .after h10 <| .after h9 <| .after h8 <| .after h7 <| .after h6 <| .after h5 <| .after h4 <| .after h3 h2

end Sys2Proof.Machine.FuseFrame
end

section
/-! PROOFS. The fuse operation in progress under the functions of Machine/Spare.lean. -/
namespace Sys2Proof.Machine.FuseFrame

theorem setSpareFree (d : Dev) : FuseFrame d d.setSpareFree := .setFld ..

theorem setHosted (d : Dev) (c j v : Nat) : FuseFrame d (d.setHosted c j v) := .setFld ..

theorem ddrRetire (d : Dev) (c handle : Nat) : FuseFrame d (d.ddrRetire c handle) :=
  .after (.setSpareFree ..) <| .after (.setFld ..) <| .beside (.refl _)

theorem autoDdr (d : Dev) (c ref : Nat) : FuseFrame d (d.autoDdr c ref) := by
  unfold Dev.autoDdr
  refine .ite (.refl _) ?_
  refine .ite (.waitWear ..) ?_
  split
  · next h3 =>
      exact .after (.ddrRetire ..) <| .after (.setAction ..) (.fst h3 (.maintBegin ..))

theorem ddrRemap (d : Dev) (i c g : Nat) : FuseFrame d (d.ddrRemap i c g) :=
  .after (.setHosted ..) <| .after (.setFld ..) <| .after (.setFld ..) (.setHosted ..)

theorem segsLost (d : Dev) (segs : List Nat) : FuseFrame d (d.segsLost segs) := by
  unfold Dev.segsLost
  exact .after (.ite (.refl _) <| .after (.fwCopies ..) (.foldl (fun _ _ => .ite (.later ..) (.slotRefill ..)) _)) <| .beside <|
    .after (.foldl (fun _ _ => .ringGap ..) _) (.foldl (fun _ _ => .ovfGone ..) _)

theorem segsRemap (d : Dev) (segs : List Nat) : FuseFrame d (d.segsRemap segs) := by
  unfold Dev.segsRemap
  refine .foldl (fun e x => ?_) _
  split
  · exact .ddrRemap ..
  · exact .after (.setFld ..) (.setHosted ..)

theorem channelGone (d : Dev) (c : Nat) (segs : List Nat) (d1 : Nat) : FuseFrame d (d.channelGone c segs d1) := by
  unfold Dev.channelGone
  refine .after (.setSpareFree ..) ?_
  refine .ite ?_ <| .after (.segsLost ..) <| .after (.segsRemap ..) <| .after (.error ..) <| .after (.setQ ..) <| .after (.setFld ..) <|
    .beside (.refl _)
  split
  · next h3 =>
      split
      · exact .after (.raiseSev ..) (.fst h3 (.after (.occur ..) <| .after (.segsLost ..) <| .after (.segsRemap ..) <| .after (.error ..) <|
          .after (.setQ ..) <| .after (.setFld ..) <| .beside (.refl _)))
      · exact .fst h3 (.after (.occur ..) <| .after (.segsLost ..) <| .after (.segsRemap ..) <| .after (.error ..) <| .after (.setQ ..) <|
          .after (.setFld ..) <| .beside (.refl _))

theorem copyRead (d : Dev) (i : Nat) : FuseFrame d (d.copyRead i) := by
  unfold Dev.copyRead
  exact .after (.foldl (fun _ _ => .ite (.scrubBad ..) (.burstFixed ..)) _) (.foldl (fun _ _ => .scrubBad ..) _)

theorem segmentMove (d : Dev) (c : Nat) (fail : Bool) : FuseFrame d (d.segmentMove c fail) := by
  unfold Dev.segmentMove
  split
  · exact .refl _
  · refine .ite (.after (.maintEnd ..) (.channelGone ..)) ?_
    split
    · exact .after (.maintEnd ..) <| .after (.setSpareFree ..) <| .after (.setQ ..) <| .after (.setFld ..) <| .beside (.refl _)
    · split
      · exact .refl _
      · exact .ite (.refl _) <| .after (.ite (.after (.maintEnd ..) <| .after (.setSpareFree ..) <| .after (.setQ ..) <| .after (.setFld ..) <|
          .beside (.refl _)) (.refl _)) <| .beside <| .after (.setSpareFree ..) <| .after (.inc ..) <| .after (.ddrRemap ..) <|
          .after (.segmentOut ..) <| .after (.pm ..) <| .after (.pm ..) (.copyRead ..)

theorem trainFail (d : Dev) (c : Nat) : FuseFrame d (d.trainFail c) := by
  unfold Dev.trainFail
  refine .ite (.refl _) ?_
  refine .after (.channelGone ..) ?_
  refine .after (.setFld ..) ?_
  split
  · exact .maintEnd ..
  · exact .refl _

end Sys2Proof.Machine.FuseFrame
end

section
/-! PROOFS. The fuse operation in progress under the functions of Machine/Power.lean. -/
namespace Sys2Proof.Machine.FuseFrame

theorem setPw (d : Dev) (s : Nat) : FuseFrame d (d.setPw s) := .setFld ..

theorem powerEvent (d : Dev) (cause reading : Nat) : FuseFrame d (d.powerEvent cause reading) := .event ..

theorem measured (d : Dev) : FuseFrame d d.measured.2 := by
  unfold Dev.measured
  split
  · next h3 =>
      exact .snd h3 (.draw ..)

theorem lmOff (d : Dev) : FuseFrame d d.lmOff := .foldl (fun _ _ => .setLmEn ..) _

theorem lmOn (d : Dev) : FuseFrame d d.lmOn := by
  unfold Dev.lmOn
  exact .foldl (fun _ _ => .ite (.setLmEn ..) (.refl _)) _

theorem leaveRefresh (d : Dev) : FuseFrame d d.leaveRefresh := by
  unfold Dev.leaveRefresh
  exact .foldl (fun _ _ => .ite (.setFld ..) (.refl _)) _

theorem lmWake (d : Dev) : FuseFrame d d.lmWake := by
  unfold Dev.lmWake
  exact .ite (.after (.lmOn ..) (.leaveRefresh ..)) (.refl _)

theorem selfRefresh (d : Dev) : FuseFrame d d.selfRefresh := by
  unfold Dev.selfRefresh
  exact .foldl (fun _ _ => .ite (.setFld ..) (.refl _)) _

theorem umberEnter (d : Dev) : FuseFrame d d.umberEnter :=
  .after (.selfRefresh ..) <| .after (.lmOff ..) <| .beside <| .after (.setWakeReq ..) (.setPw ..)

theorem gateOff (d : Dev) : FuseFrame d d.gateOff := .beside (.refl _)

theorem umberDone (d : Dev) : FuseFrame d d.umberDone := by
  unfold Dev.umberDone
  exact .ite (.refl _) <| .after (.ite (.beside (.setWakeReq ..)) (.refl _)) <| .after (.powerEvent ..) <| .beside <| .after (.setPw ..) <|
    .after (.inc ..) <| .after (.setFld ..) (.gateOff ..)

theorem grant (d : Dev) : FuseFrame d d.grant := by
  unfold Dev.grant
  exact .ite (.beside <| .after (.setPw ..) <| .after (.setFld ..) <| .after (.setNum ..) (.setNum ..)) (.refl _)

theorem wakeFail (d : Dev) (what : Nat) : FuseFrame d (d.wakeFail what) := by
  unfold Dev.wakeFail
  exact .ite (.refl _) <| .after (.powerEvent ..) <| .after (.error ..) <| .after (.setFld ..) <| .after (.setWakeReq ..) <| .after (.setPw ..) <|
    .after (.setFld ..) <| .after (.gateOff ..) <| .after (.selfRefresh ..) <| .after (.lmOff ..) (.inc ..)

theorem rampStep (d : Dev) : FuseFrame d d.rampStep := by
  unfold Dev.rampStep
  exact .ite (.setFld ..) (.refl _)

theorem ramp (d : Dev) (pll : Option Nat) : FuseFrame d (d.ramp pll) := by
  unfold Dev.ramp
  split
  · exact .wakeFail ..
  · exact .rampStep ..

theorem wakeDone (d : Dev) (bad : List Nat) : FuseFrame d (d.wakeDone bad) := by
  unfold Dev.wakeDone
  exact .ite (.refl _) <| .after (.powerEvent ..) <| .beside <| .after (.foldl (fun _ _ => .startPort ..) _) <| .after (.fwCopies ..) <|
    .after (.inc ..) <| .after (.setWakeReq ..) <| .after (.setPw ..) <| .after (.setFld ..) <| .after (.lmOn ..) <|
    .after (.leaveRefresh ..) (.foldl (fun _ _ => .trainFail ..) _)

theorem thermWarn (d : Dev) (sensor t : Nat) : FuseFrame d (d.thermWarn sensor t) := by
  unfold Dev.thermWarn
  exact .after (.ite (.error ..) (.refl _)) <| .ite (.after (.powerEvent ..) <| .after (.inc ..) (.error ..)) (.refl _)

theorem railWarn (d : Dev) (rail mv : Nat) : FuseFrame d (d.railWarn rail mv) := by
  unfold Dev.railWarn
  exact .ite (.after (.powerEvent ..) <| .after (.inc ..) (.error ..)) (.refl _)

theorem powerOver (d : Dev) (w : Nat) : FuseFrame d (d.powerOver w) := by
  unfold Dev.powerOver
  exact .ite (.after (.powerEvent ..) (.error ..)) (.refl _)

end Sys2Proof.Machine.FuseFrame
end

section
/-! PROOFS. The fuse operation in progress under the functions of Machine/Boot.lean. -/
namespace Sys2Proof.Machine.FuseFrame

theorem markSlot (d : Dev) (u : Fuses) (s : Nat) : FuseFrame d (d.markSlot u s) := by
  unfold Dev.markSlot
  exact .ite (.refl _) <| .inside (.refl _)

theorem spiWrite (d : Dev) (op addr len : Nat) (data : List Byte) : FuseFrame d (d.spiWrite op addr len data) := .after (.spi ..) (.spi ..)

theorem spiPages (d : Dev) (addr : Nat) (bs : List Byte) : FuseFrame d (d.spiPages addr bs) := .foldl (fun _ _ => .spiWrite ..) _

theorem spiImage (d : Dev) (s : Nat) (img : List Byte) : FuseFrame d (d.spiImage s img) := .after (.spiPages ..) (.foldl (fun _ _ => .spiWrite ..) _)

theorem writeSelector (d : Dev) (slot : Nat) (trial : Bool) : FuseFrame d (d.writeSelector slot trial) := by
  unfold Dev.writeSelector
  exact .after (.foldl (fun _ _ => .ite (.spiWrite ..) (.refl _)) _) <| .after (.spiWrite ..) <| .inside (.refl _)

theorem startSlot (d : Dev) (s cause : Nat) : FuseFrame d (d.startSlot s cause) :=
  .after (.setFld ..) <| .after (.setFld ..) <| .after (.setFld ..) <| .inside (.refl _)

theorem bootStop (d : Dev) : FuseFrame d d.bootStop := by
  unfold Dev.bootStop
  exact .after (.ite (.refl _) (.setWakeReq ..)) <| .inside (.refl _)

theorem bootFrom (d : Dev) (u : Fuses) (s cause : Nat) : FuseFrame d (d.bootFrom u s cause) := by
  unfold Dev.bootFrom
  exact .after (.ite (.startSlot ..) <| .after (.ite (.startSlot ..) <| .after (.bootStop ..) (.markSlot ..)) <| .after (.spiRead ..) (.markSlot ..))
    (.spiRead ..)

theorem bootSelect (d : Dev) (u : Fuses) (cause : Nat) : FuseFrame d (d.bootSelect u cause) := .after (.bootFrom ..) (.spi ..)

theorem setBoot (d : Dev) (k : Nat) : FuseFrame d (d.setBoot k) := .inside (.refl _)

theorem bootRetry (d : Dev) (u : Fuses) : FuseFrame d (d.bootRetry u) := by
  unfold Dev.bootRetry
  exact .ite (.after (.bootSelect ..) (.setBoot ..)) (.refl _)

theorem bootEnd (d : Dev) : FuseFrame d d.bootEnd := by
  unfold Dev.bootEnd
  exact .after (.ite (.setWakeReq ..) (.refl _)) <| .ite (.refl _) (.quiesceRelease ..)

theorem firmwareReady (d : Dev) (u : Fuses) : FuseFrame d (d.firmwareReady u) := by
  unfold Dev.firmwareReady
  exact .ite (.after (.bootEnd ..) <| .after (.setFld ..) <| .after (.ite (.refl _) (.writeSelector ..)) <| .inside (.spi ..)) (.refl _)

theorem warmRestart (d : Dev) (u : Fuses) (s cause : Nat) : FuseFrame d (d.warmRestart u s cause) := by
  unfold Dev.warmRestart
  extract_lets +onlyGivenNames d1 st left m d2 d3
  have h1 : FuseFrame d d1 := .closeWhere ..
  clear_value d1
  have h2 : FuseFrame d1 d2 := .inside (.refl d1)
  have h3 : FuseFrame d2 d3 := by
    unfold d3
    clear_value d2
    split
    · next h => exact .snd h (.fwRead ..)
    · next h => exact .after (.spiRead ..) (.snd h (.fwRead ..))
  exact .after (.ite (.startSlot d3 ..) (.bootStop d3)) (.after h3 (.after h2 h1))

theorem watchdog (d : Dev) (u : Fuses) : FuseFrame d (d.watchdog u) := by
  unfold Dev.watchdog
  exact .ite (.warmRestart ..) (.refl _)

theorem trialConfirm (d : Dev) : FuseFrame d d.trialConfirm := by
  unfold Dev.trialConfirm
  exact .ite (.after (.writeSelector ..) (.setFld ..)) (.refl _)

theorem keepPresent (old d : Dev) : FuseFrame d (Dev.keepPresent old d) :=
  .foldl (fun _ _ => .ite (.setFld ..) (.refl _)) d

theorem lmDrop (old d : Dev) : FuseFrame d (Dev.lmDrop old d) :=
  .foldl (fun _ _ => .ite (.emit ..) (.refl _)) d

theorem modulePin (d : Dev) (held : Bool) (k : Nat) (high : Bool) : FuseFrame d (d.modulePin held k high) := by
  unfold Dev.modulePin
  exact .ite (.setFld ..) <| .ite (.moduleIn ..) (.moduleOut ..)

theorem resetRelease (d : Dev) (u : Fuses) : FuseFrame d (d.resetRelease u) := by
  unfold Dev.resetRelease
  exact .ite (.beside (.refl _)) <| .after (.ite (.refl _) <| .after (.bootSelect ..) (.setBoot ..)) <| .beside (.refl _)

theorem refclkLost (d : Dev) : FuseFrame d d.refclkLost := by
  unfold Dev.refclkLost
  exact .ite (.beside (.refl _)) (.refLost ..)

theorem refclkBack (d : Dev) (u : Fuses) : FuseFrame d (d.refclkBack u) := by
  unfold Dev.refclkBack
  exact .ite (.after (.ite (.resetRelease ..) (.refl _)) <| .beside (.refl _)) (.refBack ..)

theorem dpEnds (d : Dev) : FuseFrame d d.dpEnds := .foldl (fun _ _ => .maintEnd ..) _

theorem dpReset (d : Dev) : FuseFrame d d.dpReset := by
  unfold Dev.dpReset
  refine .after (.lmDrop ..) <| .after (.keepPresent ..) <| .after (.setFld ..) ?_
  exact .beside (.dpEnds d)

theorem dpResetDone (d : Dev) : FuseFrame d d.dpResetDone := .beside (.refl _)

theorem bistVat (d : Dev) (v unit : Nat) : FuseFrame d (d.bistVat v unit) := by
  unfold Dev.bistVat
  split
  next h => exact .after (.spareTest ..) <| .after (.autoRetire ..) (.fst h (.occur ..))

theorem bistSpares (d : Dev) (vats : List (Nat × Nat)) : FuseFrame d (d.bistSpares vats) := .beside (.refl _)

theorem bistWire (d : Dev) (g w : Nat) : FuseFrame d (d.bistWire g w) := .after (.wireSwitch ..) <| .after (.wireSpare ..) (.error ..)

theorem bistDone (d : Dev) (rows vats slices wires : List (Nat × Nat)) : FuseFrame d (d.bistDone rows vats slices wires) := by
  unfold Dev.bistDone
  exact .ite (.refl _) <| .beside <| .after (.setFld ..) <| .after (.foldl (fun _ _ => .bistWire ..) _) <|
    .after (.foldl (fun _ _ => .after (.ite (.beside (.refl _)) (.refl _)) (.error ..)) _) <| .after (.foldl (fun _ _ => .bistVat ..) _) <|
    .after (.bistSpares ..) (.foldl (fun _ _ => .after (.softRepair ..) (.error ..)) _)

end Sys2Proof.Machine.FuseFrame
end

section
/-! PROOFS. The fuse operation in progress under the functions of Machine/CsrAccess.lean. -/
namespace Sys2Proof.Machine.FuseFrame

theorem latch (d : Dev) (l : List (Nat × Nat)) : FuseFrame d (d.latch l) := .beside (.refl _)

theorem csrRead (d : Dev) (u : Fuses) (a : Nat) : FuseFrame d (d.csrRead u a).2 := by
  unfold Dev.csrRead
  split
  · exact .beside (.refl d)
  · refine .ite_snd (.latch d _) ?_
    split
    · exact .latch d _
    · split
      · exact .refl d
      · exact .ite_snd (.draw d) (.ite_snd (.draw d) (.ite_snd (.windowRead ..) (.refl d)))

theorem w1c (d : Dev) (a v : Nat) : FuseFrame d (d.w1c a v) := by
  unfold Dev.w1c
  exact .ite (.refl _) (.setNum ..)

theorem rwbPend (d : Dev) (a m v : Nat) : FuseFrame d (d.rwbPend a m v) := by
  unfold Dev.rwbPend
  exact .ite (.refl _) <| .beside (.refl _)

theorem runOn (d : Dev) (now : Nat) : FuseFrame d (d.runOn now) := by
  unfold Dev.runOn
  exact .ite (.refl _) (.advance ..)

end Sys2Proof.Machine.FuseFrame
end

section
/-! PROOFS. The fuse operation in progress under the functions of Machine/Ucp.lean. -/
namespace Sys2Proof.Machine.FuseFrame

theorem ucpReject (d : Dev) (ep : Ep) (sess status ver : Nat) : FuseFrame d (d.ucpReject ep sess status ver) := .after (.inc ..) (.sendUcp ..)

theorem hello (d : Dev) (u : Fuses) (ep : Ep) (f : List Byte) : FuseFrame d (d.hello u ep f) := by
  unfold Dev.hello
  split
  · exact .ucpReject ..
  · exact .ite (.ucpReject ..) <| .ite (.ucpReject ..) <| .ite (.ucpReject ..) <| .after (.sendUcp ..) <| .after (.setSess ..) <| .beside <|
      .beside <| .beside <| .beside <| .beside (.refl _)

theorem finish (d : Dev) (u : Fuses) (n : Nat) (body : List Byte) : FuseFrame d (d.finish u n body) := by
  unfold Dev.finish
  exact .ite (.after (.sendUcp ..) (.setSess ..)) <| .after (.ucpReject ..) (.setSess ..)

theorem helloTimeout (d : Dev) (n : Nat) : FuseFrame d (d.helloTimeout n) := by
  unfold Dev.helloTimeout
  exact .ite (.setSess ..) (.refl _)

theorem idleTimeout (d : Dev) (n : Nat) : FuseFrame d (d.idleTimeout n) := by
  unfold Dev.idleTimeout
  exact .ite (.closeSess ..) (.refl _)

theorem sessFlush (d : Dev) (n seq : Nat) : FuseFrame d (d.sessFlush n seq) := by
  unfold Dev.sessFlush
  exact .ite (.refl _) <| .after (.reply ..) <| .after (.foldl (fun _ _ => .replyAborted ..) _) (.setSess ..)

theorem windowed (d : Dev) (n seq : Nat) {k : Dev} (h : FuseFrame d k) : FuseFrame d (d.windowed n seq k) := by
  unfold Dev.windowed
  extract_lets s base
  refine .ite ?_ (.ite (.inc ..) (.ite (.refl _) h))
  split
  · exact .sendUcp ..
  · exact .refl _

theorem command (d : Dev) (u : Fuses) (n : Nat) (c : Cmd) : FuseFrame d (d.command u n c) :=
  .windowed _ _ _ (.ite (.sessFlush ..) (.setSess ..))

theorem eventAck (d : Dev) (n seq : Nat) : FuseFrame d (d.eventAck n seq) := .setSess ..

theorem eventResend (d : Dev) (n : Nat) : FuseFrame d (d.eventResend n) := by
  unfold Dev.eventResend
  exact .ite (.refl _) (.foldl (fun _ _ => .ite (.after (.sendUcp ..) (.setSess ..)) (.refl _)) _)

theorem ucpFrame (d : Dev) (u : Fuses) (ep : Ep) (f : List Byte) : FuseFrame d (d.ucpFrame u ep f) := by
  unfold Dev.ucpFrame
  dsimp only
  refine .ite (.refl _) ?_
  refine .ite (.inc ..) ?_
  refine .ite (.after (.hello ..) (.inc ..)) ?_
  refine .ite (.inc ..) ?_
  refine .ite (.inc ..) ?_
  split
  · exact .inc ..
  · exact .after (.ite (.finish ..) <| .ite (.command ..) (.eventAck ..)) <| .after (.setSess ..) (.inc ..)

end Sys2Proof.Machine.FuseFrame
end

section
/-! PROOFS. The fuse operation in progress under the functions of Machine/UcpOps.lean. -/
namespace Sys2Proof.Machine.FuseFrame

theorem begin' (d : Dev) (n seq op : Nat) (body : List Byte) : FuseFrame d (d.begin' n seq op body) := .setSess ..

theorem runCmd (d : Dev) (u : Fuses) (n seq op : Nat) (body : List Byte) {f : Dev → Dev} (hf : ∀ e, FuseFrame e (f e)) :
    FuseFrame d (d.runCmd u n seq op body f) := by
  unfold Dev.runCmd
  refine .ite ?_ (.refl _)
  split
  · exact .after (.reply ..) (.begin' ..)
  · exact .after (hf _) (.begin' ..)

theorem armedBy (d old : Dev) (n a : Nat) : FuseFrame d (d.armedBy old n a) := by
  unfold Dev.armedBy
  split
  · exact .ite (.beside (.refl _)) (.refl _)
  · exact .refl _

theorem csrReads (d : Dev) (u : Fuses) (l : List Nat) : FuseFrame d (d.csrReads u l).2 := by
  induction l generalizing d with
  | nil => exact .refl d
  | cons a r ih => exact .after (ih _) (.csrRead d u a)

theorem opCsrRead (d : Dev) (u : Fuses) (n seq : Nat) (b : List Byte) : FuseFrame d (d.opCsrRead u n seq b) := by
  unfold Dev.opCsrRead
  exact .ite (.refl _) (.runCmd _ _ _ _ _ _ fun _ => .after (.reply ..) (.csrReads ..))

theorem pollOnce (d : Dev) (u : Fuses) (n : Nat) : FuseFrame d (d.pollOnce u n) := by
  unfold Dev.pollOnce
  split
  · refine .ite ?_ (.refl _)
    extract_lets m
    split
    next h => exact .after (.ite (.reply ..) (.refl _)) (.snd h (.csrRead ..))
  · exact .refl _

theorem opCsrPoll (d : Dev) (u : Fuses) (n seq : Nat) (b : List Byte) : FuseFrame d (d.opCsrPoll u n seq b) := by
  unfold Dev.opCsrPoll
  exact .runCmd _ _ _ _ _ _ fun _ => .ite (.reply ..) (.refl _)

theorem pollTimeout (d : Dev) (u : Fuses) (n : Nat) : FuseFrame d (d.pollTimeout u n) := by
  unfold Dev.pollTimeout
  split
  · refine .ite ?_ (.refl _)
    extract_lets m
    split
    next h => exact .after (.reply ..) (.snd h (.csrRead ..))
  · exact .refl _

theorem twLoad (d : Dev) (reg : Nat → Nat) (v : List Byte) : FuseFrame d (d.twLoad reg v) := .foldl (fun _ _ => .setNum ..) _

theorem winStart (d : Dev) (w : Nat) : FuseFrame d (d.winStart w) := by
  unfold Dev.winStart
  split
  · exact .refl _
  · exact .ite (.refl _) <| .ite (.after (.twBegin ..) <| .after (.twLoad ..) <| .after (.setNum ..) <| .inside (.refl _)) <|
      .after (.ceTwBegin ..) <| .after (.twLoad ..) <| .after (.setNum ..) <| .inside (.refl _)

theorem winBegin (d : Dev) (w n seq op : Nat) (b : List Byte) : FuseFrame d (d.winBegin w n seq op b) := .after (.winStart ..) <| .inside (.refl _)

theorem winDone (d : Dev) (w : Nat) : FuseFrame d (d.winDone w) := by
  unfold Dev.winDone
  split
  · exact .winStart ..
  · exact .ite (.refl _) <| .after (.winStart ..) <| .ite (.ite (.after (.winStart ..) <| .inside (.refl _)) <|
      .after (.foldl (fun _ _ => .ite (.winStart ..) (.refl _)) _) <| .after (.reply ..) <| .inside (.refl _)) <| .after (.reply ..) <|
      .inside (.refl _)

theorem opTable (d : Dev) (u : Fuses) (n seq op : Nat) (b : List Byte) : FuseFrame d (d.opTable u n seq op b) := by
  unfold Dev.opTable
  exact .runCmd _ _ _ _ _ _ fun _ => .ite (.reply ..) (.winBegin ..)

theorem opCe (d : Dev) (u : Fuses) (n seq op : Nat) (b : List Byte) : FuseFrame d (d.opCe u n seq op b) := .runCmd _ _ _ _ _ _ fun _ => .winBegin ..

theorem opDeviceInfo (d : Dev) (u : Fuses) (n seq : Nat) (b : List Byte) : FuseFrame d (d.opDeviceInfo u n seq b) :=
  .runCmd _ _ _ _ _ _ fun _ => .reply ..

theorem opClose (d : Dev) (u : Fuses) (n seq : Nat) (b : List Byte) : FuseFrame d (d.opClose u n seq b) :=
  .runCmd _ _ _ _ _ _ fun _ => .after (.closeSess ..) (.reply ..)

theorem opFlush (d : Dev) (u : Fuses) (n seq : Nat) (b : List Byte) : FuseFrame d (d.opFlush u n seq b) :=
  .ite (.windowed _ _ _ (.sessFlush ..)) (.runCmd _ _ _ _ _ _ fun e => .refl e)

theorem opHistory (d : Dev) (u : Fuses) (n seq : Nat) (b : List Byte) : FuseFrame d (d.opHistory u n seq b) := .runCmd _ _ _ _ _ _ fun _ => .reply ..

theorem opSubscribe (d : Dev) (u : Fuses) (n seq : Nat) (b : List Byte) : FuseFrame d (d.opSubscribe u n seq b) :=
  .runCmd _ _ _ _ _ _ fun _ => .after (.reply ..) (.setSess ..)

theorem opNop (d : Dev) (u : Fuses) (n seq : Nat) (b : List Byte) : FuseFrame d (d.opNop u n seq b) := .runCmd _ _ _ _ _ _ fun _ => .reply ..

theorem opPartAbort (d : Dev) (u : Fuses) (n seq : Nat) (b : List Byte) : FuseFrame d (d.opPartAbort u n seq b) := by
  unfold Dev.opPartAbort
  refine .runCmd _ _ _ _ _ _ fun e => ?_
  refine .ite (.reply ..) ?_
  split
  · next h3 =>
      exact .after (.reply ..) (.fst h3 (.abortRequest ..))

theorem opCeStatus (d : Dev) (u : Fuses) (n seq : Nat) (b : List Byte) : FuseFrame d (d.opCeStatus u n seq b) :=
  .runCmd _ _ _ _ _ _ fun _ => .reply ..

theorem opPortStatus (d : Dev) (u : Fuses) (n seq : Nat) (b : List Byte) : FuseFrame d (d.opPortStatus u n seq b) := by
  unfold Dev.opPortStatus
  exact .runCmd _ _ _ _ _ _ fun _ => .ite (.reply ..) (.reply ..)

theorem quiesceReply (d : Dev) (n : Nat) : FuseFrame d (d.quiesceReply n) := by
  unfold Dev.quiesceReply
  split
  · exact .ite (.reply ..) (.refl _)
  · exact .refl _

theorem opLaneStatus (d : Dev) (u : Fuses) (n seq : Nat) (b : List Byte) : FuseFrame d (d.opLaneStatus u n seq b) := by
  unfold Dev.opLaneStatus
  exact .runCmd _ _ _ _ _ _ fun _ => .ite (.reply ..) (.reply ..)

theorem opTimeStatus (d : Dev) (u : Fuses) (n seq : Nat) (b : List Byte) : FuseFrame d (d.opTimeStatus u n seq b) :=
  .runCmd _ _ _ _ _ _ fun _ => .reply ..

theorem opTimeSet (d : Dev) (u : Fuses) (n seq : Nat) (b : List Byte) : FuseFrame d (d.opTimeSet u n seq b) := by
  unfold Dev.opTimeSet
  exact .runCmd _ _ _ _ _ _ fun _ => .ite (.reply ..) <| .after (.reply ..) <| .after (.ite (.setFld ..) (.refl _)) <| .after (.setCmd ..) <|
    .after (.setFld ..) <| .after (.setNum ..) <| .after (.setNum ..) (.setNum ..)

theorem opTpoArm (d : Dev) (u : Fuses) (n seq : Nat) (b : List Byte) : FuseFrame d (d.opTpoArm u n seq b) := by
  unfold Dev.opTpoArm
  exact .runCmd _ _ _ _ _ _ fun _ => .ite (.reply ..) <| .after (.reply ..) <| .after (.ite (.setFld ..) (.refl _)) <| .after (.tpoWrite ..) <|
    .after (.setFld ..) <| .after (.setNum ..) <| .after (.setNum ..) <| .after (.setNum ..) (.setNum ..)

theorem opTpoCancel (d : Dev) (u : Fuses) (n seq : Nat) (b : List Byte) : FuseFrame d (d.opTpoCancel u n seq b) := by
  unfold Dev.opTpoCancel
  exact .runCmd _ _ _ _ _ _ fun _ => .ite (.reply ..) <| .after (.reply ..) (.tpoCancel ..)

theorem maintGo (d : Dev) (code k handle : Nat) : FuseFrame d (d.maintGo code k handle) := by
  unfold Dev.maintGo
  split
  · exact .retireBegin ..
  · exact .swapBegin ..
  · exact .ite (.maintEnd ..) (.ddrRetire ..)
  · exact .refl _

theorem opMaint (d : Dev) (u : Fuses) (n seq : Nat) (b : List Byte) : FuseFrame d (d.opMaint u n seq b) := by
  unfold Dev.opMaint
  refine .runCmd _ _ _ _ _ _ fun e => ?_
  refine .ite (.reply ..) ?_
  refine .ite (.reply ..) ?_
  split
  · next h2 =>
      exact .after (.reply ..) (.fst h2 (.maintStart ..))
  · next h2 =>
      exact .after (.reply ..) (.fst h2 (.maintStart ..))
  · next h4 =>
      exact .after (.reply ..) <| .after (.maintGo ..) (.fst h4 (.maintStart ..))

theorem opMaintStop (d : Dev) (u : Fuses) (n seq : Nat) (b : List Byte) : FuseFrame d (d.opMaintStop u n seq b) := by
  unfold Dev.opMaintStop
  refine .runCmd _ _ _ _ _ _ fun e => ?_
  split
  · next h2 =>
      exact .after (.reply ..) (.fst h2 (.maintStop ..))
  · next h2 =>
      exact .after (.reply ..) (.fst h2 (.maintStop ..))

theorem opMaintStatus (d : Dev) (u : Fuses) (n seq : Nat) (b : List Byte) : FuseFrame d (d.opMaintStatus u n seq b) :=
  .runCmd _ _ _ _ _ _ fun _ => .reply ..

theorem opErrRead (d : Dev) (u : Fuses) (n seq : Nat) (b : List Byte) : FuseFrame d (d.opErrRead u n seq b) := by
  unfold Dev.opErrRead
  exact .runCmd _ _ _ _ _ _ fun _ => .ite (.reply ..) (.reply ..)

theorem opErrAck (d : Dev) (u : Fuses) (n seq : Nat) (b : List Byte) : FuseFrame d (d.opErrAck u n seq b) := by
  unfold Dev.opErrAck
  exact .runCmd _ _ _ _ _ _ fun _ => .ite (.reply ..) <| .after (.reply ..) (.ackRecord ..)

theorem opFwStatus (d : Dev) (u : Fuses) (n seq : Nat) (b : List Byte) : FuseFrame d (d.opFwStatus u n seq b) :=
  .runCmd _ _ _ _ _ _ fun _ => .reply ..

theorem setStaging (d : Dev) (s : Staging) : FuseFrame d (d.setStaging s) := .inside (.refl _)

theorem opImgBegin (d : Dev) (u : Fuses) (n seq : Nat) (b : List Byte) : FuseFrame d (d.opImgBegin u n seq b) := by
  unfold Dev.opImgBegin
  exact .runCmd _ _ _ _ _ _ fun _ => .ite (.reply ..) <| .ite (.reply ..) <| .after (.reply ..) (.setStaging ..)

theorem opImgData (d : Dev) (u : Fuses) (n seq : Nat) (b : List Byte) : FuseFrame d (d.opImgData u n seq b) := by
  unfold Dev.opImgData
  exact .runCmd _ _ _ _ _ _ fun _ => .ite (.reply ..) <| .ite (.reply ..) <| .after (.reply ..) (.setStaging ..)

theorem opCommit (d : Dev) (u : Fuses) (n seq kind : Nat) {k : Dev → List Byte → Dev} (h : ∀ e l, FuseFrame e (k e l)) :
    FuseFrame d (d.opCommit u n seq kind k) :=
  .runCmd _ _ _ _ _ _ fun e => .ite (.reply ..) (.ite (.reply ..) (h e e.mgmt.staging.data))

theorem commitFail (d : Dev) (n seq st det : Nat) : FuseFrame d (d.commitFail n seq st det) := .after (.reply ..) (.setStaging ..)

theorem opFwCommit (d : Dev) (u : Fuses) (n seq : Nat) : FuseFrame d (d.opFwCommit u n seq) := by
  unfold Dev.opFwCommit
  refine .opCommit _ _ _ _ _ fun e l => ?_
  refine .ite (.reply ..) ?_
  split
  · exact .commitFail ..
  · exact .commitFail ..
  · exact .commitFail ..
  · exact .after (.spiImage ..) <| .inside (.refl _)

theorem recipeLoad (d : Dev) (img : List Byte) : FuseFrame d (d.recipeLoad img) :=
  .after (.imageCopy ..) <| .after (.setVat ..) <| .after (.foldl (fun _ _ => .after (.setNum ..) <| .after (.setFld ..) (.setFld ..)) _) (.setVat ..)

theorem opRecipeCommit (d : Dev) (u : Fuses) (n seq : Nat) : FuseFrame d (d.opRecipeCommit u n seq) := by
  unfold Dev.opRecipeCommit
  refine .opCommit _ _ _ _ _ fun e l => ?_
  split
  · exact .reply ..
  · exact .commitFail ..
  · exact .after (.setStaging ..) (.recipeLoad ..)

theorem commitDone (d : Dev) (ok : Bool) : FuseFrame d (d.commitDone ok) := by
  unfold Dev.commitDone
  split
  · exact .refl _
  · exact .ite (.after (.reply ..) <| .beside <| .inside <| .after (.ite (.spiRead ..) (.refl _)) (.setStaging ..)) <| .after (.reply ..) <|
      .after (.ite (.spiRead ..) (.refl _)) (.setStaging ..)

theorem opActivate (d : Dev) (u : Fuses) (n seq : Nat) (b : List Byte) : FuseFrame d (d.opActivate u n seq b) := by
  unfold Dev.opActivate
  exact .runCmd _ _ _ _ _ _ fun _ => .ite (.reply ..) <| .ite (.reply ..) <| .ite (.reply ..) <| .after (.warmRestart ..) <|
    .after (.writeSelector ..) (.reply ..)

theorem opGetCerts (d : Dev) (u : Fuses) (n seq : Nat) (b : List Byte) : FuseFrame d (d.opGetCerts u n seq b) := by
  unfold Dev.opGetCerts
  exact .runCmd _ _ _ _ _ _ fun _ => .ite (.reply ..) (.reply ..)

theorem opAttest (d : Dev) (u : Fuses) (n seq : Nat) (b : List Byte) : FuseFrame d (d.opAttest u n seq b) :=
  .runCmd _ _ _ _ _ _ fun _ => .after (.reply ..) <| .beside (.refl _)

theorem opCredRead (d : Dev) (u : Fuses) (n seq : Nat) (b : List Byte) : FuseFrame d (d.opCredRead u n seq b) := by
  unfold Dev.opCredRead
  exact .runCmd _ _ _ _ _ _ fun _ => .ite (.reply ..) (.reply ..)

theorem opCredWrite (d : Dev) (u : Fuses) (n seq : Nat) (b : List Byte) : FuseFrame d (d.opCredWrite u n seq b) := by
  unfold Dev.opCredWrite
  exact .runCmd _ _ _ _ _ _ fun _ => .ite (.reply ..) <| .after (.reply ..) <| .after (.closeWhere ..) <| .inside (.refl _)

theorem opSvn (d : Dev) (u : Fuses) (n seq kind min : Nat) : FuseFrame d (d.opSvn u n seq kind min) := by
  unfold Dev.opSvn
  exact .runCmd _ _ _ _ _ _ fun _ => .ite (.reply ..) (.reply ..)

theorem opSnapshot (d : Dev) (u : Fuses) (n seq : Nat) (b : List Byte) : FuseFrame d (d.opSnapshot u n seq b) := by
  unfold Dev.opSnapshot
  exact .runCmd _ _ _ _ _ _ fun _ => .ite (.reply ..) (.reply ..)

theorem opTelem (d : Dev) (u : Fuses) (n seq : Nat) (b : List Byte) : FuseFrame d (d.opTelem u n seq b) := by
  unfold Dev.opTelem
  exact .runCmd _ _ _ _ _ _ fun _ => .ite (.reply ..) <| .after (.reply ..) (.setSess ..)

theorem opFlight (d : Dev) (u : Fuses) (n seq : Nat) (b : List Byte) : FuseFrame d (d.opFlight u n seq b) :=
  .ite (.refl _) (.runCmd _ _ _ _ _ _ fun e => .ite (.reply ..) (.after (.reply ..) (.flightRead e ..)))

theorem readings (d : Dev) (n : Nat) : FuseFrame d (d.readings n).2 := by
  induction n generalizing d with
  | zero => exact .refl d
  | succ n ih => exact .after (ih _) (.measured d)

theorem opPower (d : Dev) (u : Fuses) (n seq : Nat) (b : List Byte) : FuseFrame d (d.opPower u n seq b) :=
  .runCmd _ _ _ _ _ _ fun e => .after (.reply ..) (.readings e 25)

theorem opThermal (d : Dev) (u : Fuses) (n seq : Nat) (b : List Byte) : FuseFrame d (d.opThermal u n seq b) :=
  .runCmd _ _ _ _ _ _ fun e => .after (.reply ..) (.readings e 96)

theorem opUmber (d : Dev) (u : Fuses) (n seq : Nat) (b : List Byte) : FuseFrame d (d.opUmber u n seq b) := by
  unfold Dev.opUmber
  exact .runCmd _ _ _ _ _ _ fun _ => .ite (.after (.umberEnter ..) (.reply ..)) (.reply ..)

theorem plainCmd (d : Dev) (u : Fuses) (n : Nat) : FuseFrame d (d.plainCmd u n) := by
  unfold Dev.plainCmd
  dsimp only
  split
  · exact .refl _
  · exact .ite (.refl _) <| .ite (.opTimeSet ..) <| .ite (.opMaint ..) (.runCmd _ _ _ _ _ _ fun _ => .reply ..)

end Sys2Proof.Machine.FuseFrame
end

section
/-! PROOFS. The fuse operation in progress under the functions of Machine/Net.lean. -/
namespace Sys2Proof.Machine.FuseFrame

theorem neighbor (d : Dev) (mac pkt : List Byte) : FuseFrame d (d.neighbor mac pkt) := by
  unfold Dev.neighbor
  exact .ite (.sendEth ..) (.refl _)

theorem echo6 (d : Dev) (mac pkt : List Byte) : FuseFrame d (d.echo6 mac pkt) := by
  unfold Dev.echo6
  exact .ite (.sendEth ..) (.refl _)

theorem ptpMessage (d : Dev) (m : List Byte) : FuseFrame d (d.ptpMessage m) := by
  unfold Dev.ptpMessage
  exact .ite (.refl _) <| .ite (.ptpSync ..) <| .ite (.ptpReq ..) <| .ite (.ptpFollow ..) <| .ite (.ptpResp ..) <| .ite (.ptpAnnounce ..) (.refl _)

theorem ip6Receive (d : Dev) (u : Fuses) (mac pkt : List Byte) : FuseFrame d (d.ip6Receive u mac pkt) := by
  unfold Dev.ip6Receive
  split
  · exact .refl _
  · exact .ite (.ite (.neighbor ..) (.echo6 ..)) <| .ite (.ite (.ptpMessage ..) <| .ite (.ucpFrame ..) (.refl _)) (.refl _)

theorem mgmtFrame (d : Dev) (u : Fuses) (fcs : Bool) (f : List Byte) : FuseFrame d (d.mgmtFrame u fcs f) := by
  unfold Dev.mgmtFrame
  exact .ite (.refl _) <| .ite (.inc ..) <| .ite (.ucpFrame ..) <| .ite (.ite (.refl _) (.ptpMessage ..)) (.ip6Receive ..)

theorem mgmtLink (d : Dev) (up kr cr : Bool) : FuseFrame d (d.mgmtLink up kr cr) := by
  unfold Dev.mgmtLink
  exact .ite (.ite (.refl _) <| .inside (.refl _)) <| .after (.closePort ..) <| .inside (.refl _)

end Sys2Proof.Machine.FuseFrame
end

section
/-! PROOFS. The fuse operation in progress under the functions of Machine/Settle.lean. -/
namespace Sys2Proof.Machine.FuseFrame

theorem quarantinePort (d : Dev) (p ref : Nat) : FuseFrame d (d.quarantinePort p ref) := by
  unfold Dev.quarantinePort
  exact .ite (.refl _) <| .ite (.withhold ..) <| .after (.inc ..) <| .after (.setFld ..) <| .after (.portOff ..) <| .beside (.refl _)

theorem abortFor (d : Dev) (part cause rseq ref w0 : Nat) : FuseFrame d (d.abortFor part cause rseq ref w0) := by
  unfold Dev.abortFor
  refine .ite ?_ (.abortBegin ..)
  refine .after (.contain ..) ?_
  split
  · exact .raiseSev ..
  · exact .refl _

theorem perform (d : Dev) (x1 : Action) : FuseFrame d (d.perform x1) := by
  unfold Dev.perform
  split
  · exact .quarantinePort ..
  · exact .autoRetire ..
  · exact .autoSwap ..
  · exact .autoRetire ..
  · exact .autoDdr ..
  · exact .wireSpare ..
  · exact .softRepair ..
  · exact .laneWaiting ..
  · exact .abortFor ..
  · exact .contain ..
  · exact .tallyTimeout ..

theorem actions (n : Nat) (d : Dev) : FuseFrame d (Dev.actions n d) := by
  induction n generalizing d with
  | zero => exact .refl d
  | succ n ih =>
    unfold Dev.actions
    split
    · exact .refl _
    · exact .after (ih _) <| .after (.perform ..) (.beside (.refl d))

theorem inboxes (d : Dev) (u : Fuses) : FuseFrame d (d.inboxes u) :=
  .after (.foldl (fun _ _ => .annReceive ..) _) <| .after (.foldl (fun _ _ => .ucpFrame ..) _) <| .inside (.refl _)

theorem sessions (d : Dev) (u : Fuses) : FuseFrame d (d.sessions u) := by
  unfold Dev.sessions
  exact .ite (.refl _) (.foldl (fun _ _ => .after (.quiesceReply ..) <| .after (.pollOnce ..) <| .after (.plainCmd ..) (.plainCmd ..)) _)

theorem queues (d : Dev) : FuseFrame d d.queues := .after (.turnsSettle ..) <| .after (.stallNote ..) (.behindAll ..)

theorem settle (d : Dev) (u : Fuses) : FuseFrame d (d.settle u) :=
  .after (.lateAll ..) <| .after (.lmWake ..) <| .after (.flow ..) <| .after (.queues ..) <| .after (.actions ..) <| .after (.sessions ..) <|
    .after (.inboxes ..) (.actions ..)

end Sys2Proof.Machine.FuseFrame
end

section
/-! PROOFS. The fuse operation in progress under the instructions of Machine/Seq.lean. -/
namespace Sys2Proof.Machine.FuseFrame

theorem iNop (d : Dev) (r : Run) (c : Ctx) (w : Nat) : Issued d (Dev.iNop d r c w) := .refl d

theorem iSetf (d : Dev) (r : Run) (c : Ctx) (w : Nat) : Issued d (Dev.iSetf d r c w) := .putCtx d _

theorem iLi (d : Dev) (r : Run) (c : Ctx) (w : Nat) : Issued d (Dev.iLi d r c w) := .refl d

theorem iLui (d : Dev) (r : Run) (c : Ctx) (w : Nat) : Issued d (Dev.iLui d r c w) := .refl d

theorem iAlu (k : Nat) (d : Dev) (r : Run) (c : Ctx) (w : Nat) : Issued d (Dev.iAlu k d r c w) := .refl d

theorem iAluI (k : Nat) (d : Dev) (r : Run) (c : Ctx) (w : Nat) : Issued d (Dev.iAluI k d r c w) := .refl d

theorem iGets (d : Dev) (r : Run) (c : Ctx) (w : Nat) : Issued d (Dev.iGets d r c w) := .refl d

theorem iLdw (d : Dev) (r : Run) (c : Ctx) (w : Nat) : Issued d (Dev.iLdw d r c w) := .ite trivial (.refl d)

theorem iStw (d : Dev) (r : Run) (c : Ctx) (w : Nat) : Issued d (Dev.iStw d r c w) := .ite trivial (.putCtx d _)

theorem jump (d : Dev) (r : Run) (w : Nat) (taken : Bool) : Issued d (Dev.jump d r w taken) := .refl d

theorem iBra (d : Dev) (r : Run) (c : Ctx) (w : Nat) : Issued d (Dev.iBra d r c w) := jump ..

theorem iBeq (d : Dev) (r : Run) (c : Ctx) (w : Nat) : Issued d (Dev.iBeq d r c w) := jump ..

theorem iBne (d : Dev) (r : Run) (c : Ctx) (w : Nat) : Issued d (Dev.iBne d r c w) := jump ..

theorem iBlt (d : Dev) (r : Run) (c : Ctx) (w : Nat) : Issued d (Dev.iBlt d r c w) := jump ..

theorem iBge (d : Dev) (r : Run) (c : Ctx) (w : Nat) : Issued d (Dev.iBge d r c w) := jump ..

theorem iAop (d : Dev) (r : Run) (c : Ctx) (w : Nat) : Issued d (Dev.iAop d r c w) :=
  .ite trivial (.ite trivial (.ite trivial (.setVat d _)))

theorem iWait (d : Dev) (r : Run) (c : Ctx) (w : Nat) : Issued d (Dev.iWait d r c w) := .ite (.refl d) (.refl d)

theorem iOut (d : Dev) (r : Run) (c : Ctx) (w : Nat) : Issued d (Dev.iOut d r c w) := by
  refine .ite trivial (.ite trivial ?_)
  dsimp only
  exact .after (.incBy ..) (.putCtx d _)

theorem iSend (d : Dev) (r : Run) (c : Ctx) (w : Nat) : Issued d (Dev.iSend d r c w) :=
  .ite trivial (.ite (.refl d) (.ite (.inc d _) (.after (.inc ..) (.setVat d _))))

theorem iRecv (d : Dev) (r : Run) (c : Ctx) (w : Nat) : Issued d (Dev.iRecv d r c w) := by
  refine .ite trivial ?_
  split
  · exact .refl d
  · exact .after (.putCtx ..) (.setVat d _)

theorem iDone (d : Dev) (r : Run) (c : Ctx) (w : Nat) : Issued d (Dev.iDone d r c w) := by
  unfold Dev.iDone
  split
  · exact .after (.putCtx ..) (.endRun d r.lv)
  · dsimp only
    split
    · exact .after (.putJob ..) (.endRun d r.lv)
    · exact .endRun d r.lv
  · exact .ite trivial (.after (.sendResult ..) (.endRun d r.lv))

end Sys2Proof.Machine.FuseFrame
end

section
/-! PROOFS. The fuse operation in progress, if it programs a key, names one that is not fused yet (spec/17_boot_security.md R595): what keeps that so among the resets,
the fuse operations and register writes, which do reach the operation in progress. -/
namespace Sys2Proof.Machine
open Dev

/-- A fuse operation that programs a key names one that is not fused. -/
def Unfused (u : Fuses) (op index : Nat) : Prop := (op = 1 → u.owned = false) ∧ (op = 2 → if index = 2 then u.rkey2 = [] else u.rkey3 = [])

/-- The fuse operation in progress, if it programs a key, names one that is not fused. -/
structure Dev.Fresh (d : Dev) (u : Fuses) : Prop where
  unfused : ∀ op index key, d.mgmt.fuseBusy = some (op, index, key) → Unfused u op index

theorem State.fuseFresh_iff (s : State) : s.fuseFresh = true ↔ s.dev.Fresh s.fuse := by
  unfold State.fuseFresh
  constructor
  · refine fun h => ⟨fun op index key busy => ?_⟩
    rw [busy] at h
    refine ⟨fun e => ?_, fun e => ?_⟩
    · subst e
      simpa using h
    · subst e
      split_ifs with hi <;> simpa [hi] using h
  · intro h
    split
    · next busy => simpa using (h.unfused _ _ _ busy).1 rfl
    · next index _ busy =>
      have := (h.unfused _ _ _ busy).2 rfl
      split_ifs with hi <;> simpa [hi] using this
    · rfl

namespace Dev.Fresh

theorem frame {d e : Dev} {u : Fuses} (k : FuseFrame d e) (h : d.Fresh u) : e.Fresh u :=
  ⟨fun op index key busy => h.unfused op index key (k.fuseBusy.symm.trans busy)⟩

theorem of_none {d : Dev} {u : Fuses} (h : d.mgmt.fuseBusy = none) : d.Fresh u :=
  ⟨fun _ _ _ busy => nomatch h.symm.trans busy⟩

theorem ite {p : Prop} [Decidable p] {d e : Dev} {u : Fuses} (h : d.Fresh u) (k : e.Fresh u) : (if p then d else e).Fresh u := by
  split
  · exact h
  · exact k

end Dev.Fresh

/-! The resets end the fuse operation in progress; a management core that goes leaves it or ends it. -/

theorem fuseBusy_pins (old d : Dev) : (lmDrop old (keepPresent old d)).mgmt.fuseBusy = d.mgmt.fuseBusy :=
  (FuseFrame.after (.lmDrop ..) (.keepPresent ..)).fuseBusy

theorem fuseBusy_fullReset (d : Dev) (cause : Nat) : (d.fullReset cause).mgmt.fuseBusy = none := fuseBusy_pins ..

theorem fuseBusy_powerOnReset (d : Dev) : d.powerOnReset.mgmt.fuseBusy = none := fuseBusy_pins ..

theorem fuseBusy_resetAssert (d : Dev) (pwrgood : Bool) : (d.resetAssert pwrgood).mgmt.fuseBusy = none := fuseBusy_fullReset ..

theorem fuseBusy_mgmtClear (d : Dev) : d.mgmtClear.mgmt.fuseBusy = none := rfl

theorem fuseBusy_mgmtReset (d : Dev) (u : Fuses) : (d.mgmtReset u).mgmt.fuseBusy = none :=
  (FuseFrame.after (.bootSelect ..) (.setBoot d.mgmtClear 1)).fuseBusy.trans (fuseBusy_mgmtClear d)

namespace Dev.Fresh

theorem undervoltage {d : Dev} {u : Fuses} (h : d.Fresh u) (rail mv : Nat) : (d.undervoltage rail mv).Fresh u :=
  .ite (.of_none (fuseBusy_fullReset ..)) h

theorem thermTrip {d : Dev} {u : Fuses} (h : d.Fresh u) (sensor t : Nat) : (d.thermTrip sensor t).Fresh u :=
  .ite (.frame (.emit ..) (.of_none (fuseBusy_fullReset ..))) h

theorem coreFault {d : Dev} {u : Fuses} (h : d.Fresh u) (n : Nat) : (d.coreFault u n).Fresh u := by
  unfold Dev.coreFault
  refine .ite ?_ h
  extract_lets cores left spare m e
  refine .ite (.frame (.after (.warmRestart ..) (show FuseFrame d e from .after (.error ..) (.inside (.refl d)))) h) ?_
  exact .frame (.inside (.refl _)) (.of_none (fuseBusy_mgmtClear (e.closeWhere (fun _ => true) 6)))

/-- GO of a fuse operation is refused where the key that it names is fused (R595). -/
theorem unfused_of_not_refused {d : Dev} {u : Fuses} {op index : Nat} (h : d.fuseRefused u op index = false) : Unfused u op index := by
  refine ⟨fun e => ?_, fun e => ?_⟩
  · subst e
    simp only [fuseRefused, Bool.or_eq_false_iff] at h
    exact h.1
  · subst e
    simp only [fuseRefused, Bool.or_eq_false_iff, Bool.not_eq_false', Bool.or_eq_true, decide_eq_true_eq] at h
    obtain ⟨⟨hi, hf⟩, -⟩ := h
    rcases hi with rfl | rfl <;> simpa [recipeFused, recipeKey] using hf

theorem fuseGo {d : Dev} {u : Fuses} (h : d.Fresh u) (op index : Nat) : (d.fuseGo u op index).Fresh u := by
  by_cases hop : 1 ≤ op ∧ op ≤ 4
  case neg =>
    unfold Dev.fuseGo
    rw [if_pos hop]
    exact .frame (.after (.setFld ..) (.setFld d ..)) h
  cases hr : d.fuseRefused u op index with
  | true =>
    rw [fuseGo_refused d u hop hr]
    exact .frame (.after (.setFld ..) <| .after (.setFld ..) (.setFld d ..)) h
  | false =>
    rw [fuseGo_busy d u hop hr]
    refine ⟨fun op' index' key busy => ?_⟩
    obtain ⟨rfl, rfl, -⟩ : op = op' ∧ index = index' ∧ d.stagedKey = key := by simpa using busy
    exact unfused_of_not_refused hr

/-! Register writes start fuse operations too. -/

theorem actOn {d : Dev} {u : Fuses} (h : d.Fresh u) (a v w : Nat) : (d.actOn u a v w).Fresh u := by
  unfold Dev.actOn
  refine .ite (.ite (.frame (.retireNow ..) h) h) ?_
  refine .ite (.frame (.twStart ..) h) ?_
  refine .ite (.frame (.ceTwStart ..) h) ?_
  refine .ite (.ite (.frame (.abortRequest ..) h) h) ?_
  refine .ite (.frame (.setCmd ..) h) ?_
  refine .ite (.frame (.ackRecord ..) h) ?_
  refine .ite (.frame (.hsRelease ..) h) ?_
  refine .ite (.ite (.of_none (fuseBusy_mgmtReset ..)) (.ite (.frame (.dpReset ..) h) h)) ?_
  refine .ite (.ite (h.fuseGo ..) h) ?_
  exact .ite (.ite (.frame (.beside (.refl d)) h) h) h

theorem csrWrite {d : Dev} {u : Fuses} (h : d.Fresh u) (a m v : Nat) : (d.csrWrite u a m v).Fresh u := by
  unfold Dev.csrWrite
  extract_lets +onlyGivenNames d1 d2 rm w x
  have h2 : d2.Fresh u := .frame (.after (.rwbPend d1 ..) (.w1c d ..)) h
  clear_value d2
  split
  · exact .frame (.mrdWrite ..) h2
  · split
    · exact .frame (.gclWrite ..) h2
    · exact .ite (.frame (.tpoWrite ..) h2) (.actOn (.frame (.putRw ..) h2) ..)

theorem registerWrite {d : Dev} {u : Fuses} (h : d.Fresh u) (a v : Nat) : (d.registerWrite u a v).Fresh u := .ite h (h.csrWrite ..)

theorem csrWrites {d : Dev} {u : Fuses} (h : d.Fresh u) (n : Nat) (l : List (Nat × Nat × Nat)) : ((d.csrWrites u n l).getD d).Fresh u := by
  suffices ∀ (d : Dev) (e : Dev), d.Fresh u → d.csrWrites u n l = some e → e.Fresh u by
    cases he : d.csrWrites u n l with
    | none => exact h
    | some e => exact this d e h he
  induction l with
  | nil =>
    intro d e h he
    cases he
    exact h
  | cons x l ih =>
    obtain ⟨a, m, v⟩ := x
    intro d e h he
    unfold Dev.csrWrites at he
    split at he
    · cases he
    · exact ih _ _ (.frame (.armedBy ..) (h.csrWrite ..)) he

theorem runCmd {d : Dev} {u : Fuses} (h : d.Fresh u) (n seq op : Nat) (b : List Byte) {f : Dev → Dev} (hf : ∀ e, e.Fresh u → (f e).Fresh u) :
    (d.runCmd u n seq op b f).Fresh u := by
  have hb : (d.begin' n seq op b).Fresh u := .frame (.begin' ..) h
  unfold Dev.runCmd
  refine .ite ?_ h
  split
  · exact .frame (.reply ..) hb
  · exact hf _ hb

theorem runWrites {d : Dev} {u : Fuses} (h : d.Fresh u) (n seq op : Nat) (b : List Byte) {k : Dev → Dev} (hk : ∀ e, FuseFrame e (k e)) :
    (d.runWrites u n seq op b k).Fresh u :=
  h.runCmd _ _ _ _ fun _ he => .ite (.frame (.reply ..) he) (.frame (hk _) (he.csrWrites ..))

theorem opCsrRmw {d : Dev} {u : Fuses} (h : d.Fresh u) (n seq : Nat) (b : List Byte) : (d.opCsrRmw u n seq b).Fresh u := by
  refine .ite h (h.runCmd _ _ _ _ fun e he => ?_)
  exact .frame (.reply ..) (.csrWrites (.frame (.csrRead e ..) he) ..)

end Dev.Fresh

end Sys2Proof.Machine
end

section
/-! PROOFS. The ways in which a command's effect comes into the state keep the key of the fuse operation in progress unfused. -/
namespace Sys2Proof.Machine
open Dev

/-- A command's result: where the fuse operation in progress named a key that was not fused, it does so in a next state. -/
structure KeepsFresh (s : State) (r : Res) : Prop where
  next : ∀ t, r = .next t → s.dev.Fresh s.fuse → t.dev.Fresh t.fuse

namespace KeepsFresh

theorem act {s : State} {f : Dev → Fuses → Dev} (hf : ∀ d u, d.Fresh u → (f d u).Fresh u) : KeepsFresh s (Machine.act s f) := by
  refine ⟨fun t ht h => ?_⟩
  cases (act_eq s f).symm.trans ht
  unfold State.effect
  split
  · exact h
  · exact .frame (.settle ..) (hf _ _ h)

theorem need {s : State} {ok : Bool} {k : Res} (h : KeepsFresh s k) : KeepsFresh s (Machine.need ok s k) := by
  refine ⟨fun t ht hs => ?_⟩
  rcases need_next ht with ⟨-, hk⟩ | ⟨-, rfl⟩
  · exact h.next t hk hs
  · exact hs

theorem predictable {s : State} {bad : Dev → Fuses → Bool} {k : Res} (h : KeepsFresh s k) : KeepsFresh s (Machine.predictable s bad k) :=
  ⟨fun t ht => h.next t (predictable_next ht)⟩

theorem passing {s : State} {now : Nat} {k : Res} (h : KeepsFresh s k) : KeepsFresh s (Machine.passing now s k) := h.predictable

theorem timed {s : State} {now : Nat} {f : Dev → Fuses → Dev} (hf : ∀ d u, d.Fresh u → (f d u).Fresh u) : KeepsFresh s (Machine.timed now s f) :=
  .passing (.act fun d u h => hf _ u (.frame (.advance d now) h))

theorem always {s : State} {now : Nat} {f : Dev → Fuses → Dev} (hf : ∀ d u, d.Fresh u → (f d u).Fresh u) : KeepsFresh s (Machine.always now s f) := by
  refine .passing ⟨fun t ht h => ?_⟩
  cases ht
  exact .frame (.settle ..) (hf _ _ (.frame (.runOn ..) h))

/-! Effects that leave the fuse operation as it was. -/

theorem act_frame {s : State} {f : Dev → Fuses → Dev} (hf : ∀ d u, FuseFrame d (f d u)) : KeepsFresh s (Machine.act s f) :=
  .act fun d u h => h.frame (hf d u)

theorem timed_frame {s : State} {now : Nat} {f : Dev → Fuses → Dev} (hf : ∀ d u, FuseFrame d (f d u)) : KeepsFresh s (Machine.timed now s f) :=
  .timed fun d u h => h.frame (hf d u)

theorem always_frame {s : State} {now : Nat} {f : Dev → Fuses → Dev} (hf : ∀ d u, FuseFrame d (f d u)) : KeepsFresh s (Machine.always now s f) :=
  .always fun d u h => h.frame (hf d u)

theorem idle (s : State) : KeepsFresh s (Machine.idle s) := .timed_frame fun d _ => .refl d

theorem actFuse {s : State} {f : Dev → Fuses → Dev × Fuses} (hf : ∀ d u, d.Fresh u → (f d u).1.Fresh (f d u).2) : KeepsFresh s (Machine.actFuse s f) := by
  refine ⟨fun t ht h => ?_⟩
  rcases actFuse_next ht with ⟨-, rfl⟩ | ⟨-, rfl⟩
  · exact h
  · exact .frame (.settle ..) (hf _ _ h)

end KeepsFresh

/-! The commands that blow fuses: the end of an operation leaves none in progress, and a minimum security version is no key. -/

theorem Dev.Fresh.fuseDone {d : Dev} {u : Fuses} (h : d.Fresh u) : (d.fuseDone u).1.Fresh (d.fuseDone u).2 := by
  cases busy : d.mgmt.fuseBusy with
  | none =>
    rw [fuseDone_idle d u busy]
    exact h
  | some x =>
    obtain ⟨op, index, key⟩ := x
    obtain ⟨e, ⟨-, hnone⟩, he⟩ := fuseDone_busy d u busy
    rw [he]
    exact .of_none hnone

end Sys2Proof.Machine
end

section
/-! PROOFS. Every command keeps the key of the fuse operation in progress unfused. -/
namespace Sys2Proof.Machine
open Dev FuseFrame

namespace Dev.Fresh

theorem opCsrWrite {d : Dev} {u : Fuses} (h : d.Fresh u) (n seq : Nat) (b : List Byte) : (d.opCsrWrite u n seq b).Fresh u :=
  h.runWrites _ _ _ _ fun _ => .reply ..

theorem opPortEnable {d : Dev} {u : Fuses} (h : d.Fresh u) (n seq : Nat) (b : List Byte) : (d.opPortEnable u n seq b).Fresh u :=
  h.runWrites _ _ _ _ fun _ => .reply ..

theorem opPortQuiesce {d : Dev} {u : Fuses} (h : d.Fresh u) (n seq : Nat) (b : List Byte) : (d.opPortQuiesce u n seq b).Fresh u :=
  h.runWrites _ _ _ _ fun e => .refl e

theorem opIndigo {d : Dev} {u : Fuses} (h : d.Fresh u) (n seq : Nat) (b : List Byte) : (d.opIndigo u n seq b).Fresh u :=
  h.runWrites _ _ _ _ fun _ => .reply ..

theorem opSlotCtrl {d : Dev} {u : Fuses} (h : d.Fresh u) (n seq : Nat) (b : List Byte) : (d.opSlotCtrl u n seq b).Fresh u :=
  h.runWrites _ _ _ _ fun _ => .reply ..

/-- Fuses with the same keys: what a minimum security version leaves. -/
theorem of_keys {d : Dev} {u v : Fuses} (h : d.Fresh u) (howned : v.owned = u.owned) (h2 : v.rkey2 = u.rkey2) (h3 : v.rkey3 = u.rkey3) : d.Fresh v := by
  refine ⟨fun op index key busy => ?_⟩
  have := h.unfused op index key busy
  unfold Unfused at this ⊢
  rwa [howned, h2, h3]

theorem svnFirmware {d : Dev} {u : Fuses} (h : d.Fresh u) (n seq : Nat) :
    (d.opSvn u n seq 1 (if d.svnRuns u n seq 1 then d.svnFirmware u else u).fwMin).Fresh (if d.svnRuns u n seq 1 then d.svnFirmware u else u) := by
  refine .frame (.opSvn ..) ?_
  split
  · exact h.of_keys rfl rfl rfl
  · exact h

theorem svnRecipe {d : Dev} {u : Fuses} (h : d.Fresh u) (n seq : Nat) :
    (d.opSvn u n seq 2 (if d.svnRuns u n seq 2 then d.svnRecipe u else u).rcpMin).Fresh (if d.svnRuns u n seq 2 then d.svnRecipe u else u) := by
  refine .frame (.opSvn ..) ?_
  split
  · exact h.of_keys rfl rfl rfl
  · exact h

end Dev.Fresh

/-- Command by command: almost all have an effect that leaves the fuse operation as it was. -/
theorem exec_keepsFresh (c : Instr) (s : State) : KeepsFresh s (exec c s) := by
  unfold exec
  cases c with
  | beatBoundary | zqCalibration => exact .timed_frame fun _ _ => .refl _
  | registerWrite => exact .need (.predictable (.act fun _ _ h => h.registerWrite ..))
  | quiesceRequest => exact .need (.need (.timed_frame fun _ _ => .quiesceRequest ..))
  | quiesceRelease => exact .need (.need (.predictable (.timed_frame fun _ _ => .quiesceRelease ..)))
  | quiesceDrained => exact .need (.timed_frame fun _ _ => .quiesceDrained ..)
  | forcedQuiesce => exact .need (.timed_frame fun _ _ => .forcedQuiesce ..)
  | mrdStage => exact .need (.need (.predictable (.timed fun _ _ h => h.csrWrite ..)))
  | mrdClear | mrdCancel | mrdArm => exact .need (.need (.timed_frame fun _ _ => .mrdWrite ..))
  | mordantGroupApply => exact .predictable (.timed_frame fun _ _ => .groupApply ..)
  | retireNow => exact .need (.need (.timed_frame fun _ _ => .retireNow ..))
  | prevBankRetire => exact .need (.timed_frame fun _ _ => .prevRetire ..)
  | refclkLost => exact .always_frame fun _ _ => .refclkLost ..
  | refclkRestored => exact .always_frame fun _ _ => .refclkBack ..
  | rowReceive => exact .need (.predictable (.timed_frame fun _ _ => .rowReceive ..))
  | packetHeaderArrival =>
    exact .need (.predictable (.timed_frame fun d _ => by
      split
      · exact .after (.sramError ..) (.headerArrival ..)
      · exact .headerArrival ..))
  | payloadEnd => exact .need (.timed_frame fun _ _ => .payloadEnd ..)
  | emOverflowLookupDone =>
    exact .timed_frame fun d _ => by
      split
      · exact .ite (.after (.overflowDone ..) (.seeing ..)) (.refl _)
      · exact .refl _
  | emLearnApply => exact .need (.timed_frame fun _ _ => .after (.learnNext ..) (.seeing ..))
  | emAgeOut => exact .need (.predictable (.timed_frame fun _ _ => .after (.emAgeOut ..) (.seeing ..)))
  | fenceRelease => exact .predictable (.timed_frame fun _ _ => .fenceGo ..)
  | fenceStallRelease => exact .predictable (.timed_frame fun _ _ => .stallGo ..)
  | crossbarSlot => exact .need (.timed_frame fun _ _ => .slot ..)
  | sliceHardFault => exact .need (.timed_frame fun _ _ => .sliceHard ..)
  | ageLimit =>
    exact .timed_frame fun d _ => by
      split
      · exact .ageLimitAt ..
      · exact .refl _
  | egressChoose => exact .need (.timed_frame fun _ _ => .choose ..)
  | launchTimeReached | gateIntervalExpiry => exact .need (.timed_frame fun _ _ => .refl _)
  | transmitComplete => exact .need (.timed_frame fun _ _ => .txComplete ..)
  | resultAdmit => exact .need (.predictable (.timed_frame fun _ _ => .resultAdmit ..))
  | originatedAdmit => exact .timed_frame fun _ _ => .originatedAdmit ..
  | gclGo => exact .need (.need (.predictable (.timed_frame fun _ _ => .gclWrite ..)))
  | gclCancel => exact .need (.need (.timed_frame fun _ _ => .gclWrite ..))
  | gclHandover => exact .timed_frame fun _ _ => .gclHandOver ..
  | contributionAccept => exact .need (.predictable (.timed_frame fun _ _ => .contribAccept ..))
  | vatContribution => exact .need (.predictable (.timed_frame fun _ _ => .vatContribution ..))
  | handlerStep => exact .need (.timed_frame fun _ _ => .handlerStep ..)
  | handlerFinal => exact .need (.timed_frame fun _ _ => .after (.handlerFinal ..) (.meeting ..))
  | arrayOpComplete =>
    exact .need (.timed_frame fun d _ => by
      split
      · exact .after (.tallyError ..) (.after (.arrayOpComplete ..) (.meeting ..))
      · exact .arrayOpComplete ..)
  | chunkTimeout => exact .need (.timed_frame fun _ _ => .chunkTimeout ..)
  | recordEntryExpire => exact .need (.timed_frame fun _ _ => .recExpire ..)
  | launchAckAccept => exact .need (.predictable (.timed_frame fun _ _ => .ackAccept ..))
  | launchTimeout => exact .need (.timed_frame fun _ _ => .launchTimeout ..)
  | launchSlotFree => exact .need (.timed_frame fun _ _ => .launchFree ..)
  | ceAbortGo => exact .need (.need (.timed_frame fun _ _ => .after (.abortRequest ..) (.setFld ..)))
  | partitionAbortRun => exact .timed_frame fun _ _ => .after (.abortRun ..) (.meeting ..)
  | ceTwRead | ceTwWrite | ceTwInvalidate => exact .need (.timed_frame fun _ _ => .ceTwStart ..)
  | ceWindowComplete => exact .timed_frame fun _ _ => .after (.winDone ..) (.ceTwComplete ..)
  | twRead | twWrite | twInvalidate | twBankCopy | twEmInsert | twEmDelete | twEmFind | twEmFlush => exact .need (.need (.timed_frame fun _ _ => .twStart ..))
  | tableWindowComplete => exact .need (.predictable (.timed_frame fun _ _ => .after (.winDone ..) (.after (.twComplete ..) (.seeing ..))))
  | seqNop => exact .need (.act_frame fun _ _ => .after (.issue _ _ _ _ iNop) (.meeting ..))
  | seqDone => exact .need (.act_frame fun _ _ => .after (.issue _ _ _ _ iDone) (.meeting ..))
  | seqSetf => exact .need (.act_frame fun _ _ => .after (.issue _ _ _ _ iSetf) (.meeting ..))
  | seqLi => exact .need (.act_frame fun _ _ => .after (.issue _ _ _ _ iLi) (.meeting ..))
  | seqLui => exact .need (.act_frame fun _ _ => .after (.issue _ _ _ _ iLui) (.meeting ..))
  | seqAdd => exact .need (.act_frame fun _ _ => .after (.issue _ _ _ _ (iAlu 0)) (.meeting ..))
  | seqSub => exact .need (.act_frame fun _ _ => .after (.issue _ _ _ _ (iAlu 1)) (.meeting ..))
  | seqAnd => exact .need (.act_frame fun _ _ => .after (.issue _ _ _ _ (iAlu 2)) (.meeting ..))
  | seqOr => exact .need (.act_frame fun _ _ => .after (.issue _ _ _ _ (iAlu 3)) (.meeting ..))
  | seqXor => exact .need (.act_frame fun _ _ => .after (.issue _ _ _ _ (iAlu 4)) (.meeting ..))
  | seqShl => exact .need (.act_frame fun _ _ => .after (.issue _ _ _ _ (iAlu 5)) (.meeting ..))
  | seqShr => exact .need (.act_frame fun _ _ => .after (.issue _ _ _ _ (iAlu 6)) (.meeting ..))
  | seqSar => exact .need (.act_frame fun _ _ => .after (.issue _ _ _ _ (iAlu 7)) (.meeting ..))
  | seqMul => exact .need (.act_frame fun _ _ => .after (.issue _ _ _ _ (iAlu 8)) (.meeting ..))
  | seqMax => exact .need (.act_frame fun _ _ => .after (.issue _ _ _ _ (iAlu 9)) (.meeting ..))
  | seqMin => exact .need (.act_frame fun _ _ => .after (.issue _ _ _ _ (iAlu 10)) (.meeting ..))
  | seqAddi => exact .need (.act_frame fun _ _ => .after (.issue _ _ _ _ (iAluI 0)) (.meeting ..))
  | seqSubi => exact .need (.act_frame fun _ _ => .after (.issue _ _ _ _ (iAluI 1)) (.meeting ..))
  | seqAndi => exact .need (.act_frame fun _ _ => .after (.issue _ _ _ _ (iAluI 2)) (.meeting ..))
  | seqOri => exact .need (.act_frame fun _ _ => .after (.issue _ _ _ _ (iAluI 3)) (.meeting ..))
  | seqXori => exact .need (.act_frame fun _ _ => .after (.issue _ _ _ _ (iAluI 4)) (.meeting ..))
  | seqShli => exact .need (.act_frame fun _ _ => .after (.issue _ _ _ _ (iAluI 5)) (.meeting ..))
  | seqShri => exact .need (.act_frame fun _ _ => .after (.issue _ _ _ _ (iAluI 6)) (.meeting ..))
  | seqSari => exact .need (.act_frame fun _ _ => .after (.issue _ _ _ _ (iAluI 7)) (.meeting ..))
  | seqMuli => exact .need (.act_frame fun _ _ => .after (.issue _ _ _ _ (iAluI 8)) (.meeting ..))
  | seqMaxi => exact .need (.act_frame fun _ _ => .after (.issue _ _ _ _ (iAluI 9)) (.meeting ..))
  | seqMini => exact .need (.act_frame fun _ _ => .after (.issue _ _ _ _ (iAluI 10)) (.meeting ..))
  | seqGets => exact .need (.act_frame fun _ _ => .after (.issue _ _ _ _ iGets) (.meeting ..))
  | seqLdw => exact .need (.act_frame fun _ _ => .after (.issue _ _ _ _ iLdw) (.meeting ..))
  | seqStw => exact .need (.act_frame fun _ _ => .after (.issue _ _ _ _ iStw) (.meeting ..))
  | seqBra => exact .need (.act_frame fun _ _ => .after (.issue _ _ _ _ iBra) (.meeting ..))
  | seqBeq => exact .need (.act_frame fun _ _ => .after (.issue _ _ _ _ iBeq) (.meeting ..))
  | seqBne => exact .need (.act_frame fun _ _ => .after (.issue _ _ _ _ iBne) (.meeting ..))
  | seqBlt => exact .need (.act_frame fun _ _ => .after (.issue _ _ _ _ iBlt) (.meeting ..))
  | seqBge => exact .need (.act_frame fun _ _ => .after (.issue _ _ _ _ iBge) (.meeting ..))
  | seqAop => exact .need (.act_frame fun _ _ => .after (.issue _ _ _ _ iAop) (.meeting ..))
  | seqWait => exact .need (.act_frame fun _ _ => .after (.issue _ _ _ _ iWait) (.meeting ..))
  | seqOut => exact .need (.act_frame fun _ _ => .after (.issue _ _ _ _ iOut) (.meeting ..))
  | seqSend => exact .need (.act_frame fun _ _ => .after (.issue _ _ _ _ iSend) (.meeting ..))
  | seqRecv => exact .need (.act_frame fun _ _ => .after (.issue _ _ _ _ iRecv) (.meeting ..))
  | recipeBudgetExpire => exact .need (.timed_frame fun _ _ => .after (.budgetExpire ..) (.meeting ..))
  | messageDeliver => exact .need (.timed_frame fun _ _ => .msgDeliver ..)
  | messageExpire => exact .need (.timed_frame fun _ _ => .msgExpire ..)
  | lcsSend => exact .need (.timed_frame fun _ _ => .lcsSend ..)
  | lcsReceive => exact .need (.timed_frame fun _ _ => .lcsReceive ..)
  | lcsTimeoutXoff => exact .need (.timed_frame fun _ _ => .lcsStarve ..)
  | lcsTimeoutDown => exact .need (.timed_frame fun _ _ => .lcsDown ..)
  | train => exact .need (.timed_frame fun _ _ => .trainMsg ..)
  | echoReq => exact .need (.timed_frame fun _ _ => .echoReq ..)
  | echoResp => exact .need (.timed_frame fun _ _ => .echoResp ..)
  | feature => exact .need (.timed_frame fun _ _ => .featureMsg ..)
  | time => exact .need (.timed_frame fun _ _ => .timeMsg ..)
  | move | restore | narrow => exact .need (.timed_frame fun _ _ => .laneMsg ..)
  | moveAck | restoreAck | narrowAck => exact .need (.timed_frame fun _ _ => .laneAck ..)
  | refuse => exact .need (.timed_frame fun _ _ => .laneRefuse ..)
  | laneRequest => exact .need (.timed_frame fun _ _ => .laneRequest ..)
  | down => exact .need (.timed_frame fun _ _ => .downMsg ..)
  | laneEffectRow => exact .need (.timed_frame fun _ _ => .laneEffect ..)
  | laneAckTimeout => exact .need (.timed_frame fun _ _ => .laneAckTimeout ..)
  | laneLost => exact .need (.timed_frame fun _ _ => .laneLostBy ..)
  | holdoffExpire => exact .need (.timed_frame fun _ _ => .holdoffExpire ..)
  | linkEnable | linkDisable | indigoEnable | indigoDisable | slotEnable => exact .need (.need (.timed_frame fun _ _ => .putRw ..))
  | lightArrival => exact .need (.timed_frame fun _ _ => .lightArrival ..)
  | lightExit => exact .need (.timed_frame fun _ _ => .lightExit ..)
  | trainingCodeword => exact .need (.timed_frame fun _ _ => .trainingCodeword ..)
  | trainingTimeout => exact .need (.timed_frame fun _ _ => .trainingTimeout ..)
  | indigoActive => exact .need (.timed_frame fun _ _ => .indigoActive ..)
  | indigoCodewordPass => exact .need (.timed_frame fun _ _ => .indigoPass ..)
  | identityRead => exact .need (.timed_frame fun _ _ => .identityRead ..)
  | identityTimeout => exact .need (.timed_frame fun _ _ => .identityTimeout ..)
  | relockAttemptEnd => exact .need (.timed_frame fun _ _ => .relockEnd ..)
  | marginEval => exact .need (.timed_frame fun _ _ => .marginEval ..)
  | calVisitStart => exact .need (.timed_frame fun _ _ => .calStart ..)
  | calDwellEnd => exact .timed_frame fun _ _ => .calDwellEnd ..
  | moduleInserted | moduleRemoved => exact .need (.always_frame fun _ _ => .modulePin ..)
  | laserReady => exact .need (.timed_frame fun _ _ => .laserReady ..)
  | sourceLost => exact .timed_frame fun _ _ => .sourceLost ..
  | parentSwitch => exact .timed_frame fun _ _ => .parentSwitch ..
  | timeAnnounceSend => exact .timed_frame fun _ _ => .announce ..
  | timeAnnounceReceive => exact .need (.timed_frame fun _ _ => .annReceive ..)
  | setNow => exact .timed_frame fun _ _ => .setNow ..
  | setAtPps => exact .timed_frame fun _ _ => .setAtPps ..
  | ppsEdge => exact .timed_frame fun _ _ => .ppsEdge ..
  | sync => exact .timed_frame fun _ _ => .ptpSync ..
  | followUp => exact .timed_frame fun _ _ => .ptpFollow ..
  | delayReq => exact .timed_frame fun _ _ => .ptpReq ..
  | delayResp => exact .timed_frame fun _ _ => .ptpResp ..
  | announce => exact .timed_frame fun _ _ => .ptpAnnounce ..
  | ptpMessageSend => exact .timed_frame fun _ _ => .ptpSends ..
  | tpoGo | tpoCtrlCancel => exact .need (.timed_frame fun _ _ => .tpoWrite ..)
  | tpoPulse => exact .need (.timed_frame fun _ _ => .tpoPulse ..)
  | tpoPulseEnd => exact .need (.timed_frame fun _ _ => .tpoEnd ..)
  | mgmtPortLinkChange => exact .timed_frame fun _ _ => .mgmtLink ..
  | mgmtFrameReceive => exact .timed_frame fun _ _ => .mgmtFrame ..
  | neighborSolicitation => exact .need (.timed_frame fun _ _ => .ite (.neighbor ..) (.refl _))
  | echoRequest => exact .need (.timed_frame fun _ _ => .ite (.echo6 ..) (.refl _))
  | hello | finish | command | eventAck => exact .need (.timed_frame fun _ _ => .ite (.ucpFrame ..) (.refl _))
  | helloTimeout => exact .need (.timed_frame fun _ _ => .helloTimeout ..)
  | eventResend => exact .need (.timed_frame fun _ _ => .eventResend ..)
  | sessionIdleTimeout => exact .need (.timed_frame fun _ _ => .idleTimeout ..)
  | deviceInfo => exact .need (.act_frame fun _ _ => .opDeviceInfo ..)
  | sessionClose => exact .need (.act_frame fun _ _ => .opClose ..)
  | sessionFlush => exact .need (.act_frame fun _ _ => .opFlush ..)
  | sessionHistory => exact .need (.act_frame fun _ _ => .opHistory ..)
  | eventSubscribe => exact .need (.act_frame fun _ _ => .opSubscribe ..)
  | nopCommand => exact .need (.act_frame fun _ _ => .opNop ..)
  | csrRead => exact .need (.act_frame fun _ _ => .after (.opCsrRead ..) (.seeing ..))
  | csrWrite => exact .need (.predictable (.act fun _ _ h => h.opCsrWrite ..))
  | csrRmw => exact .need (.predictable (.act fun d _ h => .opCsrRmw (.frame (.seeing d _) h) ..))
  | csrPoll => exact .need (.act_frame fun _ _ => .after (.opCsrPoll ..) (.seeing ..))
  | csrPollTimeout => exact .need (.timed_frame fun _ _ => .after (.pollTimeout ..) (.seeing ..))
  | tblRead | tblWrite | tblInvalidate | bankCopy | emInsert | emDelete | emFind | emFlush | tblWriteAll => exact .need (.act_frame fun _ _ => .opTable ..)
  | ceRead | ceWrite | ceInvalidate => exact .need (.act_frame fun _ _ => .opCe ..)
  | partitionAbort => exact .need (.act_frame fun _ _ => .opPartAbort ..)
  | ceStatus => exact .need (.act_frame fun _ _ => .opCeStatus ..)
  | portStatus => exact .need (.act_frame fun _ _ => .opPortStatus ..)
  | portEnable => exact .need (.predictable (.act fun _ _ h => h.opPortEnable ..))
  | portQuiesce => exact .need (.predictable (.act fun _ _ h => h.opPortQuiesce ..))
  | indigoSet => exact .need (.predictable (.act fun _ _ h => h.opIndigo ..))
  | laneStatus => exact .need (.act_frame fun _ _ => .opLaneStatus ..)
  | slotCtrl => exact .need (.predictable (.act fun _ _ h => h.opSlotCtrl ..))
  | timeStatus => exact .need (.act_frame fun _ _ => .opTimeStatus ..)
  | tpoArm => exact .need (.act_frame fun _ _ => .opTpoArm ..)
  | tpoCancel => exact .need (.act_frame fun _ _ => .opTpoCancel ..)
  | portHold | laserService | oeSelftest | vatRetire | sliceSwap | ddrRetire | bankSelftest => exact .need (.act_frame fun _ _ => .opMaint ..)
  | maintStop => exact .need (.act_frame fun _ _ => .opMaintStop ..)
  | maintStatus => exact .need (.act_frame fun _ _ => .opMaintStatus ..)
  | errRead => exact .need (.act_frame fun _ _ => .opErrRead ..)
  | errAck => exact .need (.act_frame fun _ _ => .opErrAck ..)
  | erAck => exact .need (.timed_frame fun _ _ => .ackRecord ..)
  | fwStatus => exact .need (.act_frame fun _ _ => .opFwStatus ..)
  | imgBegin => exact .need (.act_frame fun _ _ => .opImgBegin ..)
  | imgData => exact .need (.act_frame fun _ _ => .opImgData ..)
  | firmwareImageCommit => exact .need (.act_frame fun _ _ => .opFwCommit ..)
  | recipeLoad => exact .need (.act_frame fun _ _ => .opRecipeCommit ..)
  | fwActivate => exact .need (.act_frame fun _ _ => .after (.opActivate ..) (.seeing ..))
  | getCerts => exact .need (.act_frame fun _ _ => .opGetCerts ..)
  | attest => exact .need (.act_frame fun _ _ => .opAttest ..)
  | credRead => exact .need (.act_frame fun _ _ => .opCredRead ..)
  | credWrite => exact .need (.act_frame fun _ _ => .opCredWrite ..)
  | svnCommitFirmware => exact .need (.actFuse fun _ _ h => h.svnFirmware ..)
  | svnCommitRecipe => exact .need (.actFuse fun _ _ h => h.svnRecipe ..)
  | ctrSnapshot => exact .need (.act_frame fun _ _ => .opSnapshot ..)
  | telemSubscribe => exact .need (.act_frame fun _ _ => .opTelem ..)
  | flightRead => exact .need (.act_frame fun _ _ => .after (.opFlight ..) (.seeing ..))
  | powerStatus => exact .need (.act_frame fun _ _ => .opPower ..)
  | thermalStatus => exact .need (.act_frame fun _ _ => .opThermal ..)
  | umberEnter => exact .need (.act_frame fun _ _ => .opUmber ..)
  | umberEntryComplete => exact .timed_frame fun _ _ => .umberDone ..
  | wakeReqWrite => exact .timed_frame fun _ _ => .wakeReqWrite ..
  | grantInstant => exact .timed_frame fun _ _ => .grant ..
  | rampStep => exact .timed_frame fun _ _ => .ramp ..
  | wakeComplete => exact .need (.timed_frame fun _ _ => .wakeDone ..)
  | bistDone => exact .need (.timed_frame fun _ _ => .bistDone ..)
  | thermalWarn => exact .need (.timed_frame fun _ _ => .thermWarn ..)
  | thermalTrip => exact .need (.always fun _ _ h => h.thermTrip ..)
  | railWarn => exact .need (.timed_frame fun _ _ => .railWarn ..)
  | undervoltageReset => exact .need (.always fun _ _ h => h.undervoltage ..)
  | powerOver => exact .timed_frame fun _ _ => .powerOver ..
  | powerOnReset => exact .always fun _ _ _ => .of_none (fuseBusy_powerOnReset _)
  | fullReset => exact .always fun _ _ _ => .of_none (fuseBusy_resetAssert ..)
  | resetRelease => exact .always_frame fun _ _ => .resetRelease ..
  | bootRetry => exact .timed_frame fun _ _ => .bootRetry ..
  | firmwareReady => exact .timed_frame fun _ _ => .firmwareReady ..
  | watchdogExpire => exact .timed_frame fun _ _ => .after (.watchdog ..) (.seeing ..)
  | trialConfirm => exact .timed_frame fun _ _ => .trialConfirm ..
  | coreFault => exact .need (.timed fun d _ h => .coreFault (.frame (.seeing d _) h) _)
  | mgmtReset => exact .timed fun _ _ _ => .of_none (fuseBusy_mgmtReset ..)
  | datapathReset => exact .timed_frame fun _ _ => .dpReset ..
  | datapathResetDone => exact .timed_frame fun _ _ => .dpResetDone ..
  | programOwner | programRkey | revokeFkey | revokeRkey => exact .predictable (.timed fun _ _ h => h.fuseGo ..)
  | fuseProgramDone => exact .passing (.actFuse fun d _ h => .fuseDone (.frame (.advance d _) h))
  | vatHardFault => exact .need (.timed_frame fun _ _ => .after (.vatHard ..) (.meeting ..))
  | vatDrainEnd => exact .need (.timed_frame fun _ _ => .after (.drainEnd ..) (.meeting ..))
  | vatSpareTestEnd => exact .need (.timed_frame fun _ _ => .spareTest ..)
  | sliceSwapSwitchover => exact .timed_frame fun _ _ => .swapOver ..
  | wireSpareSwitch => exact .timed_frame fun _ _ => .wireSwitch ..
  | deferredRowRepair => exact .timed_frame fun _ _ => .deferredRepair ..
  | segmentMoveComplete => exact .need (.timed_frame fun _ _ => .segmentMove ..)
  | selftestComplete => exact .timed_frame fun _ _ => .selfTestEnd ..
  | healthDecay => exact .timed_frame fun _ _ => .healthDecay ..
  | hsRelease => exact .predictable (.timed_frame fun _ _ => .hsRelease ..)
  | pmClear => exact .need (.need (.timed fun _ _ h => h.csrWrite ..))
  | telemetryReport => exact .timed_frame fun _ _ => .reports ..
  | ringDump => exact .timed_frame fun _ _ => .ringDump ..
  | flightFreeze => exact .timed_frame fun _ _ => .flightFreeze ..
  | patrolScrub => exact .need (.timed_frame fun _ _ => .scrub ..)
  | imgCommitComplete => exact .timed_frame fun _ _ => .commitDone ..
  | railLeavesTolerance => exact .need (.timed_frame fun _ _ => .wakeFail ..)
  | announceReceiptTimeout => exact .timed_frame fun _ _ => .ptpAnnTimeout ..

end Sys2Proof.Machine
end

section
/-! PROOFS. No step undoes a blown fuse (spec/17_boot_security.md R590, R591, R595). -/
namespace Sys2Proof.Machine
open Dev

namespace Fuses

theorem le_refl (u : Fuses) : u.le u :=
  ⟨fun h => ⟨h, rfl⟩, fun _ => rfl, fun _ => rfl, le_rfl, le_rfl, Nat.and_self _, Nat.and_self _⟩

/-- Blowing the fuse of an operation that was not refused undoes nothing: its key is not fused, and a revocation sets one bit. -/
theorem le_blown {u : Fuses} {op index : Nat} (h : Unfused u op index) (key : List Byte) : u.le (Dev.blown u op index key) := by
  obtain ⟨howned, h2, h3, hfw, hrcp, hf, hr⟩ := u.le_refl
  obtain ⟨howner, hkey⟩ := h
  unfold Dev.blown
  split
  · exact ⟨fun h => absurd h (by simp [howner rfl]), h2, h3, hfw, hrcp, hf, hr⟩
  · replace hkey := hkey rfl
    split_ifs with hi
    · rw [if_pos hi] at hkey
      exact ⟨howned, fun h => absurd hkey h, h3, hfw, hrcp, hf, hr⟩
    · rw [if_neg hi] at hkey
      exact ⟨howned, h2, fun h => absurd hkey h, hfw, hrcp, hf, hr⟩
  · split_ifs
    · exact ⟨howned, h2, h3, hfw, hrcp, land_putBits_one u.fRev index, hr⟩
    · exact u.le_refl
  · split_ifs
    · exact ⟨howned, h2, h3, hfw, hrcp, hf, land_putBits_one u.rRev index⟩
    · exact u.le_refl
  · exact u.le_refl

theorem le_svnFirmware (d : Dev) (u : Fuses) : u.le (d.svnFirmware u) := by
  obtain ⟨howned, h2, h3, -, hrcp, hf, hr⟩ := u.le_refl
  exact ⟨howned, h2, h3, le_max_left .., hrcp, hf, hr⟩

theorem le_svnRecipe (d : Dev) (u : Fuses) : u.le (d.svnRecipe u) := by
  obtain ⟨howned, h2, h3, hfw, -, hf, hr⟩ := u.le_refl
  exact ⟨howned, h2, h3, hfw, le_max_left .., hf, hr⟩

end Fuses

theorem FuseStep.le {s : State} {u : Fuses} (w : FuseStep s u) (h : s.dev.Fresh s.fuse) : s.fuse.le u := by
  cases w with
  | kept => exact s.fuse.le_refl
  | blown now op index key busy => exact Fuses.le_blown ((h.frame (.advance s.dev now)).unfused op index key busy) key
  | firmware => exact Fuses.le_svnFirmware ..
  | recipe => exact Fuses.le_svnRecipe ..

theorem step_keepsFresh (s : State) : KeepsFresh s (step s) := by
  unfold step
  split
  · next c r _ => exact ⟨(exec_keepsFresh c { s with pending := r }).next⟩
  · exact .idle s

end Sys2Proof.Machine

open Sys2Proof Sys2Proof.Machine

/-- Settles O10: a step keeps the freshness of the operation in progress, and so what it blows was not blown before. -/
theorem fusesAreNeverCleared : Obligations.FusesAreNeverCleared := by
  intro s t hfresh hstep
  rw [State.fuseFresh_iff] at hfresh ⊢
  obtain ⟨q, w⟩ := step_fuseStep hstep
  exact ⟨w.le hfresh, (step_keepsFresh s).next t hstep hfresh⟩

end
